-- ==== Sys2Proof/Word.lean ====
section
/-! DEFINITION. The byte, the CRC register word and the sparse indexed table that the rest of the model is built from. -/

namespace Sys2Proof

/-- One byte on a link or on a string (R179: numbers are sent as bytes, most significant first). -/
abbrev Byte := BitVec 8

/-- A CRC-16 register, a digest, a link sequence number (R122, R155). -/
abbrev Word16 := BitVec 16

/-- A table addressed by index: the listed entries are the ones present (or, for a table whose entries always exist, the
ones that differ from the value an unlisted entry reads as). Canonical form: indices strictly rising (see `Tab.Sorted`). -/
abbrev Tab (α : Type) := List (Nat × α)

end Sys2Proof
end

