-- ==== Sys2Proof/Config.lean ====
section
/-! DEFINITION. What the spec leaves open (opaque constants, no body) and the fixed capacities and times it gives. -/

namespace Sys2Proof.Config

/-- FREE VALUE (log entry 1): which of several events that the spec says may come in either order is taken first. Applied
to State's draw counter. Nothing constrains it. -/
opaque freePick : Nat → Nat

/-- FREE VALUE (log entry 16): the request-kind byte of the MALFORMED reply to a request whose body is empty. R180 gives
the reply "the request kind it answers"; an empty body names none. Applied to State's draw counter. -/
opaque freeByte : Nat → Byte

/-- FREE VALUE (log entry 27): the size, less one, of a slot of a fixed template to which R110 gives no size; R106 bounds it.
Applied to the template's number and the slot's place in it. -/
opaque freeSize (template slot : Nat) : Fin 3

/-- FREE VALUE (log entry 27): the argument of a slot of a fixed template whose source takes none; R110 gives none, and a READ
(R108, R180) returns it in two bytes. Applied to the template's number and the slot's place in it. -/
opaque freeArgument (template slot : Nat) : Fin 65536

/-- R21: the Display Directory holds 512 entries. -/
abbrev displayCount : Nat := 512
/-- R37. -/
abbrev nodeCount : Nat := 256
/-- R38. -/
abbrev segmentCount : Nat := 1024
/-- R40. -/
abbrev destinationCount : Nat := 32
/-- R41. -/
abbrev listCount : Nat := 64
/-- R64. -/
abbrev programmeCapacity : Nat := 256
/-- R80. -/
abbrev cabinCount : Nat := 384
/-- R96. -/
abbrev noticeCount : Nat := 64
/-- R113: 1024 text ids in 4 variants. -/
abbrev textVariantCount : Nat := 4096
/-- R105. -/
abbrev templateCount : Nat := 64
/-- R105: templates 0..15 are fixed. -/
abbrev fixedTemplateCount : Nat := 16
/-- R111. -/
abbrev selectionCount : Nat := 36
/-- R17. -/
abbrev closureCount : Nat := 128
/-- R153. -/
abbrev forwardQueueCapacity : Nat := 16
/-- R156. -/
abbrev replyQueueCapacity : Nat := 4
/-- R159. -/
abbrev reportQueueCapacity : Nat := 32
/-- R151. -/
abbrev maxBodyLength : Nat := 1024
/-- R43, R47: the largest effort a cell may hold. -/
abbrev maxEffort : Nat := 65534
/-- R43: the cap of a path length. -/
abbrev maxLength : Nat := 65535
/-- R7: the muster-line filter, in ms. -/
abbrev musterFilterMs : Nat := 200
/-- R148: a line signal present this long (ms) brings a port UP. -/
abbrev portUpMs : Nat := 100
/-- R148: a line signal absent this long (ms) brings a port DOWN. -/
abbrev portDownMs : Nat := 10
/-- R137, R143: the probe interval, in ms. -/
abbrev probeIntervalMs : Nat := 30000
/-- R141: BUSY and REFRESH times are capped at this many ms. -/
abbrev refreshCapMs : Nat := 10000
/-- R140: tries of one step. -/
abbrev maxTries : Nat := 3
/-- R177: elapsed times are capped at this many ms. -/
abbrev elapsedCapMs : Nat := 4294967295
/-- R134: SAFETY dispatches opened one after another before a due poll or probe goes first. -/
abbrev safetyRunLimit : Nat := 4
/-- R178. -/
abbrev vendorCode : Nat := 5601
/-- R178. -/
abbrev partCode : Nat := 820
/-- R178. -/
abbrev revision : Nat := 1

end Sys2Proof.Config
end

