-- ==== Sys2Proof/Syntax.lean ====
section
/-! DEFINITION. The commands of the 820: one constructor per row of spec/opcode_table.json. -/

namespace Sys2Proof

/-- The two link ports (R148; numbered FORE 0, AFT 1 in R167). -/
inductive Port where
  | fore
  | aft
  deriving DecidableEq, Repr

/-- The other end of the chain (R153). -/
def Port.other : Port → Port
  | .fore => .aft
  | .aft => .fore

/-- A string controller's number, 0..7 (R127). -/
abbrev StringNo := Fin 8

/-- One slot of a SLOTS value as it travels in a WRITE (R180): every part one byte, the argument two. -/
structure RawSlot where
  column : Nat
  row : Nat
  width : Nat
  height : Nat
  size : Nat
  emphasis : Bool
  source : Nat
  argument : Nat
  language : Nat
  condition : Nat
  polarity : Nat
  deriving DecidableEq, Repr

/-- The value of a WRITE pair, by its tag (R180). -/
inductive FieldValue where
  | number (n : Nat)
  | flag (b : Bool)
  | absent
  | list (ns : List Nat)
  | string (codes : List Nat)
  | slots (ss : List RawSlot)
  deriving DecidableEq, Repr

/-- A field list of a WRITE: (field number, value) pairs in the order sent (R165). -/
abbrev FieldList := List (Nat × FieldValue)

/-- How a frame reaches the 820: the port it arrives on and the header fields that the Frame Switch reads (chapter 9,
Receiving a frame). `dest` is 1..239 a node, 240..254 a zone group, 255 all-cast, 0 no node. -/
structure Arrival where
  port : Port
  origin : Nat
  node : Nat
  dest : Nat
  hop : Nat
  seq : Nat
  deriving DecidableEq, Repr

/-- The commands. Each is one step of spec/opcode_table.json, "whole and indivisible" (95_what_each_step_holds.md). -/
inductive Instr where
  /-- POWER_ON_RESET, with the level of the ADDR straps at the release of reset (R150). -/
  | powerOnReset (straps : BitVec 8)
  /-- MUSTER_IN_CHANGE: the raw pin takes this level (high is alarm). -/
  | musterInChange (level : Bool)
  /-- MUSTER_LINE_CHANGE: the 200 ms filter completes. -/
  | musterLineChange
  /-- CLOCK_SECOND_ADVANCE: 1000 ms have passed since the sub-second position. -/
  | clockSecondAdvance
  /-- STAND_DOWN_HOLD_EXPIRY: the stand-down hold runs out. -/
  | standDownHoldExpiry
  /-- BRIDGE_SILENCE_EXPIRY: the bridge-silence timer runs out. -/
  | bridgeSilenceExpiry
  /-- LINE_SIGNAL_CHANGE: the link partner's line signal appears or disappears on a port. -/
  | lineSignalChange (p : Port) (present : Bool)
  /-- PORT_UP: the line signal has been present for 100 ms. -/
  | portUp (p : Port)
  /-- PORT_DOWN: the line signal has been absent for 10 ms. -/
  | portDown (p : Port)
  /-- FRAME_RECEIVE: these bytes have arrived on a port as one complete frame. -/
  | frameReceive (p : Port) (bytes : List Byte)
  /-- TIME_BULLETIN: a frame whose body is a TIME bulletin arrives. -/
  | timeBulletin (a : Arrival) (day minute second : Nat)
  /-- PHASE_BULLETIN: a frame whose body is a PHASE bulletin arrives. -/
  | phaseBulletin (a : Arrival) (phase : Nat) (drill : Bool)
  /-- CLOSURES_BULLETIN: a frame whose body is a CLOSURES bulletin arrives. -/
  | closuresBulletin (a : Arrival) (first : Nat) (states : List Nat)
  /-- LIGHT_BULLETIN: a frame whose body is a LIGHT bulletin arrives. -/
  | lightBulletin (a : Arrival) (level : Nat)
  /-- CABIN_MARK_BULLETIN: a frame whose body is a CABIN_MARK bulletin arrives. -/
  | cabinMarkBulletin (a : Arrival) (cabins : List Nat)
  /-- ASSIST_CLEAR_BULLETIN: a frame whose body is an ASSIST_CLEAR bulletin arrives. -/
  | assistClearBulletin (a : Arrival) (cabins : List Nat)
  /-- WRITE request. -/
  | write (a : Arrival) (table index : Nat) (fields : FieldList)
  /-- READ request. -/
  | read (a : Arrival) (table index : Nat)
  /-- CLEAR request. -/
  | clear (a : Arrival) (table index : Nat)
  /-- CLEAR_TABLE request. -/
  | clearTable (a : Arrival) (table : Nat)
  /-- ADJUST_STEPS request: target kind, target value, code. -/
  | adjustSteps (a : Arrival) (kind value code : Nat)
  /-- HOLD_STRING request. -/
  | holdString (a : Arrival) (string : Nat)
  /-- FREE_STRING request. -/
  | freeString (a : Arrival) (string : Nat)
  /-- RETRY_DISPLAY request. -/
  | retryDisplay (a : Arrival) (display : Nat)
  /-- RESTART request. -/
  | restart (a : Arrival)
  /-- STATUS request. -/
  | status (a : Arrival)
  /-- DISPLAY_STATUS request. -/
  | displayStatus (a : Arrival) (display : Nat)
  /-- IDENTIFY request. -/
  | identify (a : Arrival)
  /-- TRANSMIT_BEGIN: a port's arbiter makes its choice. -/
  | transmitBegin (p : Port)
  /-- TRANSMIT_END: the frame being sent on a port has gone. -/
  | transmitEnd (p : Port)
  /-- DISPATCH_TAKE by a string controller. -/
  | dispatchTake (k : StringNo)
  /-- POLL_TAKE by a string controller. -/
  | pollTake (k : StringNo)
  /-- PROBE_TAKE by a string controller. -/
  | probeTake (k : StringNo)
  /-- READY reply on a string, with its tag and class. -/
  | ready (k : StringNo) (tag cls : Nat)
  /-- BUSY reply, with its tag and the remaining ms. -/
  | busy (k : StringNo) (tag ms : Nat)
  /-- ACK reply. -/
  | ack (k : StringNo) (tag : Nat)
  /-- NAK reply. -/
  | nak (k : StringNo) (tag : Nat)
  /-- REFRESH reply, with its tag and the refresh time in ms. -/
  | refresh (k : StringNo) (tag ms : Nat)
  /-- EVENTS reply, with its tag and button event codes. -/
  | events (k : StringNo) (tag : Nat) (codes : List Nat)
  /-- STRING_REPLY_DISCARD: these bytes have arrived on a string as one complete reply. -/
  | stringReplyDiscard (k : StringNo) (bytes : List Byte)
  /-- REPLY_TIMEOUT of the try in flight on a string. -/
  | replyTimeout (k : StringNo)
  /-- REFRESH_BUSY_REACHED of a display. -/
  | refreshBusyReached (display : Nat)
  /-- MIN_REFRESH_EXPIRY of a display. -/
  | minRefreshExpiry (display : Nat)
  /-- POLL_DUE of a display. -/
  | pollDue (display : Nat)
  /-- PROBE_DUE of a display. -/
  | probeDue (display : Nat)
  /-- SOLVER_TAKE. -/
  | solverTake
  /-- SWEEP_END: the sweep in progress over all 1024 segments completes. -/
  | sweepEnd
  deriving DecidableEq, Repr

/-- The content of a bulletin body (R180). `other` is a body of any other kind, of no byte, or of a length that its kind's
layout does not give: it changes no state (R1, R179). -/
inductive Bulletin where
  | time (day minute second : Nat)
  | phase (phase : Nat) (drill : Bool)
  | closures (first : Nat) (states : List Nat)
  | light (level : Nat)
  | cabinMark (cabins : List Nat)
  | assistClear (cabins : List Nat)
  | other
  deriving DecidableEq, Repr

/-- The content of a request body (R163, R180). `malformed` is a body not in form, with the kind byte it begins with. -/
inductive Request where
  | write (table index : Nat) (fields : FieldList)
  | read (table index : Nat)
  | clear (table index : Nat)
  | clearTable (table : Nat)
  | adjustSteps (kind value code : Nat)
  | holdString (string : Nat)
  | freeString (string : Nat)
  | retryDisplay (display : Nat)
  | restart
  | status
  | displayStatus (display : Nat)
  | identify
  | malformed (kind : Option Nat)
  deriving DecidableEq, Repr

/-- What a frame carries for the blocks behind the Frame Switch (R154). -/
inductive Content where
  | bulletin (b : Bulletin)
  | request (r : Request)
  | unused
  deriving DecidableEq, Repr

/-- A link frame less its CRC, which the other fields determine (R180). `hop` is the low six bits of its byte. -/
structure Frame where
  kind : Nat
  origin : Nat
  node : Nat
  dest : Nat
  hop : Nat
  seq : Nat
  body : List Byte
  deriving DecidableEq, Repr

/-- A reply on a string, by its code (R181). `unknown` is a code that is none of the six reply codes. -/
inductive StringReply where
  | ready (cls : Nat)
  | busy (ms : Nat)
  | ack
  | nak
  | refresh (ms : Nat)
  | events (codes : List Nat)
  | unknown (code : Nat)
  deriving DecidableEq, Repr

end Sys2Proof
end

