-- ==== Sys2Proof/WellFormed.lean ====
section
/-! DEFINITION. Which commands a link partner, a display or a pin can actually spell: every number fits the bytes that
R180 and R181 give it. The meanings do not need it; decode-of-encode statements do. -/

namespace Sys2Proof

/-- The number fits one byte. -/
def fits8 (n : Nat) : Bool := decide (n < 256)

/-- The number fits two bytes. -/
def fits16 (n : Nat) : Bool := decide (n < 65536)

/-- The number fits four bytes. -/
def fits32 (n : Nat) : Bool := decide (n < 4294967296)

/-- The header of R180: one byte each, six bits of hop limit, two bytes of sequence. -/
def Arrival.wf (a : Arrival) : Bool :=
  fits8 a.origin && fits8 a.node && fits8 a.dest && decide (a.hop < 64) && fits16 a.seq

/-- A slot of 12 bytes (R180). -/
def RawSlot.wf (x : RawSlot) : Bool :=
  fits8 x.column && fits8 x.row && fits8 x.width && fits8 x.height && fits8 x.size && fits8 x.source &&
    fits16 x.argument && fits8 x.language && fits8 x.condition && fits8 x.polarity

/-- A value that its tag's layout can carry (R180). -/
def FieldValue.wf : FieldValue → Bool
  | .number n => fits32 n
  | .flag _ => true
  | .absent => true
  | .list ns => fits8 ns.length && ns.all fits16
  | .string cs => fits8 cs.length && cs.all fits16
  | .slots ss => fits8 ss.length && ss.all RawSlot.wf

/-- The bytes a value takes after its tag (R180). -/
def FieldValue.size : FieldValue → Nat
  | .number _ => 4
  | .flag _ => 1
  | .absent => 0
  | .list ns => 1 + 2 * ns.length
  | .string cs => 1 + 2 * cs.length
  | .slots ss => 1 + 12 * ss.length

/-- A field list of at most 255 pairs that a WRITE body of at most 1024 bytes can carry. -/
def fieldsWf (fs : FieldList) : Bool :=
  fits8 fs.length && fs.all (fun p => fits8 p.1 && p.2.wf) &&
    decide (5 + (fs.map (fun p => 2 + p.2.size)).sum ≤ Config.maxBodyLength)

/-- A bulletin that its layout can carry (R180). -/
def Bulletin.wf : Bulletin → Bool
  | .time d m sec => fits16 d && fits16 m && fits8 sec
  | .phase p _ => fits8 p
  | .closures f st => fits8 f && fits8 st.length && st.all fits8
  | .light l => fits8 l
  | .cabinMark ns => fits8 ns.length && ns.all fits16
  | .assistClear ns => fits8 ns.length && ns.all fits16
  | .other => false

/-- A request that its layout can carry (R180). -/
def Request.wf : Request → Bool
  | .write t i fs => fits8 t && fits16 i && fieldsWf fs
  | .read t i => fits8 t && fits16 i
  | .clear t i => fits8 t && fits16 i
  | .clearTable t => fits8 t
  | .adjustSteps k v c => fits8 k && fits16 v && fits8 c
  | .holdString k => fits8 k
  | .freeString k => fits8 k
  | .retryDisplay d => fits16 d
  | .restart => true
  | .status => true
  | .displayStatus d => fits16 d
  | .identify => true
  | .malformed _ => false

/-- The command can be spelled on the line, string or pin it comes from. -/
def Instr.wf : Instr → Bool
  | .powerOnReset _ => true
  | .musterInChange _ => true
  | .musterLineChange => true
  | .clockSecondAdvance => true
  | .standDownHoldExpiry => true
  | .bridgeSilenceExpiry => true
  | .lineSignalChange _ _ => true
  | .portUp _ => true
  | .portDown _ => true
  | .frameReceive _ _ => true
  | .timeBulletin a d m sec => a.wf && (Bulletin.time d m sec).wf
  | .phaseBulletin a p d => a.wf && (Bulletin.phase p d).wf
  | .closuresBulletin a f st => a.wf && (Bulletin.closures f st).wf
  | .lightBulletin a l => a.wf && (Bulletin.light l).wf
  | .cabinMarkBulletin a ns => a.wf && (Bulletin.cabinMark ns).wf
  | .assistClearBulletin a ns => a.wf && (Bulletin.assistClear ns).wf
  | .write a t ix fs => a.wf && (Request.write t ix fs).wf
  | .read a t ix => a.wf && (Request.read t ix).wf
  | .clear a t ix => a.wf && (Request.clear t ix).wf
  | .clearTable a t => a.wf && (Request.clearTable t).wf
  | .adjustSteps a k v c => a.wf && (Request.adjustSteps k v c).wf
  | .holdString a k => a.wf && (Request.holdString k).wf
  | .freeString a k => a.wf && (Request.freeString k).wf
  | .retryDisplay a d => a.wf && (Request.retryDisplay d).wf
  | .restart a => a.wf
  | .status a => a.wf
  | .displayStatus a d => a.wf && (Request.displayStatus d).wf
  | .identify a => a.wf
  | .transmitBegin _ => true
  | .transmitEnd _ => true
  | .dispatchTake _ => true
  | .pollTake _ => true
  | .probeTake _ => true
  | .ready _ tag c => fits8 tag && fits8 c
  | .busy _ tag ms => fits8 tag && fits16 ms
  | .ack _ tag => fits8 tag
  | .nak _ tag => fits8 tag
  | .refresh _ tag ms => fits8 tag && fits16 ms
  | .events _ tag cs => fits8 tag && decide (cs.length ≤ 4) && cs.all fits8
  | .stringReplyDiscard _ _ => true
  | .replyTimeout _ => true
  | .refreshBusyReached d => decide (d < Config.displayCount)
  | .minRefreshExpiry d => decide (d < Config.displayCount)
  | .pollDue d => decide (d < Config.displayCount)
  | .probeDue d => decide (d < Config.displayCount)
  | .solverTake => true
  | .sweepEnd => true

end Sys2Proof
end

