-- ==== Sys2Proof/Decode.lean ====
section
/-! DEFINITION. The byte layouts of chapter 11: CRC, frames, bulletin and request bodies, reply and report bodies, string
messages and replies; each read totally (rejecting by name) and each written. -/

namespace Sys2Proof

/-- The command a table word spells: spec/opcode_table.json gives no row any bits, so no word spells one. -/
def decodeTableWord (_nbits _w : Nat) : Option Instr := none

/-! ### Bytes and the CRC -/

/-- The low eight bits of a number, as a byte. -/
def byteOf (n : Nat) : Byte := BitVec.ofNat 8 n

/-- Two bytes, most significant first (R179). -/
def be16 (n : Nat) : List Byte := [byteOf (n / 256), byteOf n]

/-- Four bytes, most significant first (R179). -/
def be32 (n : Nat) : List Byte :=
  [byteOf (n / 16777216), byteOf (n / 65536), byteOf (n / 256), byteOf n]

/-- A flag byte as it is sent. R179 sends a clear flag as 0, and says only that any other value is set: that a set flag is sent
as 1 is the model's choice (log entry 34). -/
def flagByte (b : Bool) : Byte := if b then 1#8 else 0#8

/-- A flag byte as it is read: any value but 0 is set (R179). -/
def flagOf (b : Byte) : Bool := b != 0#8

/-- The number in two bytes, most significant first (R179). -/
def num16 (hi lo : Byte) : Nat := hi.toNat * 256 + lo.toNat

/-- The number in four bytes, most significant first (R179). -/
def num32 (a b c d : Byte) : Nat := ((a.toNat * 256 + b.toNat) * 256 + c.toNat) * 256 + d.toNat

/-- One bit of the CRC register: x^16 + x^12 + x^5 + 1, most significant bit first (R122). -/
def crcBit (r : Word16) : Word16 := if r.msb then (r <<< 1) ^^^ 0x1021#16 else r <<< 1

/-- One byte fed into the CRC register, its most significant bit first (R122). -/
def crcByte (r : Word16) (b : Byte) : Word16 :=
  crcBit (crcBit (crcBit (crcBit (crcBit (crcBit (crcBit (crcBit (r ^^^ (b.setWidth 16 <<< 8)))))))))

/-- R122: the CRC-16 of a byte string; the register starts at all ones and the result is not inverted. -/
def crc16 (bs : List Byte) : Word16 := bs.foldl crcByte 0xFFFF#16

/-- A CRC as two bytes, most significant first. -/
def crcBytes (bs : List Byte) : List Byte := be16 (crc16 bs).toNat

/-! ### Link frames (R180) -/

/-- The header's nine bytes; the reserved hop-limit bits are sent as 0 (R179). -/
def Frame.header (f : Frame) : List Byte :=
  [byteOf f.kind, byteOf f.origin, byteOf f.node, byteOf f.dest, byteOf (f.hop % 64)]
    ++ be16 f.seq ++ be16 f.body.length

/-- The frame as it goes out on a link: header, body and a CRC computed over both. -/
def Frame.bytes (f : Frame) : List Byte :=
  f.header ++ f.body ++ crcBytes (f.header ++ f.body)

/-- Why a received byte string is no frame (the first three cases of R151). -/
inductive FrameFault where
  /-- Its CRC does not equal its CRC field. -/
  | badCrc
  /-- It cannot hold a header and a CRC. -/
  | tooShort
  /-- Its body length field is above 1024 or is not the number of body bytes received. -/
  | badLength
  deriving DecidableEq, Repr

/-- The checks of R151 that need no state, and the header's fields. -/
def parseFrame (bs : List Byte) : Except FrameFault Frame :=
  match bs with
  | k :: o :: n :: d :: h :: s1 :: s0 :: l1 :: l0 :: rest =>
    if rest.length < 2 then .error .tooShort
    else if Config.maxBodyLength < num16 l1 l0 ∨ num16 l1 l0 ≠ rest.length - 2 then .error .badLength
    else if crcBytes (bs.take (bs.length - 2)) ≠ bs.drop (bs.length - 2) then .error .badCrc
    else .ok {
      kind := k.toNat, origin := o.toNat, node := n.toNat, dest := d.toNat,
      hop := h.toNat % 64, seq := num16 s1 s0, body := rest.take (rest.length - 2) }
  | _ => .error .tooShort

/-- A frame's kind codes (R179). -/
def kindBulletin : Nat := 0
def kindRequest : Nat := 1
def kindReply : Nat := 2
def kindReport : Nat := 3

/-- Origin class codes (R179). -/
def originBridge : Nat := 0
def originContent : Nat := 1
def originMaintenance : Nat := 2
def originController : Nat := 3

/-! ### Lists of numbers in a body -/

/-- `n` two-byte numbers from the front of the bytes, with what follows. -/
def readU16s : Nat → List Byte → Option (List Nat × List Byte)
  | 0, bs => some ([], bs)
  | n + 1, hi :: lo :: bs =>
    match readU16s n bs with
    | some (ns, rest) => some (num16 hi lo :: ns, rest)
    | none => none
  | _ + 1, _ => none

/-- Numbers as two bytes each. -/
def writeU16s (ns : List Nat) : List Byte := ns.flatMap be16

/-! ### Bulletin bodies (R180) -/

/-- Bulletin kind codes (R179). -/
def Bulletin.bytes : Bulletin → List Byte
  | .time d m sec => byteOf 0 :: (be16 d ++ be16 m ++ [byteOf sec])
  | .phase p dr => [byteOf 1, byteOf p, flagByte dr]
  | .closures f st => byteOf 2 :: byteOf f :: byteOf st.length :: st.map byteOf
  | .light l => [byteOf 3, byteOf l]
  | .cabinMark ns => byteOf 4 :: byteOf ns.length :: writeU16s ns
  | .assistClear ns => byteOf 5 :: byteOf ns.length :: writeU16s ns
  | .other => []

/-- The list of numbers of a CABIN_MARK or ASSIST_CLEAR body, when the body has the length its count gives (R179). -/
def readCabinList (bs : List Byte) : Option (List Nat) :=
  match bs with
  | c :: rest =>
    match readU16s c.toNat rest with
    | some (ns, []) => some ns
    | _ => none
  | [] => none

/-- R179: a bulletin body is read by its first byte; no byte, an unknown kind or a wrong length is `other`. -/
def parseBulletin (body : List Byte) : Bulletin :=
  match body with
  | [] => .other
  | k :: rest =>
    match k.toNat, rest with
    | 0, [d1, d0, m1, m0, sec] => .time (num16 d1 d0) (num16 m1 m0) sec.toNat
    | 1, [p, dr] => .phase p.toNat (flagOf dr)
    | 2, f :: c :: st => if c.toNat = st.length then .closures f.toNat (st.map (·.toNat)) else .other
    | 3, [l] => .light l.toNat
    | 4, r => match readCabinList r with
      | some ns => .cabinMark ns
      | none => .other
    | 5, r => match readCabinList r with
      | some ns => .assistClear ns
      | none => .other
    | _, _ => .other

/-! ### Request bodies (R180) -/

/-- The twelve bytes of a slot. -/
def RawSlot.bytes (x : RawSlot) : List Byte :=
  [byteOf x.column, byteOf x.row, byteOf x.width, byteOf x.height, byteOf x.size, flagByte x.emphasis, byteOf x.source]
    ++ be16 x.argument ++ [byteOf x.language, byteOf x.condition, byteOf x.polarity]

/-- `n` slots from the front of the bytes, with what follows. -/
def readSlots : Nat → List Byte → Option (List RawSlot × List Byte)
  | 0, bs => some ([], bs)
  | n + 1, c :: r :: w :: h :: sz :: e :: src :: a1 :: a0 :: l :: cd :: p :: bs =>
    match readSlots n bs with
    | some (xs, rest) =>
      some ({ column := c.toNat, row := r.toNat, width := w.toNat, height := h.toNat, size := sz.toNat,
              emphasis := flagOf e, source := src.toNat, argument := num16 a1 a0, language := l.toNat,
              condition := cd.toNat, polarity := p.toNat } :: xs, rest)
    | none => none
  | _ + 1, _ => none

/-- A value's tag and bytes (R180). -/
def FieldValue.bytes : FieldValue → List Byte
  | .number n => byteOf 0 :: be32 n
  | .flag b => [byteOf 1, flagByte b]
  | .absent => [byteOf 2]
  | .list ns => byteOf 3 :: byteOf ns.length :: writeU16s ns
  | .string cs => byteOf 4 :: byteOf cs.length :: writeU16s cs
  | .slots xs => byteOf 5 :: byteOf xs.length :: xs.flatMap RawSlot.bytes

/-- The value after a tag, with what follows; none where the tag is above 5 or bytes are wanting. -/
def readValue (tag : Nat) (bs : List Byte) : Option (FieldValue × List Byte) :=
  match tag, bs with
  | 0, a :: b :: c :: d :: rest => some (.number (num32 a b c d), rest)
  | 1, b :: rest => some (.flag (flagOf b), rest)
  | 2, rest => some (.absent, rest)
  | 3, c :: rest => (readU16s c.toNat rest).map fun p => (.list p.1, p.2)
  | 4, c :: rest => (readU16s c.toNat rest).map fun p => (.string p.1, p.2)
  | 5, c :: rest => (readSlots c.toNat rest).map fun p => (.slots p.1, p.2)
  | _, _ => none

/-- One pair: field number, tag and value. -/
def pairBytes (p : Nat × FieldValue) : List Byte := byteOf p.1 :: p.2.bytes

/-- `n` pairs from the front of the bytes, with what follows. -/
def readPairs : Nat → List Byte → Option (FieldList × List Byte)
  | 0, bs => some ([], bs)
  | n + 1, f :: t :: bs =>
    match readValue t.toNat bs with
    | some (v, rest) =>
      match readPairs n rest with
      | some (ps, rest') => some ((f.toNat, v) :: ps, rest')
      | none => none
    | none => none
  | _ + 1, _ => none

/-- Request kind codes, in the order of the table of R163 (R179); none for a body of no byte. -/
def Request.kindCode : Request → Option Nat
  | .write _ _ _ => some 0
  | .read _ _ => some 1
  | .clear _ _ => some 2
  | .clearTable _ => some 3
  | .adjustSteps _ _ _ => some 4
  | .holdString _ => some 5
  | .freeString _ => some 6
  | .retryDisplay _ => some 7
  | .restart => some 8
  | .status => some 9
  | .displayStatus _ => some 10
  | .identify => some 11
  | .malformed k => k

/-- A request body (R180). -/
def Request.bytes : Request → List Byte
  | .write t i fs => byteOf 0 :: byteOf t :: (be16 i ++ byteOf fs.length :: fs.flatMap pairBytes)
  | .read t i => byteOf 1 :: byteOf t :: be16 i
  | .clear t i => byteOf 2 :: byteOf t :: be16 i
  | .clearTable t => [byteOf 3, byteOf t]
  | .adjustSteps k v c => byteOf 4 :: byteOf k :: (be16 v ++ [byteOf c])
  | .holdString k => [byteOf 5, byteOf k]
  | .freeString k => [byteOf 6, byteOf k]
  | .retryDisplay d => byteOf 7 :: be16 d
  | .restart => [byteOf 8]
  | .status => [byteOf 9]
  | .displayStatus d => byteOf 10 :: be16 d
  | .identify => [byteOf 11]
  | .malformed (some k) => [byteOf k]
  | .malformed none => []

/-- The form check of a request body by R180: an unknown kind, tag or length gives `malformed`. -/
def parseRequest (body : List Byte) : Request :=
  match body with
  | [] => .malformed none
  | k :: rest =>
    match k.toNat, rest with
    | 0, t :: i1 :: i0 :: p :: bs =>
      match readPairs p.toNat bs with
      | some (fs, []) => .write t.toNat (num16 i1 i0) fs
      | _ => .malformed (some 0)
    | 1, [t, i1, i0] => .read t.toNat (num16 i1 i0)
    | 2, [t, i1, i0] => .clear t.toNat (num16 i1 i0)
    | 3, [t] => .clearTable t.toNat
    | 4, [tk, v1, v0, c] => .adjustSteps tk.toNat (num16 v1 v0) c.toNat
    | 5, [s] => .holdString s.toNat
    | 6, [s] => .freeString s.toNat
    | 7, [d1, d0] => .retryDisplay (num16 d1 d0)
    | 8, [] => .restart
    | 9, [] => .status
    | 10, [d1, d0] => .displayStatus (num16 d1 d0)
    | 11, [] => .identify
    | n, _ => .malformed (some n)

/-- What a frame carries for the blocks behind the Frame Switch (R154, R179). -/
def Frame.content (f : Frame) : Content :=
  if f.kind = kindBulletin then .bulletin (parseBulletin f.body)
  else if f.kind = kindRequest then .request (parseRequest f.body)
  else .unused

/-- The frame in which a bulletin arrives. -/
def Arrival.bulletinFrame (a : Arrival) (b : Bulletin) : Frame :=
  { kind := kindBulletin, origin := a.origin, node := a.node, dest := a.dest, hop := a.hop, seq := a.seq, body := b.bytes }

/-- The frame in which a request arrives. -/
def Arrival.requestFrame (a : Arrival) (r : Request) : Frame :=
  { kind := kindRequest, origin := a.origin, node := a.node, dest := a.dest, hop := a.hop, seq := a.seq, body := r.bytes }

/-! ### String messages and replies (R181) -/

/-- Message codes (R181). -/
def codeSelect : Nat := 1
def codeScreen : Nat := 2
def codeCommit : Nat := 3
def codeRelease : Nat := 4
def codePoll : Nat := 5

/-- A message or reply on a string: tag, code, payload length, payload and the CRC of those. -/
def stringBytes (tag code : Nat) (payload : List Byte) : List Byte :=
  let front := byteOf tag :: byteOf code :: (be16 payload.length ++ payload)
  front ++ crcBytes front

/-- R181: a payload length is the one its code gives, for the codes of messages that give one (SCREEN's is the record's) and for
the codes that the table does not have; a reply code is judged with its payload. -/
def payloadFits (code length : Nat) : Bool :=
  match code with
  | 1 => length == 1
  | 3 => length == 0
  | 4 => length == 0
  | 5 => length == 1
  | c => !(decide (129 ≤ c) && decide (c ≤ 134))

/-- The payload of a reply, by its code (R181). -/
def StringReply.parse (code : Nat) (payload : List Byte) : Option StringReply :=
  match code, payload with
  | 129, [c] => some (.ready c.toNat)
  | 130, [h, l] => some (.busy (num16 h l))
  | 131, [] => some .ack
  | 132, [] => some .nak
  | 133, [h, l] => some (.refresh (num16 h l))
  | 134, e :: es => if e.toNat = es.length ∧ e.toNat ≤ 4 then some (.events (es.map (·.toNat))) else none
  | c, _ => if payloadFits c payload.length then some (.unknown c) else none

/-- R181: a complete reply that passes its check, with its tag; none for one that fails it. -/
def parseStringReply (bs : List Byte) : Option (Nat × StringReply) :=
  match bs with
  | t :: c :: m1 :: m0 :: rest =>
    if rest.length = num16 m1 m0 + 2 ∧ crcBytes (bs.take (bs.length - 2)) = bs.drop (bs.length - 2) then
      (StringReply.parse c.toNat (rest.take (num16 m1 m0))).map fun r => (t.toNat, r)
    else none
  | _ => none

/-- A reply's code and payload (R181). -/
def StringReply.payload : StringReply → Nat × List Byte
  | .ready c => (129, [byteOf c])
  | .busy ms => (130, be16 ms)
  | .ack => (131, [])
  | .nak => (132, [])
  | .refresh ms => (133, be16 ms)
  | .events cs => (134, byteOf cs.length :: cs.map byteOf)
  | .unknown c => (c, [])

/-- A reply as its bytes on the string. -/
def StringReply.bytes (tag : Nat) (r : StringReply) : List Byte :=
  stringBytes tag r.payload.1 r.payload.2

end Sys2Proof
end

