-- ==== Sys2Proof/Machine/State.lean ====
section
/-! DEFINITION. Everything the 820 holds, as plain data, and its power-on values. -/

namespace Sys2Proof.Machine

/-- Faults. No command of the 820 stops the machine: what a link partner, a display or a pin can send is carried out,
answered with a result code, discarded or ignored, so this type has no constructor and no run ends in a fault. -/
inductive Fault : Type
  deriving DecidableEq, Repr

/-- Refusals. -/
inductive Refusal where
  /-- Raised by an arm of `exec` whose command has no meaning yet; safe (the run stops). No arm raises it. -/
  | notModelled (mnemonic : String)
  deriving DecidableEq, Repr

/-! ### Ship State Unit (chapter 1) -/

/-- R8: the four phases, numbered 0..3 on the link (R179). -/
inductive Phase where
  | normal
  | alert
  | muster
  | standDown
  deriving DecidableEq, Repr

/-- R17: the state of a closure. -/
inductive Closure where
  | opened
  | closed
  | unknown
  deriving DecidableEq, Repr

/-- R18: the light level. -/
inductive Light where
  | day
  | night
  deriving DecidableEq, Repr

/-- The state of the Ship State Unit (R2, R7, R8, R15, R17, R18, R19). -/
structure Ship where
  /-- R2: voyage day. -/
  day : Nat
  /-- R2: minute of day. -/
  minute : Nat
  /-- R2: second. -/
  second : Nat
  /-- R2: the clock is VALID. -/
  valid : Bool
  /-- R2: monotonic time at which the current second began. -/
  subSecond : Nat
  /-- R7: the filtered muster line is ASSERTED. -/
  line : Bool
  /-- R7: the raw MUSTER_IN level last seen. -/
  raw : Bool
  /-- R7: monotonic time at which that level began. -/
  rawSince : Nat
  /-- R8: the phase. -/
  phase : Phase
  /-- R8, R10: the drill flag. -/
  drill : Bool
  /-- R12: the stand-down hold, by the monotonic time at which it expires; none when no hold runs. -/
  hold : Option Nat
  /-- R12: the hold run-out mark. -/
  holdRunOut : Bool
  /-- R15: the bridge-silence timer, by the monotonic time at which it expires; none when it has stopped. -/
  silence : Option Nat
  /-- R15: LINK_LOST. -/
  linkLost : Bool
  /-- R17: the 128 closure states; a closure not listed is UNKNOWN. -/
  closures : Tab Closure
  /-- R18: the light level. -/
  light : Light
  /-- R19: quiet hours are in force. -/
  quiet : Bool
  deriving DecidableEq, Repr

/-- The NODE table's one entry (R167). -/
structure NodeParams where
  holdTime : Nat
  silenceTime : Nat
  quietStart : Nat
  quietEnd : Nat
  walkRate : Nat
  wCorridor : Nat
  wStairUp : Nat
  wStairDown : Nat
  wLift : Nat
  wOpenDeck : Nat
  retention : Nat
  /-- Fields 12..17, by display class. -/
  minRefresh : Vector Nat 6
  quietMask : BitVec 8
  zoneGroup : Option Nat
  reportDest : Nat
  reportPort : Port
  txHop : Nat
  deriving DecidableEq, Repr

/-! ### Display Directory (chapter 2) -/

/-- R22: the display classes, numbered 0..5. -/
inductive DisplayClass where
  | musterPoint
  | corridor
  | lobby
  | programme
  | cabin
  | liftLanding
  deriving DecidableEq, Repr

/-- The urgency of a mark for update, numbered 0..2 (R179). -/
inductive Urgency where
  | safety
  | service
  | routine
  deriving DecidableEq, Repr

/-- R118: the glyphs. An arrow is named by its octant (R60). -/
inductive Glyph where
  | arrow (octant : Fin 8)
  | stairsUp
  | stairsDown
  | lift
  | here
  | noRoute
  | routePending
  | now
  | next
  | cancelled
  | restricted
  | dnd
  | mur
  | assist
  | swept
  | drill
  deriving DecidableEq, Repr

/-- A route value that is not all blank (R59): glyph, distance in metres and minutes with their OVER mark, where shown. -/
structure RouteValue where
  glyph : Glyph
  distance : Option Nat
  minutes : Option (Nat × Bool)
  deriving DecidableEq, Repr

/-- R31: where a display stands with its screen; the queue urgency goes with QUEUED. -/
inductive UpdateState where
  | clean
  | queued (u : Urgency)
  | opened
  | faulted
  deriving DecidableEq, Repr

/-- R31, R143: why a display is FAULTED, numbered 0..2. -/
inductive FaultCause where
  | noReply
  | rejected
  | mismatch
  deriving DecidableEq, Repr

/-- The configuration fields of a display (R22). -/
structure DisplayConfig where
  string : StringNo
  position : Nat
  cls : DisplayClass
  deck : Nat
  node : Nat
  facing : Nat
  language : Nat
  list : Option Nat
  categoryMask : BitVec 16
  deckMask : BitVec 16
  horizon : Nat
  dayStep : Nat
  nightStep : Nat
  deriving DecidableEq, Repr

/-- The runtime record of a display (R31). -/
structure DisplayRuntime where
  state : UpdateState
  /-- The stale flag is set when this is present; its value is the stale urgency. -/
  stale : Option Urgency
  digest : Option Word16
  lastCommit : Option Nat
  busyUntil : Nat
  failures : Nat
  fault : Option FaultCause
  lastFail : Option Nat
  lastPoll : Option Nat
  /-- R28: held route values by route position 0..8; a position not listed holds none. -/
  held : Tab RouteValue
  deriving DecidableEq, Repr

/-- A present entry of the DISPLAYS table (R21). -/
structure Display where
  cfg : DisplayConfig
  rt : DisplayRuntime
  deriving DecidableEq, Repr

/-! ### Route Store and Solver (chapter 3) -/

/-- R38: the kind of a segment, numbered 0..3. -/
inductive SegmentKind where
  | corridor
  | stair
  | lift
  | openDeck
  deriving DecidableEq, Repr

/-- A present entry of the SEGMENTS table (R38). -/
structure Segment where
  a : Nat
  b : Nat
  kind : SegmentKind
  length : Nat
  heading : Nat
  /-- Direction A_TO_B. -/
  oneWay : Bool
  closure : Option Nat
  musterOnly : Bool
  enabled : Bool
  deriving DecidableEq, Repr

/-- R40: the kind of a destination, numbered 0..3. -/
inductive DestKind where
  | venue
  | musterStation
  | servicePoint
  | exit
  deriving DecidableEq, Repr

/-- R44: the solver status of a present destination, numbered 0..3. -/
inductive DestStatus where
  | pending
  | solving
  | suspended
  | settled
  deriving DecidableEq, Repr

/-- R43: a traversal, as a segment and whether it is taken b→a. -/
structure Hop where
  segment : Nat
  back : Bool
  deriving DecidableEq, Repr

/-- R43: a cell of the route field; an effort of none is UNREACHABLE. -/
structure Cell where
  effort : Option Nat
  length : Nat
  hop : Option Hop
  deriving DecidableEq, Repr

/-- A present entry of the DESTINATIONS table with its runtime status and its cells of the route field (R40, R43). A node
whose cell is not listed is UNREACHABLE with length 0 and next hop none. -/
structure Dest where
  name : Option Nat
  kind : DestKind
  targets : List Nat
  status : DestStatus
  sweeps : Nat
  cells : Tab Cell
  deriving DecidableEq, Repr

/-! ### Daily Programme (chapter 4) -/

/-- R65: the status of a programme entry, numbered 0..3. -/
inductive EntryStatus where
  | scheduled
  | running
  | ended
  | cancelled
  deriving DecidableEq, Repr

/-- A present entry of the PROGRAMME table (R65). -/
structure ProgEntry where
  id : Nat
  day : Nat
  start : Nat
  duration : Nat
  venue : Option Nat
  category : Nat
  deck : Nat
  title : Nat
  status : EntryStatus
  deriving DecidableEq, Repr

/-! ### Cabins (chapter 5) -/

/-- A present entry of the CABINS table with its four runtime flags (R80, R85). -/
structure Cabin where
  number : Nat
  display : Nat
  station : Option Nat
  /-- The character code of the muster group letter. -/
  group : Option Nat
  occupied : Bool
  language : Option Nat
  greeting : Option Nat
  dnd : Bool
  mur : Bool
  assist : Bool
  swept : Bool
  deriving DecidableEq, Repr

/-! ### Notices (chapter 6) -/

/-- A present slot of the NOTICES table with its current flag (R96). -/
structure Notice where
  priority : Nat
  classMask : BitVec 6
  deckMask : BitVec 16
  text : Nat
  start : Option Nat
  stop : Option Nat
  current : Bool
  deriving DecidableEq, Repr

/-! ### Screen Composer (chapter 7) -/

/-- R105: the two grids. -/
inductive Grid where
  | large
  | small
  deriving DecidableEq, Repr

/-- R116, R117: the 22 sources, in the order of their codes. -/
inductive Source where
  | text
  | destName
  | arrow
  | distance
  | minutes
  | progTitle
  | progVenue
  | progTime
  | progMark
  | progArrow
  | cabinNumber
  | greeting
  | musterName
  | musterGroup
  | musterArrow
  | musterDistance
  | musterMinutes
  | noticeText
  | clock
  | deck
  | serviceGlyphs
  | phaseMark
  deriving DecidableEq, Repr

/-- R115: the 16 conditions, in the order of their codes. -/
inductive Condition where
  | always
  | alertOrMuster
  | drill
  | noticePresent
  | dnd
  | mur
  | occupied
  | assist
  | swept
  | routePending
  | destUnreachable
  | progPresent
  | progCancelled
  | quiet
  | linkLost
  | standDown
  deriving DecidableEq, Repr

/-- The box of a slot on the character grid (R106). -/
structure Box where
  column : Nat
  row : Nat
  width : Nat
  height : Nat
  deriving DecidableEq, Repr

/-- A slot of a template (R106). A language of none is the selector DISPLAY. -/
structure Slot where
  box : Box
  size : Nat
  emphasis : Bool
  source : Source
  argument : Nat
  language : Option Nat
  condition : Condition
  showWhenTrue : Bool
  deriving DecidableEq, Repr

/-- A present template (R105). -/
structure Template where
  grid : Grid
  slots : List Slot
  timeDependent : Bool
  deriving DecidableEq, Repr

/-! ### Access Region Table (chapter 10) -/

/-- An access region (R171); a table of none disables it. -/
structure Region where
  table : Option Nat
  first : Nat
  last : Nat
  readContent : Bool
  readMaintenance : Bool
  readBridge : Bool
  writeContent : Bool
  writeMaintenance : Bool
  writeBridge : Bool
  lock : Bool
  deriving DecidableEq, Repr

/-! ### Display strings (chapter 8) -/

/-- R129: the state of a string. -/
inductive StringState where
  | idle
  | opened
  | holding
  | held
  deriving DecidableEq, Repr

/-- A place in an update queue: the display and its entry stamp (R131). -/
structure QEntry where
  display : Nat
  stamp : Nat
  deriving DecidableEq, Repr

/-- The kind of the open transaction and, for a dispatch, the composed record with its digest (R139). -/
inductive TxnKind where
  | dispatch (record : List Byte) (digest : Word16)
  | poll
  | probe
  deriving DecidableEq, Repr

/-- The step of the open transaction, by the message whose reply is awaited (R141, R144, R145). -/
inductive TxnStep where
  | select
  | screen
  | commit
  | poll
  deriving DecidableEq, Repr

/-- The open transaction of a string: kind, display, step, try number, return place, and the tag and time of the message
whose reply is awaited (R132, R140). -/
structure Txn where
  kind : TxnKind
  display : Nat
  step : TxnStep
  tries : Nat
  place : Option (Urgency × Nat)
  tag : Nat
  sentAt : Nat
  deriving DecidableEq, Repr

/-- A string controller (chapter 8, the table of what each holds). -/
structure StringCtl where
  enabled : Bool
  timeout : Nat
  pollPeriod : Nat
  state : StringState
  safety : List QEntry
  service : List QEntry
  routine : List QEntry
  counter : Nat
  run : Nat
  cursor : Nat
  tag : Nat
  txn : Option Txn
  /-- The MODEL's own field (log entry 20): the bytes of the message last sent on the string's line. -/
  lineOut : List Byte
  deriving DecidableEq, Repr

/-! ### Deck link (chapter 9) -/

/-- One link port: its state, the line signal of its partner with the time that level began (R148), its forward queue, and
the frame it is sending, as the bytes on the line. -/
structure LinkPort where
  up : Bool
  signal : Bool
  signalSince : Nat
  queue : List Frame
  sending : Option (List Byte)
  deriving DecidableEq, Repr

/-- A reply owed on a port (R156, R157): its destination, sequence and body. -/
structure Reply where
  port : Port
  dest : Nat
  seq : Nat
  body : List Byte
  deriving DecidableEq, Repr

/-- The kinds of report, numbered 0..7 (R179); the kind fixes the class (the table before R159). -/
inductive ReportKind where
  | assist
  | musterRoute
  | lineHeld
  | serviceCall
  | dndChange
  | murChange
  | displayFault
  | displayRecovered
  deriving DecidableEq, Repr

/-- The ship-clock stamp of a report (R159). -/
structure Stamp where
  valid : Bool
  day : Nat
  minute : Nat
  second : Nat
  deriving DecidableEq, Repr

/-- A pending report (R159). -/
structure Report where
  kind : ReportKind
  subject : Nat
  value : Nat
  stamp : Stamp
  arrival : Nat
  deriving DecidableEq, Repr

/-! ### The whole machine -/

/-- The state of the 820. INVENTORY.md lists each field with the rule that names it. -/
structure State where
  /-- The commands that wait, first in, first out. -/
  pending : List Instr
  /-- R6: the monotonic time base, in ms. -/
  now : Nat
  /-- The ADDR strap pins, as read at the release of reset (R150). -/
  straps : BitVec 8
  ship : Ship
  node : NodeParams
  displays : Tab Display
  /-- R37: present nodes with their decks. -/
  nodes : Tab Nat
  segments : Tab Segment
  dests : Tab Dest
  /-- R41: destination lists; one not listed is empty. -/
  lists : Tab (List Nat)
  /-- R64: the programme table in (absolute start, id) order. -/
  programme : List ProgEntry
  /-- R78, R79: the absolute minute of the last evaluation. -/
  lastEvaluation : Option Nat
  cabins : Tab Cabin
  /-- R92: last reported loss counts; a destination not listed has 0. -/
  lossReported : Tab Nat
  notices : Tab Notice
  /-- R105: present writable templates, 16..63. -/
  templates : Tab Template
  /-- R111: selection entries; one not listed is none. -/
  selection : Tab Nat
  /-- R113: text variants by id × 4 + language; one not listed is empty. -/
  texts : Tab (List Nat)
  regions : Vector Region 8
  strings : Vector StringCtl 8
  /-- R128: the quiet-in-force copy of the string controllers. -/
  quietCopy : Bool
  fore : LinkPort
  aft : LinkPort
  /-- R150: the node address. -/
  address : Option Nat
  /-- R155: the bulletin watermark; none when cleared. -/
  watermark : Option Nat
  replies : List Reply
  reports : List Report
  /-- R159: the report arrival counter. -/
  reportArrival : Nat
  /-- R161: the report sequence. -/
  reportSeq : Nat
  /-- The MODEL's own field: how many free values have been drawn (log entry 1). -/
  draws : Nat
  deriving DecidableEq, Repr

/-! ### Power-on values -/

/-- R20: the Ship State Unit after power-on reset; the raw level is the pin's, its timing begins at the release. -/
def Ship.reset (raw : Bool) : Ship :=
  { day := 0, minute := 0, second := 0, valid := false, subSecond := 0, line := false, raw := raw, rawSince := 0,
    phase := .normal, drill := false, hold := none, holdRunOut := false, silence := some 10000, linkLost := false,
    closures := [], light := .day, quiet := false }

/-- R167: the defaults of the NODE table. -/
def NodeParams.reset : NodeParams :=
  { holdTime := 120, silenceTime := 10, quietStart := 0, quietEnd := 0, walkRate := 720, wCorridor := 8, wStairUp := 20,
    wStairDown := 12, wLift := 4, wOpenDeck := 10, retention := 30, minRefresh := #v[0, 0, 0, 0, 20, 0],
    quietMask := 0xFF#8, zoneGroup := none, reportDest := 255, reportPort := .fore, txHop := 63 }

/-- R171: a region after power-on reset. -/
def Region.reset : Region :=
  { table := none, first := 0, last := 0, readContent := false, readMaintenance := false, readBridge := false,
    writeContent := false, writeMaintenance := false, writeBridge := false, lock := false }

/-- R147: a string controller after power-on reset. -/
def StringCtl.reset : StringCtl :=
  { enabled := true, timeout := 8, pollPeriod := 1000, state := .idle, safety := [], service := [], routine := [],
    counter := 0, run := 0, cursor := 0, tag := 0, txn := none, lineOut := [] }

/-- R148, R162: a link port after power-on reset; the partner's signal is the line's, its timing begins at the release. -/
def LinkPort.reset (signal : Bool) : LinkPort :=
  { up := false, signal := signal, signalSince := 0, queue := [], sending := none }

/-- R150: the node address that the straps give. -/
def strapAddress (straps : BitVec 8) : Option Nat :=
  if 1 ≤ straps.toNat ∧ straps.toNat ≤ 239 then some straps.toNat else none

/-- Every block at its power-on values (R20, R63, R79, R95, R104, R126, R147, R162, R167, R171), under the levels that the
pins have at the release of reset. -/
def State.powerOn (pending : List Instr) (straps : BitVec 8) (raw foreSignal aftSignal : Bool) (draws : Nat) : State :=
  { pending := pending, now := 0, straps := straps, ship := Ship.reset raw, node := NodeParams.reset, displays := [],
    nodes := [], segments := [], dests := [], lists := [], programme := [], lastEvaluation := none, cabins := [],
    lossReported := [], notices := [], templates := [], selection := [], texts := [],
    regions := Vector.replicate 8 Region.reset, strings := Vector.replicate 8 StringCtl.reset, quietCopy := false,
    fore := LinkPort.reset foreSignal, aft := LinkPort.reset aftSignal, address := strapAddress straps, watermark := none,
    replies := [], reports := [], reportArrival := 0, reportSeq := 0, draws := draws }

/-- The machine right after power-on reset, with nothing waiting. The pins' levels there are the model's (log entry 7):
straps 0, MUSTER_IN low (its internal pull-down, R181's pin summary), no line signal on either port. -/
def State.reset : State := State.powerOn [] 0#8 false false false 0

end Sys2Proof.Machine
end

