-- ==== Sys2Proof/Machine/Table.lean ====
section
/-! DEFINITION. The operations over indexed tables, kept in canonical form: indices strictly rising. -/

namespace Sys2Proof

/-- The entry at an index, if it is listed. -/
def Tab.fetch {α : Type} : Tab α → Nat → Option α
  | [], _ => none
  | (i, x) :: t, k => if i = k then some x else Tab.fetch t k

/-- The entry at an index, or the value an unlisted index reads as. -/
def Tab.fetchD {α : Type} (t : Tab α) (k : Nat) (d : α) : α := (Tab.fetch t k).getD d

/-- The table with an entry put at an index, in its place by index. -/
def Tab.store {α : Type} : Tab α → Nat → α → Tab α
  | [], k, v => [(k, v)]
  | (i, x) :: t, k, v =>
    if k < i then (k, v) :: (i, x) :: t
    else if k = i then (k, v) :: t
    else (i, x) :: Tab.store t k v

/-- The table without the entry at an index. -/
def Tab.discard {α : Type} (t : Tab α) (k : Nat) : Tab α := t.filter (fun p => p.1 != k)

/-- Put a value at an index of a table whose unlisted entries read as `d`: that value is not listed. -/
def Tab.put {α : Type} [DecidableEq α] (t : Tab α) (k : Nat) (v d : α) : Tab α :=
  if v = d then Tab.discard t k else Tab.store t k v

/-- Change the entry at an index, if it is listed. -/
def Tab.change {α : Type} (t : Tab α) (k : Nat) (f : α → α) : Tab α :=
  match Tab.fetch t k with
  | some x => Tab.store t k (f x)
  | none => t

/-- The listed indices, in increasing order. -/
def Tab.indices {α : Type} (t : Tab α) : List Nat := t.map (·.1)

/-- Every listed entry changed alike. -/
def Tab.mapAll {α : Type} (t : Tab α) (f : α → α) : Tab α := t.map fun p => (p.1, f p.2)

/-- Every listed entry changed by its index. -/
def Tab.mapWith {α : Type} (t : Tab α) (f : Nat → α → α) : Tab α := t.map fun p => (p.1, f p.1 p.2)

/-- The canonical form: indices strictly rising and all below `n`. -/
abbrev Tab.Sorted {α : Type} (t : Tab α) (n : Nat) : Prop :=
  t.Pairwise (fun p q => p.1 < q.1) ∧ ∀ p ∈ t, p.1 < n

end Sys2Proof
end

