-- ==== Sys2Proof/Machine/Codes.lean ====
section
/-! DEFINITION. The numbers that enumerated values are sent as (R179 and the field tables of each chapter). -/

namespace Sys2Proof.Machine

/-- R179. -/
def Phase.code : Phase → Nat
  | .normal => 0
  | .alert => 1
  | .muster => 2
  | .standDown => 3

/-- R179; none outside the four phases. -/
def Phase.ofCode : Nat → Option Phase
  | 0 => some .normal
  | 1 => some .alert
  | 2 => some .muster
  | 3 => some .standDown
  | _ => none

/-- The pair ALERT, MUSTER (R53). -/
def Phase.emergency : Phase → Bool
  | .normal => false
  | .alert => true
  | .muster => true
  | .standDown => false

/-- R179. -/
def Closure.code : Closure → Nat
  | .opened => 0
  | .closed => 1
  | .unknown => 2

/-- R179; none for a value that is none of the three. -/
def Closure.ofCode : Nat → Option Closure
  | 0 => some .opened
  | 1 => some .closed
  | 2 => some .unknown
  | _ => none

/-- R17: a closure is passable when it is OPEN or UNKNOWN. -/
def Closure.passable : Closure → Bool
  | .opened => true
  | .closed => false
  | .unknown => true

/-- R179; none for a value that is neither. -/
def Light.ofCode : Nat → Option Light
  | 0 => some .day
  | 1 => some .night
  | _ => none

/-- R22. -/
def DisplayClass.code : DisplayClass → Nat
  | .musterPoint => 0
  | .corridor => 1
  | .lobby => 2
  | .programme => 3
  | .cabin => 4
  | .liftLanding => 5

/-- R22; none outside 0..5. -/
def DisplayClass.ofCode : Nat → Option DisplayClass
  | 0 => some .musterPoint
  | 1 => some .corridor
  | 2 => some .lobby
  | 3 => some .programme
  | 4 => some .cabin
  | 5 => some .liftLanding
  | _ => none

/-- R22: the grid follows from the class. -/
def DisplayClass.grid : DisplayClass → Grid
  | .musterPoint => .large
  | .corridor => .small
  | .lobby => .large
  | .programme => .large
  | .cabin => .small
  | .liftLanding => .small

/-- R75: a board is a display of class PROGRAMME or LOBBY. -/
def DisplayClass.isBoard : DisplayClass → Bool
  | .programme => true
  | .lobby => true
  | _ => false

/-- R22: grid size in columns. -/
def Grid.columns : Grid → Nat
  | .large => 40
  | .small => 20

/-- R22: grid size in rows. -/
def Grid.rows : Grid → Nat
  | .large => 16
  | .small => 8

/-- R105. -/
def Grid.code : Grid → Nat
  | .large => 0
  | .small => 1

/-- R105; none outside the two. -/
def Grid.ofCode : Nat → Option Grid
  | 0 => some .large
  | 1 => some .small
  | _ => none

/-- R179. -/
def Urgency.code : Urgency → Nat
  | .safety => 0
  | .service => 1
  | .routine => 2

/-- SAFETY is higher than SERVICE, SERVICE than ROUTINE. -/
def Urgency.higher (u v : Urgency) : Bool := decide (u.code < v.code)

/-- The higher of two urgencies. -/
def Urgency.max (u v : Urgency) : Urgency := if u.code ≤ v.code then u else v

/-- R118. -/
def Glyph.code : Glyph → Nat
  | .arrow o => o.val
  | .stairsUp => 8
  | .stairsDown => 9
  | .lift => 10
  | .here => 11
  | .noRoute => 12
  | .routePending => 13
  | .now => 16
  | .next => 17
  | .cancelled => 18
  | .restricted => 19
  | .dnd => 24
  | .mur => 25
  | .assist => 26
  | .swept => 27
  | .drill => 32

/-- R179: the display update state. -/
def UpdateState.code : UpdateState → Nat
  | .clean => 0
  | .queued _ => 1
  | .opened => 2
  | .faulted => 3

/-- R143. -/
def FaultCause.code : FaultCause → Nat
  | .noReply => 0
  | .rejected => 1
  | .mismatch => 2

/-- R38. -/
def SegmentKind.code : SegmentKind → Nat
  | .corridor => 0
  | .stair => 1
  | .lift => 2
  | .openDeck => 3

/-- R38; none outside the list. -/
def SegmentKind.ofCode : Nat → Option SegmentKind
  | 0 => some .corridor
  | 1 => some .stair
  | 2 => some .lift
  | 3 => some .openDeck
  | _ => none

/-- R40. -/
def DestKind.code : DestKind → Nat
  | .venue => 0
  | .musterStation => 1
  | .servicePoint => 2
  | .exit => 3

/-- R40; none outside the list. -/
def DestKind.ofCode : Nat → Option DestKind
  | 0 => some .venue
  | 1 => some .musterStation
  | 2 => some .servicePoint
  | 3 => some .exit
  | _ => none

/-- R179. -/
def DestStatus.code : DestStatus → Nat
  | .pending => 0
  | .solving => 1
  | .suspended => 2
  | .settled => 3

/-- R179: ABSENT as a destination status. -/
def destAbsentCode : Nat := 4

/-- R180: a next hop is segment × 2 plus 0 for a→b or 1 for b→a. -/
def Hop.code (h : Hop) : Nat := h.segment * 2 + if h.back then 1 else 0

/-- R179. -/
def EntryStatus.code : EntryStatus → Nat
  | .scheduled => 0
  | .running => 1
  | .ended => 2
  | .cancelled => 3

/-- R179: the string state. -/
def StringState.code : StringState → Nat
  | .idle => 0
  | .opened => 1
  | .holding => 2
  | .held => 3

/-- R167. -/
def Port.code : Port → Nat
  | .fore => 0
  | .aft => 1

/-- R179. -/
def ReportKind.code : ReportKind → Nat
  | .assist => 0
  | .musterRoute => 1
  | .lineHeld => 2
  | .serviceCall => 3
  | .dndChange => 4
  | .murChange => 5
  | .displayFault => 6
  | .displayRecovered => 7

/-- The class of each kind of report: 3 ASSIST, 2 SAFETY, 1 SERVICE, 0 STATUS (the table before R159). -/
def ReportKind.cls : ReportKind → Nat
  | .assist => 3
  | .musterRoute => 2
  | .lineHeld => 2
  | .serviceCall => 1
  | .dndChange => 1
  | .murChange => 1
  | .displayFault => 0
  | .displayRecovered => 0

/-- The 22 sources in the order of their codes (R116, R117). -/
def Source.all : List Source :=
  [.text, .destName, .arrow, .distance, .minutes, .progTitle, .progVenue, .progTime, .progMark, .progArrow, .cabinNumber,
   .greeting, .musterName, .musterGroup, .musterArrow, .musterDistance, .musterMinutes, .noticeText, .clock, .deck,
   .serviceGlyphs, .phaseMark]

/-- The source with a code, none above 21. -/
def Source.ofCode (n : Nat) : Option Source := Source.all[n]?

/-- The code of a source. -/
def Source.code (x : Source) : Nat := Source.all.idxOf x

/-- The 16 conditions in the order of their codes (R115). -/
def Condition.all : List Condition :=
  [.always, .alertOrMuster, .drill, .noticePresent, .dnd, .mur, .occupied, .assist, .swept, .routePending,
   .destUnreachable, .progPresent, .progCancelled, .quiet, .linkLost, .standDown]

/-- The condition with a code, none above 15. -/
def Condition.ofCode (n : Nat) : Option Condition := Condition.all[n]?

/-- The code of a condition. -/
def Condition.code (x : Condition) : Nat := Condition.all.idxOf x

/-- R116, R117: the argument of a route or programme source names a position or item 0..8. -/
def Source.takesPosition : Source → Bool
  | .destName | .arrow | .distance | .minutes => true
  | .progTitle | .progVenue | .progTime | .progMark | .progArrow => true
  | _ => false

/-- R116, R117: the sources whose argument is read. -/
def Source.takesArgument (x : Source) : Bool := x.takesPosition || x == .text || x == .serviceGlyphs

/-- R109: the sources that make a template time-dependent. -/
def Source.timeDependent : Source → Bool
  | .clock | .progTitle | .progVenue | .progTime | .progMark | .progArrow => true
  | _ => false

/-- The numbers of the screen modes (R111). -/
inductive ScreenMode where
  | normal
  | notice
  | quiet
  | alert
  | muster
  | standDown
  deriving DecidableEq, Repr

/-- R111. -/
def ScreenMode.code : ScreenMode → Nat
  | .normal => 0
  | .notice => 1
  | .quiet => 2
  | .alert => 3
  | .muster => 4
  | .standDown => 5

/-- R111; the modes with codes 0..5 (an index of SELECTION gives no other). -/
def ScreenMode.ofCode : Nat → ScreenMode
  | 0 => .normal
  | 1 => .notice
  | 2 => .quiet
  | 3 => .alert
  | 4 => .muster
  | _ => .standDown

/-- The result codes (R168). -/
inductive ResultCode where
  | done
  | adjusted
  | malformed
  | noTable
  | badIndex
  | denied
  | phase
  | badField
  | badRef
  | conflict
  | busy
  | full
  | closed
  deriving DecidableEq, Repr

/-- R168. -/
def ResultCode.code : ResultCode → Nat
  | .done => 0
  | .adjusted => 1
  | .malformed => 2
  | .noTable => 3
  | .badIndex => 4
  | .denied => 5
  | .phase => 6
  | .badField => 7
  | .badRef => 8
  | .conflict => 9
  | .busy => 10
  | .full => 11
  | .closed => 12

end Sys2Proof.Machine
end

