-- ==== Sys2Proof/Machine/Ops.lean ====
section
/-! DEFINITION. The shared operations: access to strings, ports and displays, the update queues and the mark for update
(R131, R132), and the Report Queue (R159, R160). -/

namespace Sys2Proof.Machine

/-! ### Access -/

/-- The controller of a string. -/
def State.str (s : State) (k : StringNo) : StringCtl := s.strings[k]

/-- The state with a string controller replaced. -/
def State.setStr (s : State) (k : StringNo) (c : StringCtl) : State :=
  { s with strings := s.strings.set k.val c k.isLt }

/-- A link port. -/
def State.port (s : State) : Port → LinkPort
  | .fore => s.fore
  | .aft => s.aft

/-- The state with a link port replaced. -/
def State.setPort (s : State) (p : Port) (l : LinkPort) : State :=
  match p with
  | .fore => { s with fore := l }
  | .aft => { s with aft := l }

/-- A present display entry. -/
def State.display (s : State) (d : Nat) : Option Display := Tab.fetch s.displays d

/-- The state with a display entry put at an index. -/
def State.setDisplay (s : State) (d : Nat) (x : Display) : State := { s with displays := Tab.store s.displays d x }

/-- The state with the runtime record of a present display changed. -/
def State.onRuntime (s : State) (d : Nat) (f : DisplayRuntime → DisplayRuntime) : State :=
  { s with displays := Tab.change s.displays d fun x => { x with rt := f x.rt } }

/-- The write urgency (R24), also the urgency of R35, R55 and R145: SAFETY while the phase is ALERT or MUSTER, ROUTINE
otherwise. -/
def State.writeUrgency (s : State) : Urgency := if s.ship.phase.emergency then .safety else .routine

/-- Bring the monotonic time base to an instant it has not yet passed (log entry 2). -/
def State.reach (s : State) (t : Nat) : State := { s with now := max s.now t }

/-! ### Update queues (R131) -/

/-- The update queue of an urgency. -/
def StringCtl.queue (c : StringCtl) : Urgency → List QEntry
  | .safety => c.safety
  | .service => c.service
  | .routine => c.routine

/-- The controller with an update queue replaced. -/
def StringCtl.setQueue (c : StringCtl) (u : Urgency) (q : List QEntry) : StringCtl :=
  match u with
  | .safety => { c with safety := q }
  | .service => { c with service := q }
  | .routine => { c with routine := q }

/-- The class number of a present display. -/
def State.classOf (s : State) (d : Nat) : Nat :=
  match s.display d with
  | some x => x.cfg.cls.code
  | none => 0

/-- R131: one place stands before another: in SAFETY by class number and then stamp, elsewhere by stamp. -/
def State.before (s : State) (u : Urgency) (e f : QEntry) : Bool :=
  match u with
  | .safety => decide (s.classOf e.display < s.classOf f.display) ||
      (decide (s.classOf e.display = s.classOf f.display) && decide (e.stamp < f.stamp))
  | .service => decide (e.stamp < f.stamp)
  | .routine => decide (e.stamp < f.stamp)

/-- A place put into a queue before the first one it stands before. -/
def insertPlace (lt : QEntry → QEntry → Bool) (e : QEntry) : List QEntry → List QEntry
  | [] => [e]
  | f :: q => if lt e f then e :: f :: q else f :: insertPlace lt e q

/-- A display without a place in a queue. -/
def removePlace (d : Nat) (q : List QEntry) : List QEntry := q.filter (fun e => e.display != d)

/-- A present display put at a place, by its stamp, in the queue of an urgency on its string; it becomes QUEUED there. -/
def State.enterAt (s : State) (d : Nat) (u : Urgency) (stamp : Nat) : State :=
  match s.display d with
  | none => s
  | some x =>
    let c := s.str x.cfg.string
    let c' := c.setQueue u (insertPlace (s.before u) { display := d, stamp := stamp } (c.queue u))
    (s.setStr x.cfg.string c').setDisplay d { x with rt := { x.rt with state := .queued u } }

/-- R131: a display that enters a queue takes an entry stamp from its string's entry counter, which goes up by one. -/
def State.enter (s : State) (d : Nat) (u : Urgency) : State :=
  match s.display d with
  | none => s
  | some x =>
    let c := s.str x.cfg.string
    (s.setStr x.cfg.string { c with counter := c.counter + 1 }).enterAt d u c.counter

/-- A display taken out of the queue that holds it; its update state is left for the caller to set. -/
def State.leaveQueue (s : State) (d : Nat) : State :=
  match s.display d with
  | none => s
  | some x =>
    match x.rt.state with
    | .queued u =>
      let c := s.str x.cfg.string
      s.setStr x.cfg.string (c.setQueue u (removePlace d (c.queue u)))
    | .clean | .opened | .faulted => s

/-! ### The mark for update (R132) -/

/-- R132: what a mark does, by the display's update state. -/
def State.mark (s : State) (d : Nat) (u : Urgency) : State :=
  match s.display d with
  | none => s
  | some x =>
    match x.rt.state with
    | .faulted => s
    | .clean => s.enter d u
    | .queued v => if u.higher v then (s.leaveQueue d).enter d u else s
    | .opened =>
      s.setDisplay d { x with rt := { x.rt with stale := some (match x.rt.stale with
        | some v => u.max v
        | none => u) } }

/-- Several marks, one after another. -/
def State.marks (s : State) (ms : List (Nat × Urgency)) : State := ms.foldl (fun t m => t.mark m.1 m.2) s

/-- R132: a block marks several displays in one step: each present display that `f` gives an urgency, in increasing index
order, once, at that urgency. -/
def State.markBy (s : State) (f : Nat → Display → Option Urgency) : State :=
  s.marks (s.displays.filterMap fun e => (f e.1 e.2).map fun u => (e.1, u))

/-- Mark every present display that meets a condition. -/
def State.markWhere (s : State) (p : Nat → Display → Bool) (u : Urgency) : State :=
  s.markBy fun d x => if p d x then some u else none

/-- Mark every present display. -/
def State.markAll (s : State) (u : Urgency) : State := s.markBy fun _ _ => some u

/-- The higher of two urgencies, where there are any. -/
def maxUrgency : Option Urgency → Option Urgency → Option Urgency
  | some u, some v => some (u.max v)
  | some u, none => some u
  | none, v => v

/-! ### Held route values (R28) -/

/-- The held route values of a display at some positions cleared, where it is present. -/
def State.clearHeld (s : State) (d : Nat) (p : Nat → Bool) : State :=
  s.onRuntime d fun r => { r with held := r.held.filter fun h => !p h.1 }

/-- The held route values at some positions cleared on several displays. -/
def State.clearHeldMany (s : State) (ds : List Nat) (p : Nat → Bool) : State := ds.foldl (fun t d => t.clearHeld d p) s

/-- Positions 0..7, the items of the destination list. -/
def listPositions (p : Nat) : Bool := decide (p < 8)

/-- Position 8, the muster station. -/
def stationPosition (p : Nat) : Bool := p == 8

/-! ### The Report Queue (R159, R160) -/

/-- R159: the ship clock as a stamp; all zero while the clock is INVALID. -/
def State.stamp (s : State) : Stamp :=
  if s.ship.valid then { valid := true, day := s.ship.day, minute := s.ship.minute, second := s.ship.second }
  else { valid := false, day := 0, minute := 0, second := 0 }

/-- R159: a new report placed behind every pending report of its class or higher. -/
def placeReport (r : Report) : List Report → List Report
  | [] => [r]
  | x :: q => if x.kind.cls < r.kind.cls then r :: x :: q else x :: placeReport r q

/-- The lowest class among the pending reports. -/
def lowestClass (q : List Report) : Nat := q.foldl (fun m r => min m r.kind.cls) 3

/-- A new report placed with a fresh arrival number. -/
def State.addReport (s : State) (k : ReportKind) (subject value : Nat) : State :=
  { s with
    reports := placeReport { kind := k, subject := subject, value := value, stamp := s.stamp, arrival := s.reportArrival }
      s.reports
    reportArrival := s.reportArrival + 1 }

/-- R159, R160: a block queues a report: coalesced with a pending one of the same kind and subject, or placed, or placed
after the oldest report of the lowest class is removed, or discarded. -/
def State.queueReport (s : State) (k : ReportKind) (subject value : Nat) : State :=
  if s.reports.any (fun r => r.kind == k && r.subject == subject) then
    { s with reports := s.reports.map fun r =>
        if r.kind == k && r.subject == subject then { r with value := value, stamp := s.stamp } else r }
  else if s.reports.length < Config.reportQueueCapacity then s.addReport k subject value
  else if lowestClass s.reports ≤ k.cls then
    { s with reports := s.reports.eraseP fun r => r.kind.cls == lowestClass s.reports }.addReport k subject value
  else s

end Sys2Proof.Machine
end

