-- ==== Sys2Proof/Machine/Notices.lean ====
section
/-! DEFINITION. The Notice Unit (chapter 6): currency, the phase floor, the active notice and the marks. -/

namespace Sys2Proof.Machine

/-- R2: the clock's absolute minute. -/
def Ship.absMinute (h : Ship) : Nat := h.day * 1440 + h.minute

/-- The absolute minute while the clock is VALID. -/
def State.nowMinute (s : State) : Option Nat := if s.ship.valid then some s.ship.absMinute else none

/-- R98: whether a notice is current at a time of the ship clock (none while it is INVALID). -/
def Notice.isCurrent (n : Notice) (now : Option Nat) : Bool :=
  match n.start, n.stop, now with
  | none, none, _ => true
  | _, _, none => false
  | a, b, some t => (match a with | some x => decide (x ≤ t) | none => true) &&
      (match b with | some y => decide (t < y) | none => true)

/-- R98: the phase floor. -/
def noticeFloor (p : Phase) : Nat := if p.emergency then 11 else 0

/-- R98: a notice counts when its current flag is set and its priority exceeds the floor. -/
def Notice.counts (n : Notice) (p : Phase) : Bool := n.current && decide (noticeFloor p < n.priority)

/-- R96: a display is in the scope of a notice. -/
def Notice.scope (n : Notice) (c : DisplayConfig) : Bool := n.classMask.getLsbD c.cls.code && n.deckMask.getLsbD c.deck

/-- The better of two candidate notices in slot order: the later one only if its priority is higher (R101). -/
def betterNotice (best : Option Notice) (n : Notice) : Option Notice :=
  match best with
  | some b => if b.priority < n.priority then some n else some b
  | none => some n

/-- R101: the active notice for a display's configuration. -/
def State.activeNoticeFor (s : State) (c : DisplayConfig) : Option Notice :=
  (s.notices.filter fun p => p.2.counts s.ship.phase && p.2.scope c).foldl (fun b p => betterNotice b p.2) none

/-- R102: the urgency of a notice mark, by the higher priority that counted. -/
def State.noticeUrgency (s : State) (priority : Nat) : Urgency :=
  if s.ship.phase.emergency then .safety else if priority ≤ 7 then .routine else .service

/-- A side of a change on which the notice counts. -/
def State.countingSide (s : State) (n : Option Notice) : Option Notice :=
  match n with
  | some x => if x.counts s.ship.phase then some x else none
  | none => none

/-- R102: the urgency at which a change of one slot, from what stood before it to what stands after it, marks a display. -/
def State.noticeMark (s : State) (before after : Option Notice) (c : DisplayConfig) : Option Urgency :=
  match s.countingSide before, s.countingSide after with
  | none, none => none
  | some b, none => if b.scope c then some (s.noticeUrgency b.priority) else none
  | none, some a => if a.scope c then some (s.noticeUrgency a.priority) else none
  | some b, some a =>
    if b.scope c || a.scope c then some (s.noticeUrgency (max b.priority a.priority)) else none

/-- R102: the marks for a change of one slot. -/
def State.markNoticeChange (s : State) (before after : Option Notice) : State :=
  s.markBy fun _ x => s.noticeMark before after x.cfg

/-- R99: what an evaluation at `now` leaves of a slot: nothing where its end has passed, else its current flag set again. -/
def Notice.evaluate (n : Notice) (now : Nat) : Option Notice :=
  match n.stop with
  | some e => if e ≤ now then none else some { n with current := n.isCurrent (some now) }
  | none => some { n with current := n.isCurrent (some now) }

/-- R99: the evaluation of every slot at `now`. -/
def evaluateNotices (t : Tab Notice) (now : Nat) : Tab Notice :=
  t.filterMap fun p => (p.2.evaluate now).map fun n => (p.1, n)

/-- R102: the highest urgency at which an evaluation's removals and flag changes mark a display. -/
def State.evaluationMark (s : State) (now : Nat) (c : DisplayConfig) : Option Urgency :=
  s.notices.foldl
    (fun u p =>
      if p.2.evaluate now = some p.2 then u else maxUrgency u (s.noticeMark (some p.2) (p.2.evaluate now) c))
    none

/-- R99: on a minute boundary, expiry and currency, then the marks of each slot removed or whose flag changed. -/
def State.noticeEvaluation (s : State) (now : Nat) : State :=
  { s with notices := evaluateNotices s.notices now }.markBy fun _ x => s.evaluationMark now x.cfg

end Sys2Proof.Machine
end

