-- ==== Sys2Proof/Machine/Directory.lean ====
section
/-! DEFINITION. The Display Directory's derived quantities (R33, R34), its LIGHT and QUIET marks (R35), the runtime record's
creation and restart values (R31, R32), and ADJUST_STEPS (R36). -/

namespace Sys2Proof.Machine

/-- R33: the screen mode for a display, under a value of quiet hours in force. -/
def State.screenModeUnder (s : State) (quiet : Bool) (c : DisplayConfig) : ScreenMode :=
  match s.ship.phase with
  | .alert => .alert
  | .muster => .muster
  | .standDown => .standDown
  | .normal => if (s.activeNoticeFor c).isSome then .notice else if quiet then .quiet else .normal

/-- R33: the screen mode for a display. -/
def State.screenMode (s : State) (c : DisplayConfig) : ScreenMode := s.screenModeUnder s.ship.quiet c

/-- R34: the effective brightness for a display's steps, under a phase, a light level and a value of quiet hours. -/
def brightnessUnder (p : Phase) (l : Light) (quiet : Bool) (c : DisplayConfig) : Nat :=
  if p.emergency then 15 else if quiet || l == .night then c.nightStep else c.dayStep

/-- R34: the effective brightness for a display. -/
def State.brightness (s : State) (c : DisplayConfig) : Nat := brightnessUnder s.ship.phase s.ship.light s.ship.quiet c

/-- R35: on LIGHT or QUIET, mark the displays whose brightness or mode differs between the old and the new value. -/
def State.markLightQuiet (s : State) (oldLight : Light) (oldQuiet : Bool) : State :=
  s.markWhere
    (fun _ x =>
      brightnessUnder s.ship.phase oldLight oldQuiet x.cfg != s.brightness x.cfg ||
        s.screenModeUnder oldQuiet x.cfg != s.screenMode x.cfg)
    s.writeUrgency

/-- R31: the runtime record at creation. -/
def DisplayRuntime.fresh : DisplayRuntime :=
  { state := .clean, stale := none, digest := none, lastCommit := none, busyUntil := 0, failures := 0, fault := none,
    lastFail := none, lastPoll := none, held := [] }

/-- R32: the runtime record after a warm restart, before the restart's mark. -/
def DisplayRuntime.restarted (r : DisplayRuntime) : DisplayRuntime :=
  { r with state := .clean, stale := none, digest := none, failures := 0, fault := none, lastFail := none, held := [] }

/-- R136: a display is in its string's poll ring: a CABIN display that is not FAULTED (nor, its fault cause kept, OPEN in a
probe: R139, R145). -/
def Display.inRing (x : Display) : Bool :=
  x.cfg.cls == .cabin && x.rt.state != .faulted && x.rt.fault.isNone

/-- One step of brightness up, saturating at 15 (R36). -/
def stepUp (n : Nat) : Nat := if n < 15 then n + 1 else n

/-- One step of brightness down, saturating at 0 (R36). -/
def stepDown (n : Nat) : Nat := n - 1

/-- R36: the eight codes, 0..7 in the order of its table (R179), on the day and night step. -/
def adjustCode (code : Nat) (day night : Nat) : Option (Nat × Nat) :=
  match code with
  | 0 => some (stepUp day, night)
  | 1 => some (stepDown day, night)
  | 2 => some (day, stepUp night)
  | 3 => some (day, stepDown night)
  | 4 => some (stepUp day, stepUp night)
  | 5 => some (stepDown day, stepDown night)
  | 6 => some (stepUp day, stepDown night)
  | 7 => some (stepDown day, stepUp night)
  | _ => none

/-- A display's configuration with a code applied (R36); unchanged by an unknown code. -/
def DisplayConfig.adjust (c : DisplayConfig) (code : Nat) : DisplayConfig :=
  match adjustCode code c.dayStep c.nightStep with
  | some (d, n) => { c with dayStep := d, nightStep := n }
  | none => c

/-- R36: whether an ADJUST_STEPS target (DISPLAY 0, CLASS 1, ALL 2) reaches a display. -/
def adjustReaches (kind value d : Nat) (x : Display) : Bool :=
  match kind with
  | 0 => d == value
  | 1 => x.cfg.cls.code == value
  | 2 => true
  | _ => false

/-- R36: whether a code changes the effective brightness of a display its target reaches. -/
def State.adjustMarks (s : State) (kind value code d : Nat) : Bool :=
  match s.display d with
  | some x => adjustReaches kind value d x && (s.brightness (x.cfg.adjust code) != s.brightness x.cfg)
  | none => false

/-- R36: the code applied to every display the target reaches, and marks at ROUTINE where the effective brightness changed. -/
def State.adjustSteps (s : State) (kind value code : Nat) : State :=
  { s with
    displays := Tab.mapWith s.displays fun d x =>
      if adjustReaches kind value d x then { x with cfg := x.cfg.adjust code } else x
  }.markWhere (fun d _ => s.adjustMarks kind value code d) .routine

end Sys2Proof.Machine
end

