-- ==== Sys2Proof/Machine/Routes.lean ====
section
/-! DEFINITION. The Route Store and Solver's arithmetic (chapter 3): passability, traversal effort, the sweep, the order of
taking, invalidation, and route values. -/

namespace Sys2Proof.Machine

/-! ### Traversals (R45, R46) -/

/-- The state of a closure; one not listed is UNKNOWN (R17). -/
def State.closure (s : State) (c : Nat) : Closure := Tab.fetchD s.ship.closures c .unknown

/-- R45: whether a segment's traversals are passable. -/
def State.passable (s : State) (g : Segment) : Bool :=
  g.enabled && (Tab.fetch s.nodes g.a).isSome && (Tab.fetch s.nodes g.b).isSome &&
    (match g.closure with
      | some c => (s.closure c).passable
      | none => true) &&
    (g.kind != .lift || !s.ship.phase.emergency) && (!g.musterOnly || s.ship.phase.emergency)

/-- R46: the weight of a traversal, b→a where `back`. -/
def NodeParams.weight (n : NodeParams) (k : SegmentKind) (back : Bool) : Nat :=
  match k with
  | .corridor => n.wCorridor
  | .stair => if back then n.wStairDown else n.wStairUp
  | .lift => n.wLift
  | .openDeck => n.wOpenDeck

/-- R46: length × weight / 8 rounded half up, at least 1. -/
def traversalEffort (length weight : Nat) : Nat := max 1 ((length * weight + 4) / 8)

/-- R46: the heading of a traversal. -/
def traversalHeading (heading : Nat) (back : Bool) : Nat := if back then (heading + 8) % 16 else heading

/-! ### The sweep (R47, R48) -/

/-- What the cell of a node that is not listed reads as: UNREACHABLE, with no length kept. -/
def unlistedCell : Cell := { effort := none, length := 0, hop := none }

/-- The cell of a node. -/
def cellAt (cells : Tab Cell) (n : Nat) : Cell := Tab.fetchD cells n unlistedCell

/-- R47: a candidate is strictly less than an effort; any number is less than UNREACHABLE. -/
def improves (candidate : Nat) : Option Nat → Bool
  | none => true
  | some e => decide (candidate < e)

/-- R47: the candidate of a traversal from `u` to `v` is taken where it is at most 65534 and strictly less than what `u`
has. The flag says whether any cell has changed in the sweep. -/
def relax (cells : Tab Cell) (changed : Bool) (u v effort length : Nat) (h : Hop) : Tab Cell × Bool :=
  match (cellAt cells v).effort with
  | none => (cells, changed)
  | some ev =>
    if effort + ev ≤ Config.maxEffort ∧ improves (effort + ev) (cellAt cells u).effort then
      (Tab.store cells u
        { effort := some (effort + ev), length := min Config.maxLength (length + (cellAt cells v).length), hop := some h },
       true)
    else (cells, changed)

/-- R47: one segment of a sweep: a→b, then b→a if offered, each only if passable. -/
def State.sweepSegment (s : State) (acc : Tab Cell × Bool) (e : Nat × Segment) : Tab Cell × Bool :=
  let g := e.2
  if s.passable g then
    let fwd := relax acc.1 acc.2 g.a g.b (traversalEffort g.length (s.node.weight g.kind false)) g.length
      { segment := e.1, back := false }
    if g.oneWay then fwd
    else relax fwd.1 fwd.2 g.b g.a (traversalEffort g.length (s.node.weight g.kind true)) g.length
      { segment := e.1, back := true }
  else acc

/-- R47: a sweep visits the segments in index order; the result tells whether any cell changed. -/
def State.sweep (s : State) (cells : Tab Cell) : Tab Cell × Bool := s.segments.foldl s.sweepSegment (cells, false)

/-- R47: the cells at the start of a solve. The length of a node that is not a target is left as it was. -/
def startCells (old : Tab Cell) (targets : List Nat) : Tab Cell :=
  targets.foldl (fun t n => Tab.store t n { effort := some 0, length := 0, hop := none })
    ((Tab.mapAll old fun c => { c with effort := none, hop := none }).filter fun e => e.2 != unlistedCell)

/-! ### Which destination is taken (R49) -/

/-- The lowest-numbered destination that meets a condition. -/
def State.firstDest (s : State) (p : Dest → Bool) : Option Nat := (s.dests.find? fun e => p e.2).map (·.1)

/-- R44: the destination that is SOLVING. -/
def State.solving (s : State) : Option Nat := s.firstDest fun d => d.status == .solving

/-- R49: the destination taken next, by the phase. -/
def State.nextDest (s : State) : Option Nat :=
  let suspended := s.firstDest fun d => d.status == .suspended
  let pending := s.firstDest fun d => d.status == .pending
  if s.ship.phase.emergency then
    (s.firstDest fun d => d.status == .pending && d.kind == .musterStation) <|> suspended <|> pending
  else suspended <|> pending

/-- R47, R51: a PENDING destination taken starts its solve, a SUSPENDED one goes on from its kept cells and count. -/
def Dest.taken (d : Dest) : Dest :=
  if d.status = .suspended then { d with status := .solving }
  else { d with status := .solving, sweeps := 0, cells := startCells d.cells d.targets }

/-! ### Invalidation (R52) -/

/-- R52: an invalidated destination is PENDING with sweep count 0; kept work of a SUSPENDED one is discarded (R50). -/
def Dest.invalidated (d : Dest) : Dest :=
  { d with status := .pending, sweeps := 0, cells := if d.status = .suspended then [] else d.cells }

/-- R52: every destination invalidated. -/
def State.invalidateAll (s : State) : State := { s with dests := Tab.mapAll s.dests Dest.invalidated }

/-! ### The cabin of a display (R84) -/

/-- The present cabin that names a display. -/
def State.cabinNaming (s : State) (d : Nat) : Option (Nat × Cabin) := s.cabins.find? fun e => e.2.display == d

/-- R84: a cabin is linked while the display it names is a present entry of class CABIN. -/
def State.linked (s : State) (c : Cabin) : Bool :=
  match s.display c.display with
  | some x => x.cfg.cls == .cabin
  | none => false

/-- R84: the linked cabin of a display. -/
def State.linkedCabin (s : State) (d : Nat) : Option Cabin :=
  match s.cabinNaming d with
  | some (_, c) => if s.linked c then some c else none
  | none => none

/-! ### Route values (R58 to R62) -/

/-- The items of a destination list (R41). -/
def State.listItems (s : State) (l : Nat) : List Nat := Tab.fetchD s.lists l []

/-- R58: the destination that a route position of a display refers to. -/
def State.positionDest (s : State) (d : Nat) (x : Display) (p : Nat) : Option Nat :=
  if p < 8 then
    match x.cfg.list with
    | some l => (s.listItems l)[p]?
    | none => none
  else if p = 8 then
    match s.linkedCabin d with
    | some c => c.station
    | none => none
  else none

/-- R60: the octant of a traversal heading seen from a facing. -/
def octant (heading facing : Nat) : Fin 8 :=
  ⟨(((heading + 16 - facing) % 16 + 1) / 2) % 8, Nat.mod_lt _ (by decide)⟩

/-- R60: the glyph of a next hop. A SETTLED cell that is neither a target's nor UNREACHABLE has a next hop along a present
segment (R48, R52), so the last two cases do not arise. -/
def State.hopGlyph (s : State) (facing : Nat) (h : Option Hop) : Glyph :=
  match h with
  | some h =>
    match Tab.fetch s.segments h.segment with
    | some g =>
      match g.kind with
      | .stair => if h.back then .stairsDown else .stairsUp
      | .lift => .lift
      | .corridor => .arrow (octant (traversalHeading g.heading h.back) facing)
      | .openDeck => .arrow (octant (traversalHeading g.heading h.back) facing)
    | none => .noRoute
  | none => .noRoute

/-- R61: whole metres, rounded half up, capped at 9999. -/
def metres (length : Nat) : Nat := min 9999 ((length + 5) / 10)

/-- R61: whole minutes, rounded up, with the OVER mark above 99. -/
def walkMinutes (effort rate : Nat) : Nat × Bool :=
  if 99 < (effort + rate - 1) / rate then (99, true) else ((effort + rate - 1) / rate, false)

/-- R59: the last three cases, for a SETTLED destination. -/
def State.settledValue (s : State) (d : Dest) (node facing : Nat) : RouteValue :=
  if node ∈ d.targets then { glyph := .here, distance := some 0, minutes := some (0, false) }
  else
    match (cellAt d.cells node).effort with
    | none => { glyph := .noRoute, distance := none, minutes := none }
    | some e =>
      { glyph := s.hopGlyph facing (cellAt d.cells node).hop
        distance := some (metres (cellAt d.cells node).length)
        minutes := some (walkMinutes e s.node.walkRate) }

/-- R59: the glyph shown for a destination without a result, where nothing is held. -/
def pendingValue : RouteValue := { glyph := .routePending, distance := none, minutes := none }

/-- R59: the route value of a route position; none is all blank. -/
def State.positionValue (s : State) (d : Nat) (x : Display) (p : Nat) : Option RouteValue :=
  match s.positionDest d x p with
  | none => none
  | some n =>
    match Tab.fetch s.dests n with
    | none => none
    | some t =>
      if t.status = .settled then some (s.settledValue t x.cfg.node x.cfg.facing)
      else some ((Tab.fetch x.rt.held p).getD pendingValue)

/-- R59: the value that a position holds after a composition: the fresh one in a SETTLED case, else what it held. -/
def State.heldAfter (s : State) (d : Nat) (x : Display) (held : Tab RouteValue) (p : Nat) : Tab RouteValue :=
  match s.positionDest d x p with
  | none => held
  | some n =>
    match Tab.fetch s.dests n with
    | none => held
    | some t =>
      if t.status = .settled then Tab.store held p (s.settledValue t x.cfg.node x.cfg.facing) else held

/-- The nine route positions (R58). -/
def routePositions : List Nat := [0, 1, 2, 3, 4, 5, 6, 7, 8]

/-- R62: the held values after a composition of a display, all nine positions derived. -/
def State.composedHeld (s : State) (d : Nat) (x : Display) : Tab RouteValue :=
  routePositions.foldl (s.heldAfter d x) x.rt.held

/-- R59 for a programme item: the same table without held values, at the board's location node. -/
def State.venueValue (s : State) (c : DisplayConfig) (venue : Option Nat) : Option RouteValue :=
  match venue with
  | none => none
  | some n =>
    match Tab.fetch s.dests n with
    | none => none
    | some t => if t.status = .settled then some (s.settledValue t c.node c.facing) else some pendingValue

end Sys2Proof.Machine
end

