-- ==== Sys2Proof/Machine/Programme.lean ====
section
/-! DEFINITION. The Programme Unit (chapter 4): the ordered table, status by the clock, pruning, board windows, item lists and
marks. -/

namespace Sys2Proof.Machine

/-- R65: an entry's absolute start. -/
def ProgEntry.absStart (e : ProgEntry) : Nat := e.day * 1440 + e.start

/-- R65: an entry's end. -/
def ProgEntry.stop (e : ProgEntry) : Nat := e.absStart + e.duration

/-- R64: the table order, by absolute start and then entry id. -/
def ProgEntry.before (e f : ProgEntry) : Bool :=
  decide (e.absStart < f.absStart) || (decide (e.absStart = f.absStart) && decide (e.id < f.id))

/-- R67: an entry inserted at the place its (absolute start, id) gives. -/
def insertEntry (e : ProgEntry) : List ProgEntry → List ProgEntry
  | [] => [e]
  | f :: t => if e.before f then e :: f :: t else f :: insertEntry e t

/-- R70: the table without the entry of an id. -/
def removeEntry (id : Nat) (t : List ProgEntry) : List ProgEntry := t.filter (fun e => e.id != id)

/-- The entry of an id. -/
def findEntry (id : Nat) (t : List ProgEntry) : Option ProgEntry := t.find? (fun e => e.id == id)

/-- R68: an entry changed: taken out and put back at its place. -/
def replaceEntry (e : ProgEntry) (t : List ProgEntry) : List ProgEntry := insertEntry e (removeEntry e.id t)

/-- R72: the first transition that applies at `now`. -/
def ProgEntry.byClock (e : ProgEntry) (now : Nat) : ProgEntry :=
  match e.status with
  | .scheduled =>
    if e.stop ≤ now then { e with status := .ended }
    else if e.absStart ≤ now then { e with status := .running } else e
  | .running => if e.stop ≤ now then { e with status := .ended } else e
  | .ended => e
  | .cancelled => e

/-- R74: an ENDED or CANCELLED entry whose end plus the retention time has passed. -/
def ProgEntry.prunable (e : ProgEntry) (retention now : Nat) : Bool :=
  (e.status == .ended || e.status == .cancelled) && decide (e.stop + retention ≤ now)

/-- R75: an entry is in the window of a board at a time of the ship clock (none while it is INVALID). -/
def inWindow (c : DisplayConfig) (now : Option Nat) (e : ProgEntry) : Bool :=
  match now with
  | none => false
  | some t =>
    c.categoryMask.getLsbD e.category && c.deckMask.getLsbD e.deck &&
      (match e.status with
        | .running => true
        | .scheduled => decide (e.absStart ≤ t + c.horizon)
        | .cancelled => decide (e.absStart ≤ t + c.horizon)
        | .ended => false)

/-- R75: a board's item list: the first eight entries in its window; empty for a display that is no board. -/
def State.itemList (s : State) (c : DisplayConfig) : List ProgEntry :=
  if c.cls.isBoard then (s.programme.filter (inWindow c s.nowMinute)).take 8 else []

/-- R76: a venue that is present and SETTLED, does not hold the board's node among its targets, and cannot be reached. -/
def State.venueCutOff (s : State) (c : DisplayConfig) (venue : Option Nat) : Bool :=
  match venue with
  | none => false
  | some n =>
    match Tab.fetch s.dests n with
    | none => false
    | some t => t.status == .settled && !t.targets.contains c.node && (cellAt t.cells c.node).effort.isNone

/-- R76: the mark of an item. -/
def State.itemMark (s : State) (c : DisplayConfig) (e : ProgEntry) : Glyph :=
  if e.status = .cancelled then .cancelled
  else if s.venueCutOff c e.venue then .restricted
  else if e.status = .running then .now
  else .next

/-- R76: an item's venue name text id; none is blank. -/
def State.itemVenueName (s : State) (e : ProgEntry) : Option Nat :=
  match e.venue with
  | none => none
  | some n => (Tab.fetch s.dests n).bind (·.name)

/-- R77: the urgency of a programme mark. -/
def State.programmeUrgency (s : State) (cancellation : Bool) : Urgency :=
  if s.ship.phase.emergency then .safety else if cancellation then .service else .routine

/-- R77: mark every board in whose window an entry is, as it stood before or as it stands after. -/
def State.markEntryChange (s : State) (before after : Option ProgEntry) (cancellation : Bool) : State :=
  s.markWhere
    (fun _ x => x.cfg.cls.isBoard &&
      (before.any (inWindow x.cfg s.nowMinute) || after.any (inWindow x.cfg s.nowMinute)))
    (s.programmeUrgency cancellation)

/-- R78: whether an evaluation concerns a board through an entry, from the old now to the new. -/
def evaluationMarks (c : DisplayConfig) (old : Option Nat) (now retention : Nat) (e : ProgEntry) : Bool :=
  let e' := e.byClock now
  let pruned := e'.prunable retention now
  let was := inWindow c old e
  let is := !pruned && inWindow c (some now) e'
  (was || is) && (e'.status != e.status || pruned || was != is)

/-- R72, R74: the statuses moved by `now`, then the prunable entries removed. -/
def evaluateProgramme (t : List ProgEntry) (retention now : Nat) : List ProgEntry :=
  (t.map (·.byClock now)).filter fun e => !e.prunable retention now

/-- R72, R74, R78: an evaluation at `now`; `first` is a CLOCK_SET of direction FIRST, which has no old now. -/
def State.programmeEvaluation (s : State) (now : Nat) (first : Bool) : State :=
  let old := if first then none else s.lastEvaluation
  { s with
    programme := evaluateProgramme s.programme s.node.retention now
    lastEvaluation := some now
  }.markWhere
    (fun _ x => x.cfg.cls.isBoard && s.programme.any (evaluationMarks x.cfg old now s.node.retention))
    (s.programmeUrgency false)

/-- R71: the id of the entry that follows an id in table order. -/
def nextId (id : Nat) : List ProgEntry → Option Nat
  | [] => none
  | e :: t => if e.id = id then t.head?.map (·.id) else nextId id t

end Sys2Proof.Machine
end

