-- ==== Sys2Proof/Machine/Cabins.lean ====
section
/-! DEFINITION. The Cabin Unit (chapter 5): loss counts, button events, the cabin bulletins and PLACEMENT. -/

namespace Sys2Proof.Machine

/-! ### Muster route loss (R92 to R94) -/

/-- R92: a cabin counts towards the loss of a destination, by the cells of that destination. -/
def State.cutOff (s : State) (d : Nat) (cells : Tab Cell) (c : Cabin) : Bool :=
  c.station == some d && s.linked c &&
    (match s.display c.display with
      | some x => (cellAt cells x.cfg.node).effort.isNone
      | none => false)

/-- R92: the loss count of a destination. -/
def State.lossCount (s : State) (d : Nat) (cells : Tab Cell) : Nat := s.cabins.countP fun e => s.cutOff d cells e.2

/-- R93: a loss count taken as reported, with a MUSTER_ROUTE report where it differs from the last reported one. -/
def State.reportLoss (s : State) (d count : Nat) : State :=
  if Tab.fetchD s.lossReported d 0 = count then s
  else { s with lossReported := Tab.put s.lossReported d count 0 }.queueReport .musterRoute d count

/-- R93: a recount of a destination; skipped where it is not a present, SETTLED MUSTER_STATION. -/
def State.recount (s : State) (d : Nat) : State :=
  match Tab.fetch s.dests d with
  | some t =>
    if t.kind = .musterStation ∧ t.status = .settled then s.reportLoss d (s.lossCount d t.cells) else s
  | none => s

/-- A recount of a cabin's muster station, if it has one. -/
def State.recountStation (s : State) (d : Option Nat) : State :=
  match d with
  | some n => s.recount n
  | none => s

/-- R84: the Cabin Unit receives a PLACEMENT notification for a display; `away` reports its removal or a class change away
from CABIN. -/
def State.placement (s : State) (d : Nat) (away : Bool) : State :=
  match s.cabinNaming d with
  | some (_, c) => (if away then s.clearHeld d stationPosition else s).recountStation c.station
  | none => if away then s.clearHeld d stationPosition else s

/-! ### Button events (R86 to R88) -/

/-- The state with a cabin entry put at an index. -/
def State.setCabin (s : State) (i : Nat) (c : Cabin) : State := { s with cabins := Tab.store s.cabins i c }

/-- R179: the known buttons are DND 0, MUR 1 and SERVICE 2. -/
def knownButton (code : Nat) : Bool := decide (code < 3)

/-- R87: one press at an OCCUPIED cabin in NORMAL or STAND_DOWN. -/
def State.servicePress (s : State) (i code : Nat) : State :=
  match Tab.fetch s.cabins i with
  | none => s
  | some c =>
    match code with
    | 0 =>
      if c.dnd then (s.setCabin i { c with dnd := false }).queueReport .dndChange c.number 0
      else if c.mur then
        ((s.setCabin i { c with dnd := true, mur := false }).queueReport .dndChange c.number 1).queueReport
          .murChange c.number 0
      else (s.setCabin i { c with dnd := true }).queueReport .dndChange c.number 1
    | 1 =>
      if c.mur then (s.setCabin i { c with mur := false }).queueReport .murChange c.number 0
      else if c.dnd then
        ((s.setCabin i { c with mur := true, dnd := false }).queueReport .murChange c.number 1).queueReport
          .dndChange c.number 0
      else (s.setCabin i { c with mur := true }).queueReport .murChange c.number 1
    | 2 => s.queueReport .serviceCall c.number 0
    | _ => s

/-- R88: one press in ALERT or MUSTER. -/
def State.assistPress (s : State) (i : Nat) : State :=
  match Tab.fetch s.cabins i with
  | none => s
  | some c => (s.setCabin i { c with assist := true }).queueReport .assist c.number (if c.occupied then 1 else 0)

/-- R86: the button events of a poll, taken by the cabin that names the display, by the phase at this moment. -/
def State.takeEvents (s : State) (d : Nat) (codes : List Nat) : State :=
  match s.cabinNaming d with
  | none => s
  | some (i, c) =>
    if codes.filter knownButton = [] then s
    else if s.ship.phase.emergency then
      ((codes.filter knownButton).foldl (fun t _ => t.assistPress i) s).mark d .safety
    else if c.occupied then
      ((codes.filter knownButton).foldl (fun t b => t.servicePress i b) s).mark d .service
    else s

/-! ### Bulletins to cabins (R89, R90) -/

/-- R89, R90: the list holds 1..32 cabin numbers. -/
def cabinListOk (ns : List Nat) : Bool := decide (1 ≤ ns.length) && decide (ns.length ≤ 32)

/-- R84: a display is that of a linked cabin that meets a condition. -/
def State.showsCabin (s : State) (p : Cabin → Bool) (d : Nat) (x : Display) : Bool :=
  x.cfg.cls == .cabin && s.cabins.any fun e => e.2.display == d && p e.2

/-- R90: CABIN_MARK, in ALERT and MUSTER alone. -/
def State.cabinMark (s : State) (ns : List Nat) : State :=
  if cabinListOk ns && s.ship.phase.emergency then
    { s with cabins := Tab.mapAll s.cabins fun c => if ns.contains c.number then { c with swept := true } else c
    }.markWhere (s.showsCabin fun c => ns.contains c.number && !c.swept) .safety
  else s

/-- R89: ASSIST_CLEAR. -/
def State.assistClear (s : State) (ns : List Nat) : State :=
  if cabinListOk ns then
    { s with cabins := Tab.mapAll s.cabins fun c => if ns.contains c.number then { c with assist := false } else c
    }.markWhere (s.showsCabin fun c => ns.contains c.number && c.assist)
      (if s.ship.phase.emergency then .safety else .service)
  else s

/-- R91: on entry to NORMAL, and R95 on a warm restart, ASSIST and SWEPT are cleared in every present cabin. -/
def State.clearCabinFlags (s : State) : State :=
  { s with cabins := Tab.mapAll s.cabins fun c => { c with assist := false, swept := false } }

end Sys2Proof.Machine
end

