-- ==== Sys2Proof/Machine/Templates.lean ====
section
/-! DEFINITION. The fixed templates (R110), the template in use (R112) and the template store's clipping (R107). -/

namespace Sys2Proof.Machine

/-- A slot with a box, a size and a source with its argument, everything else as R110 takes it unless it says otherwise. -/
def plainSlot (source : Source) (argument column row width height size : Nat) : Slot :=
  { box := { column := column, row := row, width := width, height := height }, size := size, emphasis := false,
    source := source, argument := argument, language := none, condition := .always, showWhenTrue := true }

/-- R106, R110: the size of a slot to which R110 gives none: a free value 1..3 (log entry 27). -/
def openSize (template slot : Nat) : Nat := (Config.freeSize template slot).val + 1

/-- R110: "if X". -/
def Slot.onlyIf (x : Slot) (c : Condition) : Slot := { x with condition := c }

/-- R110: an asterisk. -/
def Slot.emphasised (x : Slot) : Slot := { x with emphasis := true }

/-- R110: the route line at position `k`, row `r`, on the LARGE grid. -/
def largeLine (k r : Nat) : List Slot :=
  [plainSlot .destName k 0 r 30 2 2, plainSlot .arrow k 32 r 4 2 2, plainSlot .distance k 36 r 4 1 1,
   plainSlot .minutes k 36 (r + 1) 4 1 1]

/-- R110: the route line at position `k`, row `r`, on the SMALL grid. -/
def smallLine (k r : Nat) : List Slot :=
  [plainSlot .destName k 0 r 14 1 1, plainSlot .arrow k 16 r 4 2 2, plainSlot .distance k 0 (r + 1) 6 1 1,
   plainSlot .minutes k 8 (r + 1) 4 1 1]

/-- R110: template 3's group for item `k`. -/
def programmeLine (k : Nat) : List Slot :=
  [plainSlot .progTime k 0 (4 * k) 5 2 2, plainSlot .progTitle k 6 (4 * k) 26 2 2, plainSlot .progMark k 33 (4 * k) 3 2 2]

/-- R110: template 6, which templates 8 and 9 are as. -/
def largeAlarm : List Slot :=
  largeLine 0 0 ++ largeLine 1 4 ++
    [((plainSlot .phaseMark 0 0 12 8 2 2).onlyIf .drill).emphasised,
     ((plainSlot .noticeText 0 0 14 40 2 (openSize 6 9)).onlyIf .noticePresent).emphasised]

/-- R110: template 7, which template 11 is as. -/
def smallAlarm : List Slot :=
  smallLine 0 0 ++ smallLine 1 3 ++
    [((plainSlot .phaseMark 0 0 6 6 1 (openSize 7 8)).onlyIf .drill).emphasised,
     ((plainSlot .noticeText 0 0 7 20 1 (openSize 7 9)).onlyIf .noticePresent).emphasised]

/-- R110: template 10. -/
def cabinAlarm : List Slot :=
  [plainSlot .musterName 0 0 0 14 2 (openSize 10 0), plainSlot .musterGroup 0 16 0 4 2 2,
   (plainSlot .musterArrow 0 0 2 4 3 3).emphasised, plainSlot .musterDistance 0 6 3 6 1 (openSize 10 3),
   plainSlot .musterMinutes 0 6 4 4 1 (openSize 10 4), plainSlot .cabinNumber 0 14 2 6 1 (openSize 10 5),
   (plainSlot .serviceGlyphs 1 14 4 3 2 2).onlyIf .assist, (plainSlot .serviceGlyphs 2 17 4 3 2 2).onlyIf .swept,
   ((plainSlot .phaseMark 0 0 6 6 1 (openSize 10 8)).onlyIf .drill).emphasised,
   ((plainSlot .noticeText 0 0 7 20 1 (openSize 10 9)).onlyIf .noticePresent).emphasised]

/-- R109: a template is time-dependent when a slot has a CLOCK or programme source. -/
def slotsTimeDependent (xs : List Slot) : Bool := xs.any fun x => x.source.timeDependent

/-- A template with its time-dependent flag derived (R109). -/
def mkTemplate (g : Grid) (xs : List Slot) : Template := { grid := g, slots := xs, timeDependent := slotsTimeDependent xs }

/-- R110: the slots of a fixed template from a place on; a slot whose source takes no argument holds a free one (log entry 27). -/
def openArguments (template : Nat) : Nat → List Slot → List Slot
  | _, [] => []
  | k, x :: xs =>
    (if x.source.takesArgument then x else { x with argument := (Config.freeArgument template k).val }) ::
      openArguments template (k + 1) xs

/-- R110: a fixed template. -/
def mkFixed (template : Nat) (g : Grid) (xs : List Slot) : Template := mkTemplate g (openArguments template 0 xs)

/-- R110: the sixteen fixed templates. -/
def fixedTemplate (n : Nat) : Option Template :=
  match n with
  | 0 => some (mkFixed 0 .large (largeLine 0 0 ++ largeLine 1 4 ++ largeLine 2 8))
  | 1 => some (mkFixed 1 .small (smallLine 0 0 ++ smallLine 1 3 ++ smallLine 2 6))
  | 2 => some (mkFixed 2 .large (largeLine 0 0 ++ largeLine 1 4 ++
      [plainSlot .progTime 0 0 10 5 1 (openSize 2 8), plainSlot .progMark 0 6 10 3 1 (openSize 2 9),
       plainSlot .progVenue 0 10 10 24 1 (openSize 2 10), plainSlot .progArrow 0 36 10 2 1 (openSize 2 11)]))
  | 3 => some (mkFixed 3 .large (programmeLine 0 ++ programmeLine 1 ++ programmeLine 2 ++ programmeLine 3))
  | 4 => some (mkFixed 4 .small
      [plainSlot .cabinNumber 0 0 0 10 2 2, (plainSlot .serviceGlyphs 0 16 0 4 2 2).onlyIf .occupied,
       (plainSlot .greeting 0 0 3 20 2 (openSize 4 2)).onlyIf .occupied, plainSlot .musterGroup 0 16 6 4 2 2,
       plainSlot .deck 0 0 7 3 1 (openSize 4 4)])
  | 5 => some (mkFixed 5 .small (plainSlot .deck 0 0 0 4 2 2 :: (smallLine 0 2 ++ smallLine 1 5)))
  | 6 => some (mkFixed 6 .large largeAlarm)
  | 7 => some (mkFixed 7 .small smallAlarm)
  | 8 => some (mkFixed 6 .large largeAlarm)
  | 9 => some (mkFixed 6 .large largeAlarm)
  | 10 => some (mkFixed 10 .small cabinAlarm)
  | 11 => some (mkFixed 7 .small smallAlarm)
  | 12 => some (mkFixed 12 .large (plainSlot .noticeText 0 0 0 40 8 2 :: (largeLine 0 10 ++
      [plainSlot .clock 0 32 14 8 2 2])))
  | 13 => some (mkFixed 13 .small
      [plainSlot .noticeText 0 0 0 20 5 (openSize 13 0), plainSlot .cabinNumber 0 0 6 10 2 2, plainSlot .arrow 0 16 6 4 2 2])
  | 14 => some (mkFixed 14 .large ((plainSlot .noticeText 0 0 0 40 6 2).onlyIf .noticePresent :: (largeLine 0 8 ++
      [(plainSlot .phaseMark 0 0 14 8 2 2).onlyIf .drill])))
  | 15 => some (mkFixed 15 .small (plainSlot .cabinNumber 0 0 0 10 2 2 ::
      (plainSlot .serviceGlyphs 2 16 0 4 2 2).onlyIf .swept :: (smallLine 0 3 ++
      [(plainSlot .noticeText 0 0 6 20 2 (openSize 15 6)).onlyIf .noticePresent])))
  | _ => none

/-- R105: a present template of the store. -/
def State.template (s : State) (n : Nat) : Option Template :=
  if n < Config.fixedTemplateCount then fixedTemplate n else Tab.fetch s.templates n

/-- R112: the fallback for a class and mode. -/
def fallbackTemplate (c : DisplayClass) (m : ScreenMode) : Nat :=
  match m with
  | .normal => c.code
  | .quiet => c.code
  | .alert => 6 + c.code
  | .muster => 6 + c.code
  | .notice => if c.grid = .large then 12 else 13
  | .standDown => if c.grid = .large then 14 else 15

/-- R111: the index of the selection entry of a class and mode. -/
def selectionIndex (c : DisplayClass) (m : ScreenMode) : Nat := c.code * 6 + m.code

/-- R112: the template in use for a class and mode. -/
def State.templateInUse (s : State) (c : DisplayClass) (m : ScreenMode) : Nat :=
  match Tab.fetch s.selection (selectionIndex c m) with
  | none => fallbackTemplate c m
  | some n =>
    if n < Config.fixedTemplateCount then n
    else
      match Tab.fetch s.templates n with
      | some t => if t.grid = c.grid then n else fallbackTemplate c m
      | none => fallbackTemplate c m

/-- R112: the template in use for a display at this moment. -/
def State.displayTemplate (s : State) (c : DisplayConfig) : Nat := s.templateInUse c.cls (s.screenMode c)

/-- A value brought into a range. -/
def clampTo (lo hi n : Nat) : Nat := max lo (min hi n)

/-- R107: a box clipped to a grid. -/
def Box.clip (b : Box) (g : Grid) : Box :=
  { column := clampTo 0 (g.columns - 1) b.column
    row := clampTo 0 (g.rows - 1) b.row
    width := clampTo 1 (g.columns - clampTo 0 (g.columns - 1) b.column) b.width
    height := clampTo 1 (g.rows - clampTo 0 (g.rows - 1) b.row) b.height }

/-- A slot with its box clipped to a grid (R107). -/
def Slot.clip (x : Slot) (g : Grid) : Slot := { x with box := x.box.clip g }

/-- R107: the largest argument a source takes; none for a source whose argument is not read. -/
def Source.argumentLimit (x : Source) : Option Nat :=
  match x with
  | .text => some 1023
  | _ => if x.takesPosition then some 8 else none

/-- R107: a slot as a WRITE gives it, its codes read and its size and argument clamped; none where a code is out of its list. -/
def RawSlot.read (r : RawSlot) : Option Slot :=
  match Source.ofCode r.source, Condition.ofCode r.condition with
  | some src, some cond =>
    if 4 < r.language ∨ 1 < r.polarity then none
    else some {
      box := { column := r.column, row := r.row, width := r.width, height := r.height }
      size := clampTo 1 3 r.size
      emphasis := r.emphasis
      source := src
      argument := match src.argumentLimit with
        | some n => min n r.argument
        | none => r.argument
      language := if r.language = 4 then none else some r.language
      condition := cond
      showWhenTrue := r.polarity == 0 }
  | _, _ => none

/-- A slot as READ returns it (R108). -/
def Slot.raw (x : Slot) : RawSlot :=
  { column := x.box.column, row := x.box.row, width := x.box.width, height := x.box.height, size := x.size,
    emphasis := x.emphasis, source := x.source.code, argument := x.argument, language := x.language.getD 4,
    condition := x.condition.code, polarity := if x.showWhenTrue then 0 else 1 }

end Sys2Proof.Machine
end

