-- ==== Sys2Proof/Machine/Compose.lean ====
section
/-! DEFINITION. The Screen Composer (chapter 7): text resolution, conditions, sources, the screen record and its digest. -/

namespace Sys2Proof.Machine

/-- The five kinds of slot value (before R116); a time of none is UNKNOWN. -/
inductive Value where
  | blank
  | text (codes : List Nat)
  | glyph (g : Glyph)
  | number (n : Nat) (ovr : Bool)
  | time (t : Option (Nat × Nat))
  deriving DecidableEq, Repr

/-- R114: variant `g` of text `t`; empty where nothing is loaded. -/
def State.variant (s : State) (t g : Nat) : List Nat := Tab.fetchD s.texts (t * 4 + g) []

/-- R114: a text id resolved in a language. -/
def State.resolve (s : State) (t : Option Nat) (g : Nat) : Value :=
  match t with
  | none => .blank
  | some t =>
    if s.variant t g ≠ [] then .text (s.variant t g)
    else if s.variant t 0 ≠ [] then .text (s.variant t 0)
    else .blank

/-- What composition derives before it fills slots (R119, step 1 and step 3). -/
structure Scene where
  display : Nat
  entry : Display
  mode : ScreenMode
  brightness : Nat
  language : Nat
  notice : Option Notice
  cabin : Option Cabin
  items : List ProgEntry
  deriving DecidableEq, Repr

/-- R114: the composition language. -/
def compositionLanguage (c : DisplayConfig) (cabin : Option Cabin) : Nat :=
  match cabin with
  | some b => b.language.getD c.language
  | none => c.language

/-- R119, step 1. -/
def State.scene (s : State) (d : Nat) (x : Display) : Scene :=
  { display := d, entry := x, mode := s.screenMode x.cfg, brightness := s.brightness x.cfg,
    language := compositionLanguage x.cfg (s.linkedCabin d), notice := s.activeNoticeFor x.cfg,
    cabin := s.linkedCabin d, items := s.itemList x.cfg }

/-- R115: a route position refers to a destination that is present and not SETTLED. -/
def State.positionPending (s : State) (d : Nat) (x : Display) (p : Nat) : Bool :=
  match s.positionDest d x p with
  | none => false
  | some n =>
    match Tab.fetch s.dests n with
    | none => false
    | some t => t.status != .settled

/-- R115: a route position composes to the glyph NO_ROUTE. -/
def State.positionCutOff (s : State) (d : Nat) (x : Display) (p : Nat) : Bool :=
  match s.positionValue d x p with
  | some v => v.glyph == .noRoute
  | none => false

/-- A flag of the scene's linked cabin; false with none (R84). -/
def Scene.cabinHas (c : Scene) (f : Cabin → Bool) : Bool :=
  match c.cabin with
  | some b => f b
  | none => false

/-- R115: the conditions. -/
def State.holds (s : State) (c : Scene) : Condition → Bool
  | .always => true
  | .alertOrMuster => s.ship.phase.emergency
  | .drill => s.ship.drill
  | .noticePresent => c.notice.isSome
  | .dnd => c.cabinHas (·.dnd)
  | .mur => c.cabinHas (·.mur)
  | .occupied => c.cabinHas (·.occupied)
  | .assist => c.cabinHas (·.assist)
  | .swept => c.cabinHas (·.swept)
  | .routePending => routePositions.any (s.positionPending c.display c.entry)
  | .destUnreachable => [0, 1, 2, 3, 4, 5, 6, 7].any (s.positionCutOff c.display c.entry)
  | .progPresent => !c.items.isEmpty
  | .progCancelled => c.items.any fun e => s.itemMark c.entry.cfg e == .cancelled
  | .quiet => s.ship.quiet
  | .linkLost => s.ship.linkLost
  | .standDown => s.ship.phase == .standDown

/-- R116: DEST_NAME of a position. -/
def State.destNameValue (s : State) (c : Scene) (p lang : Nat) : Value :=
  match s.positionDest c.display c.entry p with
  | none => .blank
  | some n => s.resolve ((Tab.fetch s.dests n).bind (·.name)) lang

/-- R116: ARROW of a position. -/
def State.arrowValue (s : State) (c : Scene) (p : Nat) : Value :=
  match s.positionValue c.display c.entry p with
  | some v => .glyph v.glyph
  | none => .blank

/-- R116: DISTANCE of a position. -/
def State.distanceValue (s : State) (c : Scene) (p : Nat) : Value :=
  match (s.positionValue c.display c.entry p).bind (·.distance) with
  | some n => .number n false
  | none => .blank

/-- R116: MINUTES of a position. -/
def State.minutesValue (s : State) (c : Scene) (p : Nat) : Value :=
  match (s.positionValue c.display c.entry p).bind (·.minutes) with
  | some (n, ovr) => .number n ovr
  | none => .blank

/-- R116: a cabin number as 1..5 decimal digits in character codes 48..57. -/
def decimalCodes (n : Nat) : List Nat :=
  (([n / 10000 % 10, n / 1000 % 10, n / 100 % 10, n / 10 % 10].dropWhile (· == 0)) ++ [n % 10]).map (48 + ·)

/-- R116: SERVICE_GLYPHS. -/
def serviceGlyph (b : Cabin) (a : Nat) : Value :=
  match a with
  | 0 => if b.dnd then .glyph .dnd else if b.mur then .glyph .mur else .blank
  | 1 => if b.assist then .glyph .assist else .blank
  | 2 => if b.swept then .glyph .swept else .blank
  | _ => .blank

/-- A value of the scene's linked cabin; BLANK with none. -/
def Scene.ofCabin (c : Scene) (f : Cabin → Value) : Value :=
  match c.cabin with
  | some b => f b
  | none => .blank

/-- A value of an item of the board's item list; BLANK beyond it (R117). -/
def Scene.ofItem (c : Scene) (k : Nat) (f : ProgEntry → Value) : Value :=
  match c.items[k]? with
  | some e => f e
  | none => .blank

/-- R116, R117: the value of a source with its argument, text read in a language. -/
def State.sourceValue (s : State) (c : Scene) (a lang : Nat) : Source → Value
  | .text => s.resolve (some a) lang
  | .destName => s.destNameValue c a lang
  | .arrow => s.arrowValue c a
  | .distance => s.distanceValue c a
  | .minutes => s.minutesValue c a
  | .progTitle => c.ofItem a fun e => s.resolve (some e.title) lang
  | .progVenue => c.ofItem a fun e => s.resolve (s.itemVenueName e) lang
  | .progTime => c.ofItem a fun e => .time (some (e.start / 60, e.start % 60))
  | .progMark => c.ofItem a fun e => .glyph (s.itemMark c.entry.cfg e)
  | .progArrow => c.ofItem a fun e =>
      match s.venueValue c.entry.cfg e.venue with
      | some v => .glyph v.glyph
      | none => .blank
  | .cabinNumber => c.ofCabin fun b => .text (decimalCodes b.number)
  | .greeting => c.ofCabin fun b => s.resolve b.greeting lang
  | .musterName => s.destNameValue c 8 lang
  | .musterGroup => c.ofCabin fun b =>
      match b.group with
      | some g => .text [g]
      | none => .blank
  | .musterArrow => s.arrowValue c 8
  | .musterDistance => s.distanceValue c 8
  | .musterMinutes => s.minutesValue c 8
  | .noticeText =>
      match c.notice with
      | some n => s.resolve (some n.text) lang
      | none => .blank
  | .clock => .time (if s.ship.valid then some (s.ship.minute / 60, s.ship.minute % 60) else none)
  | .deck => .number c.entry.cfg.deck false
  | .serviceGlyphs => c.ofCabin fun b => serviceGlyph b a
  | .phaseMark => if s.ship.drill then .glyph .drill else .blank

/-- R106, R119: a slot's value: its source's where it shows, BLANK otherwise. -/
def State.slotValue (s : State) (c : Scene) (x : Slot) : Value :=
  if s.holds c x.condition == x.showWhenTrue then
    s.sourceValue c x.argument (x.language.getD c.language) x.source
  else .blank

/-- R119, step 4: a box cut to the display's grid; none where the slot is left out of the record. -/
def Box.cut (b : Box) (g : Grid) : Option Box :=
  if g.columns ≤ b.column ∨ g.rows ≤ b.row then none
  else some { b with width := min b.width (g.columns - b.column), height := min b.height (g.rows - b.row) }

/-- R119, step 4: the slots of a template that stay in the record on a display's grid, with their boxes. -/
def Template.recordSlots (t : Template) (g : Grid) : List Slot :=
  if t.grid = g then t.slots
  else t.slots.filterMap fun x => (x.box.cut g).map fun b => { x with box := b }

/-- R181: a value kind byte and the value. A set OVER flag is sent as 1 (log entry 34). -/
def Value.bytes : Value → List Byte
  | .blank => [byteOf 0]
  | .text cs => byteOf 1 :: byteOf cs.length :: writeU16s cs
  | .glyph g => [byteOf 2, byteOf g.code]
  | .number n ovr => byteOf 3 :: (be16 n ++ [flagByte ovr])
  | .time (some (h, m)) => [byteOf 4, byteOf h, byteOf m]
  | .time none => [byteOf 4, byteOf 255, byteOf 255]

/-- R181: a slot of the record: box, size, emphasis and value. A set emphasis is sent as 1 (log entry 34). -/
def slotBytes (x : Slot) (v : Value) : List Byte :=
  [byteOf x.box.column, byteOf x.box.row, byteOf x.box.width, byteOf x.box.height, byteOf x.size, flagByte x.emphasis]
    ++ v.bytes

/-- R121: the slots of the screen record of a display, with their values. -/
def State.recordSlots (s : State) (c : Scene) : List (Slot × Value) :=
  match s.template (s.templateInUse c.entry.cfg.cls c.mode) with
  | some t => (t.recordSlots c.entry.cfg.cls.grid).map fun x => (x, s.slotValue c x)
  | none => []

/-- R121, R181: the screen record, as carried in SCREEN and as fed to the digest. -/
def State.record (s : State) (d : Nat) (x : Display) : List Byte :=
  let c := s.scene d x
  let slots := s.recordSlots c
  [byteOf (s.templateInUse x.cfg.cls c.mode), byteOf c.brightness, byteOf c.language, byteOf slots.length]
    ++ slots.flatMap fun p => slotBytes p.1 p.2

/-- R122: the digest of a screen record. -/
def digest (record : List Byte) : Word16 := crc16 record

/-- R119, step 3: composition writes the held route values of the display, and nothing else. -/
def State.writeHeld (s : State) (d : Nat) (x : Display) : State :=
  s.setDisplay d { x with rt := { x.rt with held := s.composedHeld d x } }

/-- R125: at a minute boundary, mark at ROUTINE the displays whose template in use is time-dependent. -/
def State.minuteMarks (s : State) : State :=
  s.markWhere
    (fun _ x =>
      match s.template (s.displayTemplate x.cfg) with
      | some t => t.timeDependent
      | none => false)
    .routine

end Sys2Proof.Machine
end

