-- ==== Sys2Proof/Machine/Strings.lean ====
section
/-! DEFINITION. The String Scheduler (chapter 8): selection, takes, messages and tries, dispatches, polls, probes and faults. -/

namespace Sys2Proof.Machine

/-! ### Holds (R129, R130) -/

/-- R130: HOLD_STRING on a controller. -/
def StringCtl.hold (c : StringCtl) : StringCtl :=
  match c.state with
  | .idle => { c with state := .held }
  | .opened => { c with state := .holding }
  | .holding => c
  | .held => c

/-- R130: FREE_STRING on a controller, and the entry to ALERT or MUSTER. -/
def StringCtl.free (c : StringCtl) : StringCtl :=
  match c.state with
  | .idle => c
  | .opened => c
  | .holding => { c with state := .opened }
  | .held => { c with state := .idle }

/-- R130: on entry to ALERT or MUSTER every string is freed. -/
def State.freeStrings (s : State) : State := { s with strings := s.strings.map StringCtl.free }

/-! ### Selection (R134 to R137) -/

/-- R135: the monotonic time has reached a display's refresh-busy-until. -/
def State.eligible (s : State) (d : Nat) : Bool :=
  match s.display d with
  | some x => decide (x.rt.busyUntil ≤ s.now)
  | none => false

/-- R128: the minimum refresh interval of a class, in ms. -/
def NodeParams.minRefreshMs (n : NodeParams) (c : DisplayClass) : Nat := n.minRefresh.toList.getD c.code 0 * 1000

/-- R135: a display's minimum refresh interval has passed. -/
def State.intervalPassed (s : State) (d : Nat) : Bool :=
  match s.display d with
  | some x =>
    match x.rt.lastCommit with
    | some t => decide (t + s.node.minRefreshMs x.cfg.cls ≤ s.now)
    | none => true
  | none => false

/-- R136: a display of a string's poll ring is due for a poll. -/
def State.pollDueOn (s : State) (k : StringNo) (x : Display) : Bool :=
  x.cfg.string == k && x.inRing && x.rt.state != .opened &&
    (match x.rt.lastPoll with
      | some t => decide (t + (s.str k).pollPeriod ≤ s.now)
      | none => true)

/-- R137: a FAULTED display of a string is due for a probe. -/
def State.probeDueOn (s : State) (k : StringNo) (x : Display) : Bool :=
  x.cfg.string == k && x.rt.state == .faulted &&
    (match x.rt.lastFail with
      | some t => decide (t + Config.probeIntervalMs ≤ s.now)
      | none => true)

/-- The one of two displays that stands at the lower position. -/
def lowerPosition (best : Option (Nat × Display)) (e : Nat × Display) : Option (Nat × Display) :=
  match best with
  | some b => if e.2.cfg.position < b.2.cfg.position then some e else some b
  | none => some e

/-- The display at the lowest position among several. -/
def lowest (es : List (Nat × Display)) : Option Nat := (es.foldl lowerPosition none).map (·.1)

/-- R136: the poll offered: the first due display of the ring past the cursor, else the first due from its start. -/
def State.duePoll (s : State) (k : StringNo) : Option Nat :=
  let due := s.displays.filter fun e => s.pollDueOn k e.2
  lowest (due.filter fun e => decide ((s.str k).cursor < e.2.cfg.position)) <|> lowest due

/-- R137: the probe offered: the due display at the lowest position. -/
def State.dueProbe (s : State) (k : StringNo) : Option Nat := lowest (s.displays.filter fun e => s.probeDueOn k e.2)

/-- What selection offers (R134). -/
inductive Offer where
  | dispatch (d : Nat) (u : Urgency) (stamp : Nat)
  | poll (d : Nat)
  | probe (d : Nat)
  deriving DecidableEq, Repr

/-- A due poll, or else a due probe. -/
def State.dueOffer (s : State) (k : StringNo) : Option Offer :=
  (s.duePoll k).map .poll <|> (s.dueProbe k).map .probe

/-- The first display of a queue, in queue order, that meets a condition. -/
def State.queueOffer (s : State) (k : StringNo) (u : Urgency) (p : Nat → Bool) : Option Offer :=
  (((s.str k).queue u).find? fun e => p e.display).map fun e => .dispatch e.display u e.stamp

/-- R134, step 5: the ROUTINE queue waits while quiet hours are in force and the string's bit of the mask is clear. -/
def State.routineOpen (s : State) (k : StringNo) : Bool := !(s.quietCopy && !s.node.quietMask.getLsbD k.val)

/-- R134: the first of the five steps that offers something. -/
def State.selectionOffer (s : State) (k : StringNo) : Option Offer :=
  (if Config.safetyRunLimit ≤ (s.str k).run then s.dueOffer k else none)
    <|> s.queueOffer k .safety s.eligible
    <|> s.dueOffer k
    <|> s.queueOffer k .service (fun d => s.eligible d && s.intervalPassed d)
    <|> (if s.routineOpen k then s.queueOffer k .routine (fun d => s.eligible d && s.intervalPassed d) else none)

/-- R133: what an IDLE, enabled string is offered. -/
def State.offer (s : State) (k : StringNo) : Option Offer :=
  if (s.str k).state = .idle ∧ (s.str k).enabled then s.selectionOffer k else none

/-! ### Messages and tries (R140) -/

/-- R140: a message carries the string's tag, which goes up by one, modulo 256. -/
def StringCtl.send (c : StringCtl) (code : Nat) (payload : List Byte) : StringCtl :=
  { c with tag := (c.tag + 1) % 256, lineOut := stringBytes c.tag code payload }

/-- The position byte of a present display (R181). -/
def State.positionByte (s : State) (d : Nat) : Byte :=
  match s.display d with
  | some x => byteOf x.cfg.position
  | none => 0#8

/-- R141, R144, R145: the code and payload of the message of a transaction's step. -/
def State.message (s : State) (t : Txn) : Nat × List Byte :=
  match t.step, t.kind with
  | .select, _ => (codeSelect, [s.positionByte t.display])
  | .screen, .dispatch r _ => (codeScreen, r)
  | .screen, _ => (codeScreen, [])
  | .commit, _ => (codeCommit, [])
  | .poll, _ => (codePoll, [s.positionByte t.display])

/-- R140: one try of the step a transaction stands at: its message sent, its reply awaited from now. -/
def State.sendTry (s : State) (k : StringNo) (t : Txn) : State :=
  let c := s.str k
  let m := s.message t
  s.setStr k ({ c with txn := some { t with tag := c.tag, sentAt := s.now } }.send m.1 m.2)

/-- RELEASE sent on a string (R140: it expects no reply). -/
def State.release (s : State) (k : StringNo) : State := s.setStr k ((s.str k).send codeRelease [])

/-- R129: the transaction ends: OPEN becomes IDLE, HOLDING becomes HELD. -/
def StringCtl.ended (c : StringCtl) : StringCtl :=
  { c with txn := none, state := if c.state = .holding ∨ c.state = .held then .held else .idle }

/-- R129: the transaction of a string ends. -/
def State.endTxn (s : State) (k : StringNo) : State := s.setStr k (s.str k).ended

/-- R132: a display returns to its place, or becomes CLEAN if it had none. -/
def State.returnToPlace (s : State) (d : Nat) (place : Option (Urgency × Nat)) : State :=
  match place with
  | some (u, stamp) => s.enterAt d u stamp
  | none => s.onRuntime d fun r => { r with state := .clean }

/-- R132: a stale flag is cleared and the display marked at the stale urgency. -/
def State.applyStale (s : State) (d : Nat) : State :=
  match s.display d with
  | none => s
  | some x =>
    match x.rt.stale with
    | some u => (s.setDisplay d { x with rt := { x.rt with stale := none } }).mark d u
    | none => s

/-! ### Faults (R142, R143, R145) -/

/-- R143: what faulting sets in the runtime record. -/
def State.faultDisplay (s : State) (d : Nat) (cause : FaultCause) : State :=
  s.onRuntime d fun r =>
    { r with state := .faulted, fault := some cause, failures := 3, stale := none, lastFail := some s.now }

/-- R143: a display that was not FAULTED before is faulted, with its report. -/
def State.faultReported (s : State) (d : Nat) (cause : FaultCause) : State :=
  (s.faultDisplay d cause).queueReport .displayFault d cause.code

/-- R142, R144: a failed dispatch or poll counts; at 3 the display is faulted, below it returns to its place. -/
def State.countFailure (s : State) (t : Txn) (cause : FaultCause) : State :=
  match s.display t.display with
  | none => s
  | some x =>
    if 3 ≤ x.rt.failures + 1 then s.faultReported t.display cause
    else
      ((s.onRuntime t.display fun r => { r with failures := r.failures + 1, lastFail := some s.now }).returnToPlace
        t.display t.place).applyStale t.display

/-- R142, R144, R145: the third try of a step has failed, so the transaction fails. -/
def State.failTransaction (s : State) (k : StringNo) (t : Txn) (cause : FaultCause) : State :=
  match t.kind with
  | .dispatch _ _ => ((s.release k).endTxn k).countFailure t cause
  | .poll => (s.endTxn k).countFailure t cause
  | .probe => ((s.release k).endTxn k).faultDisplay t.display cause

/-- R140: a failed try is repeated under a new tag, or as the third one fails the transaction. -/
def State.failTry (s : State) (k : StringNo) (t : Txn) (cause : FaultCause) : State :=
  if t.tries < Config.maxTries then s.sendTry k { t with tries := t.tries + 1 } else s.failTransaction k t cause

/-! ### Replies (R141, R144, R145) -/

/-- R141, R145: a READY with another class: RELEASE, and the display is faulted with MISMATCH, reported if it was not FAULTED
before. -/
def State.mismatch (s : State) (k : StringNo) (t : Txn) : State :=
  match t.kind with
  | .dispatch _ _ => ((s.release k).endTxn k).faultReported t.display .mismatch
  | .poll => s
  | .probe => ((s.release k).endTxn k).faultDisplay t.display .mismatch

/-- R145: a probe succeeds. -/
def State.probeSuccess (s : State) (k : StringNo) (d : Nat) (x : Display) : State :=
  let t := (s.release k).endTxn k
  let u := match x.rt.stale with
    | some v => s.writeUrgency.max v
    | none => s.writeUrgency
  ((t.onRuntime d fun r =>
      { r with state := .clean, stale := none, digest := none, failures := 0, fault := none }).queueReport
    .displayRecovered d x.cfg.cls.code).mark d u

/-- R141, R145: READY answers SELECT. -/
def State.onReady (s : State) (k : StringNo) (t : Txn) (cls : Nat) : State :=
  match s.display t.display with
  | none => s.endTxn k
  | some x =>
    if cls = x.cfg.cls.code then
      match t.kind with
      | .dispatch _ _ => s.sendTry k { t with step := .screen, tries := 1 }
      | .probe => s.probeSuccess k t.display x
      | .poll => s
    else s.mismatch k t

/-- R141, R145: BUSY answers SELECT. -/
def State.onBusy (s : State) (k : StringNo) (t : Txn) (ms : Nat) : State :=
  let u := (s.endTxn k).onRuntime t.display fun r => { r with busyUntil := s.now + min ms Config.refreshCapMs }
  match t.kind with
  | .probe => u.onRuntime t.display fun r => { r with state := .faulted, stale := none, lastFail := some s.now }
  | .dispatch _ _ => (u.returnToPlace t.display t.place).applyStale t.display
  | .poll => u

/-- R141: REFRESH answers COMMIT: the delivery is recorded, RELEASE is sent and the display is cleared. -/
def State.onRefresh (s : State) (k : StringNo) (t : Txn) (dg : Word16) (ms : Nat) : State :=
  ((((s.release k).endTxn k).onRuntime t.display fun r =>
      { r with
        digest := some dg
        lastCommit := some s.now
        busyUntil := s.now + min ms Config.refreshCapMs
        failures := 0
        state := .clean })).applyStale t.display

/-- R144: EVENTS answers POLL: the display is put back, then the events are handed to the Cabin Unit. -/
def State.onEvents (s : State) (k : StringNo) (t : Txn) (codes : List Nat) : State :=
  ((((s.endTxn k).onRuntime t.display fun r => { r with lastPoll := some s.now, failures := 0 }).returnToPlace t.display
    t.place).applyStale t.display).takeEvents t.display codes

/-- R140, R141, R144, R145: the reply to the message awaited; a reply of a kind the message does not expect is a rejection. -/
def State.answer (s : State) (k : StringNo) (t : Txn) (r : StringReply) : State :=
  match t.step, t.kind, r with
  | .select, _, .ready c => s.onReady k t c
  | .select, _, .busy ms => s.onBusy k t ms
  | .screen, _, .ack => s.sendTry k { t with step := .commit, tries := 1 }
  | .commit, .dispatch _ dg, .refresh ms => s.onRefresh k t dg ms
  | .poll, _, .events cs => s.onEvents k t cs
  | _, _, _ => s.failTry k t .rejected

/-- R140: a reply is taken only when a reply is awaited and it carries the awaited tag; else it is discarded. -/
def State.stringReply (s : State) (k : StringNo) (tag : Nat) (r : StringReply) : State :=
  match (s.str k).txn with
  | none => s
  | some t => if t.tag = tag then s.answer k t r else s

/-! ### Takes (R138, R139) -/

/-- A transaction opened with a display: the display OPEN, the string OPEN, the first message sent. -/
def State.openTxn (s : State) (k : StringNo) (t : Txn) : State :=
  let u := s.onRuntime t.display fun r => { r with state := .opened, stale := none }
  (u.setStr k { u.str k with state := .opened }).sendTry k t

/-- R138: the SAFETY run count set on a string. -/
def State.setRun (s : State) (k : StringNo) (n : Nat) : State := s.setStr k { s.str k with run := n }

/-- R139: the display that selection offers is taken from its queue and composed; an equal digest makes it CLEAN, else a
dispatch opens with SELECT. R138 gives the run count. -/
def State.takeDispatch (s : State) (k : StringNo) (d : Nat) (u : Urgency) (stamp : Nat) : State :=
  match s.display d with
  | none => s
  | some x =>
    let r := s.record d x
    let t := (s.leaveQueue d).writeHeld d x
    if x.rt.digest = some (digest r) then
      let v := t.onRuntime d fun y => { y with state := .clean }
      if u = .safety then v else v.setRun k 0
    else
      (t.setRun k (if u = .safety then (s.str k).run + 1 else 0)).openTxn k
        { kind := .dispatch r (digest r), display := d, step := .select, tries := 1, place := some (u, stamp), tag := 0,
          sentAt := 0 }

/-- R139: the return place of a display taken for a poll: its queue and stamp where it is QUEUED. -/
def State.placeOf (s : State) (d : Nat) (x : Display) : Option (Urgency × Nat) :=
  match x.rt.state with
  | .queued u => (((s.str x.cfg.string).queue u).find? fun e => e.display == d).map fun e => (u, e.stamp)
  | .clean => none
  | .opened => none
  | .faulted => none

/-- R136, R138, R139: a poll taken: the cursor moves to the display's position and POLL is sent. -/
def State.takePoll (s : State) (k : StringNo) (d : Nat) : State :=
  match s.display d with
  | none => s
  | some x =>
    let t := s.leaveQueue d
    (t.setStr k { t.str k with run := 0, cursor := x.cfg.position }).openTxn k
      { kind := .poll, display := d, step := .poll, tries := 1, place := s.placeOf d x, tag := 0, sentAt := 0 }

/-- R137, R138, R139: a probe taken: SELECT is sent. -/
def State.takeProbe (s : State) (k : StringNo) (d : Nat) : State :=
  (s.setRun k 0).openTxn k
    { kind := .probe, display := d, step := .select, tries := 1, place := none, tag := 0, sentAt := 0 }

/-! ### Warm restart (R146) -/

/-- R146: a transaction in flight is cut short, with RELEASE for a dispatch or probe. -/
def StringCtl.cut (c : StringCtl) : StringCtl :=
  match c.txn with
  | some t =>
    match t.kind with
    | .dispatch _ _ => c.send codeRelease []
    | .probe => c.send codeRelease []
    | .poll => c
  | none => c

/-- R146: a string controller after warm restart. -/
def StringCtl.restarted (c : StringCtl) : StringCtl :=
  { c.cut with state := .idle, safety := [], service := [], routine := [], run := 0, cursor := 0, txn := none }

/-- R146: every string controller restarted. -/
def State.restartStrings (s : State) : State := { s with strings := s.strings.map StringCtl.restarted }

end Sys2Proof.Machine
end

