-- ==== Sys2Proof/Machine/ShipUnit.lean ====
section
/-! DEFINITION. The Ship State Unit (chapter 1): quiet hours, the clock's notifications, the phase machine, the muster line,
bridge silence and the bulletins it takes. -/

namespace Sys2Proof.Machine

/-- The state with the Ship State Unit's own state changed. -/
def State.onShip (s : State) (f : Ship → Ship) : State := { s with ship := f s.ship }

/-! ### Quiet hours (R19) -/

/-- R19: a minute of day lies in the quiet window. -/
def inQuietWindow (start stop m : Nat) : Bool :=
  if start = stop then false
  else if start < stop then decide (start ≤ m) && decide (m < stop)
  else decide (start ≤ m) || decide (m < stop)

/-- R19: whether quiet hours are in force. -/
def State.quietNow (s : State) : Bool :=
  s.ship.phase == .normal && s.ship.valid && inQuietWindow s.node.quietStart s.node.quietEnd s.ship.minute

/-- R19: quiet hours re-evaluated; a change sends QUIET to the Display Directory (R35) and the String Scheduler (R128). -/
def State.evaluateQuiet (s : State) : State :=
  if s.quietNow = s.ship.quiet then s
  else
    let t := s.onShip fun h => { h with quiet := s.quietNow }
    { t.markLightQuiet s.ship.light s.ship.quiet with quietCopy := s.quietNow }

/-! ### The clock's notifications (R5) -/

/-- R5: MINUTE or CLOCK_SET, to its receivers in the order of R5's table: Programme Unit, on a minute boundary the Notice Unit
and the Screen Composer, then quiet hours. -/
def State.clockNotify (s : State) (boundary first : Bool) : State :=
  let now := s.ship.absMinute
  let p := s.programmeEvaluation now first
  let n := if boundary then (p.noticeEvaluation now).minuteMarks else p
  n.evaluateQuiet

/-- R3: the clock one second on: second, minute and day carried. -/
def Ship.tick (h : Ship) : Ship :=
  let h1 := { h with subSecond := h.subSecond + 1000 }
  if h.second < 59 then { h1 with second := h.second + 1 }
  else if h.minute < 1439 then { h1 with second := 0, minute := h.minute + 1 }
  else { h1 with second := 0, minute := 0, day := if h.day < 255 then h.day + 1 else 0 }

/-- R3: the second advance, with MINUTE or, at the day wrap, a BACKWARD CLOCK_SET (a minute boundary) when the minute moves. -/
def State.advanceSecond (s : State) : State :=
  let t := s.onShip Ship.tick
  if s.ship.second < 59 then t else t.clockNotify true false

/-- R4: a TIME bulletin: dropped whole for a value out of range, else the clock is set and CLOCK_SET sent. -/
def State.setClock (s : State) (day minute second : Nat) : State :=
  if 255 < day ∨ 1439 < minute ∨ 59 < second then s
  else
    let t := s.onShip fun h =>
      { h with day := day, minute := minute, second := second, valid := true, subSecond := s.now }
    t.clockNotify (!s.ship.valid || t.ship.absMinute != s.ship.absMinute) (!s.ship.valid)

/-! ### The phase machine (R8 to R14) -/

/-- R13: the urgency of the marks of a phase change. -/
def phaseUrgency (old new : Phase) : Urgency :=
  match new with
  | .alert => .safety
  | .muster => .safety
  | .standDown => .service
  | .normal => if old = .alert then .service else .routine

/-- R12: the stand-down hold at a change of phase: started on entry to STAND_DOWN, abandoned otherwise, its mark discarded. -/
def State.holdAt (s : State) (new : Phase) : Option Nat :=
  if new = .standDown then some (s.now + s.node.holdTime * 1000) else none

/-- R13: a change of phase: the new phase and drill flag, the hold of R12, then the PHASE notification to its receivers
(R53, R91, R130), the marks of R13 and quiet hours (R19). -/
def State.changePhase (s : State) (new : Phase) (drill : Bool) : State :=
  let old := s.ship.phase
  let s1 := s.onShip fun h =>
    { h with phase := new, drill := drill && new != .normal, hold := s.holdAt new, holdRunOut := false }
  let s2 := if old.emergency != new.emergency then s1.invalidateAll else s1
  let s3 := if new = .normal then s2.clearCabinFlags else s2
  let s4 := if new.emergency then s3.freeStrings else s3
  (s4.markAll (phaseUrgency old new)).evaluateQuiet

/-- R10, R13: the drill flag set without a change of phase; DRILL and its marks where it changes. -/
def State.setDrill (s : State) (drill : Bool) : State :=
  if s.ship.drill = drill then s
  else
    (s.onShip fun h => { h with drill := drill }).markAll (if s.ship.phase.emergency then .safety else .service)

/-- R14: the LINE_HELD report. -/
def State.lineHeld (s : State) (named : Phase) : State := s.queueReport .lineHeld (s.address.getD 0) named.code

/-- R9: what a PHASE bulletin does, by its table. The cells that cannot occur (R8) change nothing. -/
def State.takePhase (s : State) (named : Phase) (d : Bool) : State :=
  match s.ship.phase, named, s.ship.line with
  | .normal, .normal, false => s
  | .normal, .alert, false => s.changePhase .alert d
  | .normal, .muster, false => s.changePhase .muster d
  | .normal, .standDown, false => s
  | .normal, _, true => s
  | .alert, .normal, false => s.changePhase .normal false
  | .alert, .normal, true => s.lineHeld .normal
  | .alert, .alert, _ => s.setDrill d
  | .alert, .muster, _ => s.changePhase .muster d
  | .alert, .standDown, false => s.changePhase .standDown d
  | .alert, .standDown, true => s.lineHeld .standDown
  | .muster, .normal, false => s.changePhase .standDown d
  | .muster, .normal, true => s.lineHeld .normal
  | .muster, .alert, _ => s
  | .muster, .muster, _ => s.setDrill d
  | .muster, .standDown, false => s.changePhase .standDown d
  | .muster, .standDown, true => s.lineHeld .standDown
  | .standDown, .normal, false => s.changePhase .normal false
  | .standDown, .alert, false => s.changePhase .alert d
  | .standDown, .muster, false => s.changePhase .muster d
  | .standDown, .standDown, false => s.setDrill d
  | .standDown, _, true => s

/-- R11: the phase machine on assertion of the muster line. -/
def State.lineAsserted (s : State) : State :=
  match s.ship.phase with
  | .normal => s.changePhase .alert false
  | .standDown => s.changePhase .alert false
  | .alert => s.setDrill false
  | .muster => s.setDrill false

/-- R7: the filtered line takes the raw level; an assertion is sent to the phase machine. -/
def State.filterLine (s : State) : State :=
  let t := s.onShip fun h => { h with line := s.ship.raw }
  if s.ship.raw then t.lineAsserted else t

/-- R12: the stand-down hold expires in STAND_DOWN. -/
def State.holdExpires (s : State) : State :=
  if s.ship.linkLost then s.onShip fun h => { h with hold := none, holdRunOut := true }
  else s.changePhase .normal false

/-! ### Bridge silence (R15, R16) -/

/-- R16: the urgency of the marks of LINK_LOST, which is that of the write urgency. -/
def State.markLink (s : State) : State := s.markAll s.writeUrgency

/-- R15, R16: the bridge-silence timer expires. -/
def State.silenceExpires (s : State) : State :=
  (s.onShip fun h => { h with silence := none, linkLost := true }).markLink

/-- R16: when LINK_LOST ends, a hold that ran out takes effect if the phase is still STAND_DOWN. -/
def State.applyRunOut (s : State) : State :=
  if s.ship.phase = .standDown ∧ s.ship.holdRunOut then s.changePhase .normal false else s

/-- R15, R16: the bridge is alive: the timer is restarted, and LINK_LOST ends if it held. -/
def State.bridgeAlive (s : State) : State :=
  let t := s.onShip fun h => { h with silence := some (s.now + s.node.silenceTime * 1000), linkLost := false }
  if s.ship.linkLost then t.markLink.applyRunOut else t

/-! ### Closures and light (R17, R18) -/

/-- R17: the states of a list given to the closures from a first index on, dropping those past 127 and skipping values that
are none of the three. -/
def setClosures (t : Tab Closure) : Nat → List Nat → Tab Closure
  | _, [] => t
  | i, v :: vs =>
    match Closure.ofCode v with
    | some c => setClosures (if i < Config.closureCount then Tab.put t i c .unknown else t) (i + 1) vs
    | none => setClosures t (i + 1) vs

/-- R17: some closure is passable in one table and not in the other. -/
def passabilityDiffers (a b : Tab Closure) : Bool :=
  (List.range Config.closureCount).any fun i =>
    (Tab.fetchD a i .unknown).passable != (Tab.fetchD b i .unknown).passable

/-- R17: a CLOSURES bulletin; a change of passability sends one PASSABILITY notification (R52). -/
def State.takeClosures (s : State) (first : Nat) (states : List Nat) : State :=
  if 127 < first ∨ states.length = 0 ∨ 32 < states.length then s
  else
    let t := s.onShip fun h => { h with closures := setClosures s.ship.closures first states }
    if passabilityDiffers s.ship.closures t.ship.closures then t.invalidateAll else t

/-- R18: a LIGHT bulletin; a new level sends LIGHT to the Display Directory (R35). -/
def State.takeLight (s : State) (level : Nat) : State :=
  match Light.ofCode level with
  | none => s
  | some l =>
    if s.ship.light = l then s
    else (s.onShip fun h => { h with light := l }).markLightQuiet s.ship.light s.ship.quiet

/-- R1: a taken bulletin applied by its kind. -/
def State.applyBulletin (s : State) (b : Bulletin) : State :=
  match b with
  | .time d m sec => s.setClock d m sec
  | .phase p dr =>
    match Phase.ofCode p with
    | some q => s.takePhase q dr
    | none => s
  | .closures f st => s.takeClosures f st
  | .light l => s.takeLight l
  | .cabinMark ns => s.cabinMark ns
  | .assistClear ns => s.assistClear ns
  | .other => s

/-- R155: a bulletin's sequence against the watermark. -/
def takesSequence (watermark : Option Nat) (seq : Nat) : Bool :=
  match watermark with
  | none => true
  | some w => decide (1 ≤ (seq + 65536 - w) % 65536) && decide ((seq + 65536 - w) % 65536 ≤ 32767)

/-- R1, R15, R155: a BRIDGE bulletin that concerns the 820: taken and applied, or ignored as a duplicate or stale; either
way the bridge is alive. -/
def State.takeBulletin (s : State) (seq : Nat) (b : Bulletin) : State :=
  if takesSequence s.watermark seq then (({ s with watermark := some seq } : State).applyBulletin b).bridgeAlive
  else s.bridgeAlive

end Sys2Proof.Machine
end

