-- ==== Sys2Proof/Machine/Access.lean ====
section
/-! DEFINITION. The checks of the Management Responder that no table owns (chapter 10): form, table and index ranges, access
regions and phase gating. -/

namespace Sys2Proof.Machine

/-! ### Tables and index ranges (R164) -/

/-- Table ids (R164). -/
def tblNode : Nat := 0
def tblDisplays : Nat := 1
def tblStrings : Nat := 2
def tblNodes : Nat := 3
def tblSegments : Nat := 4
def tblDestinations : Nat := 5
def tblLists : Nat := 6
def tblProgramme : Nat := 7
def tblCabins : Nat := 8
def tblNotices : Nat := 9
def tblTexts : Nat := 10
def tblTemplates : Nat := 11
def tblSelection : Nat := 12
def tblRegions : Nat := 13
def tblClosures : Nat := 14
def tblRoutes : Nat := 15

/-- R164: the number of indices of a table whose range begins at 0. -/
def tableSize (t : Nat) : Nat :=
  match t with
  | 0 => 1
  | 1 => Config.displayCount
  | 2 => 8
  | 3 => Config.nodeCount
  | 4 => Config.segmentCount
  | 5 => Config.destinationCount
  | 6 => Config.listCount
  | 7 => 65536
  | 8 => Config.cabinCount
  | 9 => Config.noticeCount
  | 10 => Config.textVariantCount
  | 11 => Config.templateCount
  | 12 => Config.selectionCount
  | 13 => 8
  | 14 => Config.closureCount
  | 15 => Config.destinationCount * Config.nodeCount
  | _ => 0

/-- R164: a table id is 0..15. -/
def tableOk (t : Nat) : Bool := decide (t ≤ 15)

/-- R164: an index lies in its table's range; PROGRAMME's index 0 is for READ alone. -/
def indexOk (t i : Nat) (reading : Bool) : Bool := decide (i < tableSize t) && (t != tblProgramme || i != 0 || reading)

/-- R165, R105: the entry of an index is present, or its table's entries always exist. -/
def State.entryExists (s : State) (t i : Nat) : Bool :=
  match t with
  | 1 => (s.display i).isSome
  | 3 => (Tab.fetch s.nodes i).isSome
  | 4 => (Tab.fetch s.segments i).isSome
  | 5 => (Tab.fetch s.dests i).isSome
  | 7 => (findEntry i s.programme).isSome
  | 8 => (Tab.fetch s.cabins i).isSome
  | 9 => (Tab.fetch s.notices i).isSome
  | 11 => (s.template i).isSome
  | _ => true

/-! ### The form of a field list (R165, R169, R180) -/

/-- The kinds of value a field can hold. -/
inductive FieldKind where
  | number
  | numberOrNone
  | flag
  | list
  | string
  | slots
  deriving DecidableEq, Repr

/-- A value is of a kind the field can hold. -/
def FieldKind.holds (k : FieldKind) (v : FieldValue) : Bool :=
  match k, v with
  | .number, .number _ => true
  | .numberOrNone, .number _ => true
  | .numberOrNone, .absent => true
  | .flag, .flag _ => true
  | .list, .list _ => true
  | .string, .string _ => true
  | .slots, .slots _ => true
  | _, _ => false

/-- The highest field number of a table (the field tables of each chapter); 0 for the read-only ones. -/
def fieldCount (t : Nat) : Nat :=
  match t with
  | 0 => 22
  | 1 => 13
  | 2 => 3
  | 3 => 1
  | 4 => 9
  | 5 => 3
  | 6 => 1
  | 7 => 8
  | 8 => 7
  | 9 => 6
  | 10 => 1
  | 11 => 2
  | 12 => 1
  | 13 => 10
  | _ => 0

/-- The kind of each field; a field number that the table does not have is no form error (R165). -/
def fieldKind (t n : Nat) : Option FieldKind :=
  if n = 0 ∨ fieldCount t < n then none
  else
    match t, n with
    | 0, 19 => some .numberOrNone
    | 1, 8 => some .numberOrNone
    | 2, 1 => some .flag
    | 4, 7 => some .numberOrNone
    | 4, 8 => some .flag
    | 4, 9 => some .flag
    | 5, 1 => some .numberOrNone
    | 5, 3 => some .list
    | 6, 1 => some .list
    | 7, 4 => some .numberOrNone
    | 8, 3 => some .numberOrNone
    | 8, 4 => some .numberOrNone
    | 8, 6 => some .numberOrNone
    | 8, 7 => some .numberOrNone
    | 9, 5 => some .numberOrNone
    | 9, 6 => some .numberOrNone
    | 10, 1 => some .string
    | 11, 2 => some .slots
    | 12, 1 => some .numberOrNone
    | 13, 1 => some .numberOrNone
    | 13, m => if 4 ≤ m then some .flag else some .number
    | _, _ => some .number

/-- R165: a field number that appears twice. -/
def hasDuplicate : FieldList → Bool
  | [] => false
  | (n, _) :: fs => fs.any (fun p => p.1 == n) || hasDuplicate fs

/-- R165: every value is of a kind its field can hold. -/
def kindsOk (t : Nat) (fs : FieldList) : Bool :=
  fs.all fun p =>
    match fieldKind t p.1 with
    | some k => k.holds p.2
    | none => true

/-- The fields marked required in a table's field table. -/
def requiredFields (t : Nat) : List Nat :=
  match t with
  | 1 => [1, 2, 3, 5]
  | 4 => [1, 2, 3, 4]
  | 5 => [2, 3]
  | 6 => [1]
  | 7 => [1, 2, 7]
  | 8 => [1, 2]
  | 9 => [1, 4]
  | 10 => [1]
  | 11 => [1, 2]
  | 12 => [1]
  | _ => []

/-- R165: LISTS, TEXTS and SELECTION require field 1 in every WRITE. -/
def alwaysRequires (t : Nat) : Bool := t == tblLists || t == tblTexts || t == tblSelection

/-- A field list supplies a field. -/
def supplies (fs : FieldList) (n : Nat) : Bool := fs.any fun p => p.1 == n

/-- R165, R169: the form check of a WRITE. Required fields are judged when table and index are within their ranges. -/
def State.writeFormOk (s : State) (t i : Nat) (fs : FieldList) : Bool :=
  !hasDuplicate fs && (!tableOk t || kindsOk t fs) &&
    (!(tableOk t && indexOk t i false && (alwaysRequires t || !s.entryExists t i)) ||
      (requiredFields t).all (supplies fs))

/-! ### Access (R170 to R173) -/

/-- R171: a region matches an index when it is enabled, its table is the one concerned and the index lies in its range. -/
def Region.covers (r : Region) (t i : Nat) : Bool :=
  r.table == some t && decide (r.first ≤ i) && decide (i ≤ r.last)

/-- R171: the lowest-numbered matching region. -/
def State.regionFor (s : State) (t i : Nat) : Option Region := s.regions.toList.find? fun r => r.covers t i

/-- R171: a region's decision for an origin: an unlocked one allows BRIDGE whatever its bits say. -/
def Region.allows (r : Region) (origin : Nat) (content maintenance bridge : Bool) : Bool :=
  if origin = originBridge then !r.lock || bridge
  else if origin = originContent then content
  else if origin = originMaintenance then maintenance
  else false

/-- R170, R171: whether an origin may read an entry. CONTROLLER may read every entry. -/
def State.mayRead (s : State) (origin t i : Nat) : Bool :=
  if origin = originController then true
  else
    match s.regionFor t i with
    | some r => r.allows origin r.readContent r.readMaintenance r.readBridge
    | none => true

/-- R170: default access to write. -/
def defaultWrite (origin t : Nat) : Bool :=
  if origin = originBridge ∨ origin = originMaintenance then decide (t < tblClosures)
  else if origin = originContent then t == tblProgramme || t == tblCabins || t == tblNotices || t == tblTexts
  else false

/-- R170, R172: the refusals that stand whatever default access or any region says. -/
def State.writeBarred (s : State) (origin t i : Nat) : Bool :=
  origin == originController || decide (tblClosures ≤ t) ||
    (t == tblTemplates && decide (i < Config.fixedTemplateCount)) ||
    (t == tblRegions && (s.regions.toList.getD i Region.reset).lock)

/-- R170 to R172: whether an origin may WRITE or CLEAR an entry. -/
def State.mayWrite (s : State) (origin t i : Nat) : Bool :=
  !s.writeBarred origin t i &&
    (match s.regionFor t i with
      | some r => r.allows origin r.writeContent r.writeMaintenance r.writeBridge
      | none => defaultWrite origin t)

/-- R166: the indices that a CLEAR_TABLE reaches. -/
def State.clearReach (s : State) (t : Nat) : List Nat :=
  if t = tblTemplates then (List.range Config.templateCount).drop Config.fixedTemplateCount
  else if t = tblProgramme then s.programme.map (·.id)
  else List.range (tableSize t)

/-- R173: CLEAR_TABLE is judged as a CLEAR of every index it reaches. For a table with no index to reach the origin and table
still stand refused where R170 bars them. -/
def State.mayClearTable (s : State) (origin t : Nat) : Bool :=
  origin != originController && (s.clearReach t).all fun i => s.mayWrite origin t i

/-- R173: ADJUST_STEPS is judged as a WRITE of every present DISPLAYS entry its target reaches. -/
def State.mayAdjust (s : State) (origin kind value : Nat) : Bool :=
  origin != originController &&
    (s.displays.filter fun e => adjustReaches kind value e.1 e.2).all fun e => s.mayWrite origin tblDisplays e.1

/-! ### Phase gating (R174) -/

/-- R174: the tables that are gated in ALERT and MUSTER. -/
def gatedTable (t : Nat) : Bool :=
  t == tblNodes || t == tblSegments || t == tblDestinations || t == tblDisplays || t == tblStrings || t == tblTemplates ||
    t == tblSelection

/-- R174: the phase check passes a WRITE. -/
def State.phasePassesWrite (s : State) (origin t : Nat) (fs : FieldList) : Bool :=
  !s.ship.phase.emergency || origin == originBridge ||
    !(gatedTable t || (t == tblCabins && (supplies fs 2 || supplies fs 3)))

/-- R174: the phase check passes a CLEAR or CLEAR_TABLE. -/
def State.phasePassesClear (s : State) (origin t : Nat) : Bool :=
  !s.ship.phase.emergency || origin == originBridge || !(gatedTable t || t == tblCabins)

/-- R36, R169: an ADJUST_STEPS target that can be read. -/
def targetReadable (kind value : Nat) : Bool :=
  kind == 0 || (kind == 1 && decide (value ≤ 5)) || kind == 2

/-- R169, R174: the phase check passes an ADJUST_STEPS; a target that cannot be read passes it. -/
def State.phasePassesAdjust (s : State) (origin kind value : Nat) : Bool :=
  !s.ship.phase.emergency || origin == originBridge || !targetReadable kind value

end Sys2Proof.Machine
end

