-- ==== Sys2Proof/Machine/Fields.lean ====
section
/-! DEFINITION. Reading the pairs of a WRITE: the range of each field and how a number is brought into it (the field tables of
each chapter). -/

namespace Sys2Proof.Machine

/-- A WRITE names a field number that the table does not have. -/
def unknownField (t : Nat) (fs : FieldList) : Bool := fs.any fun p => p.1 == 0 || decide (fieldCount t < p.1)

/-- The range of a field whose rule clamps a number to its nearest end; none for a field that is refused or masked instead. -/
def fieldRange (t n : Nat) : Option (Nat × Nat) :=
  match t, n with
  | 0, 1 => some (10, 900)
  | 0, 2 => some (2, 60)
  | 0, 3 => some (0, 1439)
  | 0, 4 => some (0, 1439)
  | 0, 5 => some (300, 1500)
  | 0, 6 => some (1, 63)
  | 0, 7 => some (1, 63)
  | 0, 8 => some (1, 63)
  | 0, 9 => some (1, 63)
  | 0, 10 => some (1, 63)
  | 0, 11 => some (0, 240)
  | 0, 12 => some (0, 600)
  | 0, 13 => some (0, 600)
  | 0, 14 => some (0, 600)
  | 0, 15 => some (0, 600)
  | 0, 16 => some (0, 600)
  | 0, 17 => some (0, 600)
  | 0, 18 => some (0, 255)
  | 0, 19 => some (0, 14)
  | 0, 20 => some (1, 255)
  | 0, 21 => some (0, 1)
  | 0, 22 => some (1, 63)
  | 1, 1 => some (0, 7)
  | 1, 2 => some (1, 63)
  | 1, 4 => some (0, 15)
  | 1, 6 => some (0, 15)
  | 1, 7 => some (0, 3)
  | 1, 8 => some (0, 63)
  | 1, 11 => some (0, 1440)
  | 1, 12 => some (0, 15)
  | 1, 13 => some (0, 15)
  | 2, 2 => some (2, 50)
  | 2, 3 => some (250, 5000)
  | 3, 1 => some (0, 15)
  | 4, 4 => some (1, 4095)
  | 4, 5 => some (0, 15)
  | 4, 7 => some (0, 127)
  | 5, 1 => some (0, 1023)
  | 7, 1 => some (0, 255)
  | 7, 2 => some (0, 1439)
  | 7, 3 => some (0, 720)
  | 7, 4 => some (0, 31)
  | 7, 5 => some (0, 15)
  | 7, 6 => some (0, 15)
  | 7, 7 => some (0, 1023)
  | 8, 3 => some (0, 31)
  | 8, 6 => some (0, 3)
  | 8, 7 => some (0, 1023)
  | 9, 1 => some (1, 15)
  | 9, 3 => some (0, 65535)
  | 9, 4 => some (0, 1023)
  | 9, 5 => some (0, 368639)
  | 9, 6 => some (0, 368639)
  | 12, 1 => some (0, 63)
  | 13, 2 => some (0, 65535)
  | 13, 3 => some (0, 65535)
  | _, _ => none

/-- The width of a mask field whose higher bits are dropped (R23, R97). -/
def maskWidth (t n : Nat) : Option Nat :=
  match t, n with
  | 1, 9 => some 16
  | 1, 10 => some 16
  | 9, 2 => some 6
  | _, _ => none

/-- A number as a field takes it: masked, clamped or as it is. -/
def bring (t n v : Nat) : Nat :=
  match maskWidth t n with
  | some k => v % 2 ^ k
  | none =>
    match fieldRange t n with
    | some (lo, hi) => clampTo lo hi v
    | none => v

/-- R168: some number of the list was brought into range. -/
def numbersAdjusted (t : Nat) (fs : FieldList) : Bool :=
  fs.any fun p =>
    match p.2 with
    | .number v => bring t p.1 v != v
    | _ => false

/-- The value supplied for a field. -/
def supplied (fs : FieldList) (n : Nat) : Option FieldValue := (fs.find? fun p => p.1 == n).map (·.2)

/-- A number field after the write: the supplied number brought into range, else what it was. -/
def numField (t : Nat) (fs : FieldList) (n old : Nat) : Nat :=
  match supplied fs n with
  | some (.number v) => bring t n v
  | _ => old

/-- A field with a none value after the write. -/
def optField (t : Nat) (fs : FieldList) (n : Nat) (old : Option Nat) : Option Nat :=
  match supplied fs n with
  | some (.number v) => some (bring t n v)
  | some .absent => none
  | _ => old

/-- A flag field after the write. -/
def flagField (fs : FieldList) (n : Nat) (old : Bool) : Bool :=
  match supplied fs n with
  | some (.flag b) => b
  | _ => old

/-- A list field after the write. -/
def listField (fs : FieldList) (n : Nat) (old : List Nat) : List Nat :=
  match supplied fs n with
  | some (.list ns) => ns
  | _ => old

/-- A string field after the write. -/
def stringField (fs : FieldList) (n : Nat) (old : List Nat) : List Nat :=
  match supplied fs n with
  | some (.string cs) => cs
  | _ => old

/-- A supplied number breaks a condition. -/
def numberBreaks (fs : FieldList) (n : Nat) (ok : Nat → Bool) : Bool :=
  match supplied fs n with
  | some (.number v) => !ok v
  | _ => false

/-- A WRITE's outcome: a refusal, or the state it leaves with whether some value was brought into range. -/
abbrev WriteResult := Except ResultCode (State × Bool)

end Sys2Proof.Machine
end

