-- ==== Sys2Proof/Machine/Writes.lean ====
section
/-! DEFINITION. The field-value and state checks of a WRITE and its effects, table by table: NODE, DISPLAYS, STRINGS and the
route tables. -/

namespace Sys2Proof.Machine

/-! ### NODE (R167) -/

/-- R46: the five kind weights. -/
def NodeParams.weights (n : NodeParams) : List Nat := [n.wCorridor, n.wStairUp, n.wStairDown, n.wLift, n.wOpenDeck]

/-- R167: new node parameters taken; each reader acts on the fields whose values changed (R42, R19). The spec gives no order
among the readers: the model invalidates for the weights, then marks for the walk rate, then re-evaluates quiet hours with their
marks (log entry 33). -/
def State.setNode (s : State) (n : NodeParams) : State :=
  let s1 : State := { s with node := n }
  let s2 := if s.node.weights ≠ n.weights then s1.invalidateAll else s1
  let s3 := if s.node.walkRate ≠ n.walkRate then s2.markAll s2.writeUrgency else s2
  if s.node.quietStart ≠ n.quietStart ∨ s.node.quietEnd ≠ n.quietEnd then s3.evaluateQuiet else s3

/-- R167: the node parameters after a WRITE. -/
def NodeParams.written (n : NodeParams) (fs : FieldList) : NodeParams :=
  { holdTime := numField 0 fs 1 n.holdTime
    silenceTime := numField 0 fs 2 n.silenceTime
    quietStart := numField 0 fs 3 n.quietStart
    quietEnd := numField 0 fs 4 n.quietEnd
    walkRate := numField 0 fs 5 n.walkRate
    wCorridor := numField 0 fs 6 n.wCorridor
    wStairUp := numField 0 fs 7 n.wStairUp
    wStairDown := numField 0 fs 8 n.wStairDown
    wLift := numField 0 fs 9 n.wLift
    wOpenDeck := numField 0 fs 10 n.wOpenDeck
    retention := numField 0 fs 11 n.retention
    minRefresh := Vector.ofFn fun c : Fin 6 => numField 0 fs (12 + c.val) (n.minRefresh[c])
    quietMask := BitVec.ofNat 8 (numField 0 fs 18 n.quietMask.toNat)
    zoneGroup := optField 0 fs 19 n.zoneGroup
    reportDest := numField 0 fs 20 n.reportDest
    reportPort := if numField 0 fs 21 (Port.code n.reportPort) = 0 then .fore else .aft
    txHop := numField 0 fs 22 n.txHop }

/-- R167: a WRITE to NODE. -/
def State.writeNode (s : State) (fs : FieldList) : WriteResult :=
  if unknownField 0 fs then .error .badField
  else .ok (s.setNode (s.node.written fs), numbersAdjusted 0 fs)

/-! ### DISPLAYS (R23 to R28, R30) -/

/-- R22: the defaults at creation; the required fields are supplied. -/
def DisplayConfig.created : DisplayConfig :=
  { string := 0, position := 1, cls := .musterPoint, deck := 0, node := 0, facing := 0, language := 0, list := none,
    categoryMask := 0xFFFF#16, deckMask := 0xFFFF#16, horizon := 180, dayStep := 12, nightStep := 4 }

/-- A string number as the controller's index. -/
def stringNo (n : Nat) : StringNo := Fin.ofNat 8 n

/-- R23, R25: a display's configuration after a WRITE. -/
def DisplayConfig.written (c : DisplayConfig) (fs : FieldList) : DisplayConfig :=
  { string := stringNo (numField 1 fs 1 c.string.val)
    position := numField 1 fs 2 c.position
    cls := (DisplayClass.ofCode (numField 1 fs 3 c.cls.code)).getD c.cls
    deck := numField 1 fs 4 c.deck
    node := numField 1 fs 5 c.node
    facing := numField 1 fs 6 c.facing
    language := numField 1 fs 7 c.language
    list := optField 1 fs 8 c.list
    categoryMask := BitVec.ofNat 16 (numField 1 fs 9 c.categoryMask.toNat)
    deckMask := BitVec.ofNat 16 (numField 1 fs 10 c.deckMask.toNat)
    horizon := numField 1 fs 11 c.horizon
    dayStep := numField 1 fs 12 c.dayStep
    nightStep := numField 1 fs 13 c.nightStep }

/-- R23, step 4: another present display stands at the same place. -/
def State.placeTaken (s : State) (d : Nat) (c : DisplayConfig) : Bool :=
  s.displays.any fun e => e.1 != d && e.2.cfg.string == c.string && e.2.cfg.position == c.position

/-- R25: a change of the string, the position or the class. -/
def placementChange (a b : DisplayConfig) : Bool :=
  a.string != b.string || a.position != b.position || a.cls != b.cls

/-- R25: the configurations differ in the day or night step alone. -/
def onlySteps (a b : DisplayConfig) : Bool := { a with dayStep := b.dayStep, nightStep := b.nightStep } == b

/-- R27, R28: the runtime record after a WRITE that takes the configuration from `a` to `b`; its queue is seen to apart. -/
def DisplayRuntime.replaced (r : DisplayRuntime) (a b : DisplayConfig) : DisplayRuntime :=
  let faulted := r.state == .faulted
  let r1 := if placementChange a b then
      { r with
        digest := none
        failures := if faulted then r.failures else 0
        lastFail := if faulted then none else r.lastFail
        lastPoll := if !faulted && a.cls != b.cls && b.cls == .cabin then none else r.lastPoll }
    else r
  if a.node ≠ b.node ∨ a.facing ≠ b.facing then { r1 with held := [] }
  else if a.list ≠ b.list then { r1 with held := r1.held.filter fun h => !listPositions h.1 }
  else r1

/-- R27: a QUEUED display's place after a placement change: on another string at the tail of the same urgency, on the same
string in SAFETY by its new class under the stamp it has (log entry 18), else where it was. -/
def State.requeue (s : State) (d : Nat) (x : Display) (b : DisplayConfig) (r : DisplayRuntime) : State :=
  match s.placeOf d x with
  | some (u, stamp) =>
    if x.cfg.string ≠ b.string then ((s.leaveQueue d).setDisplay d { cfg := b, rt := r }).enter d u
    else if x.cfg.cls ≠ b.cls ∧ u = .safety then ((s.leaveQueue d).setDisplay d { cfg := b, rt := r }).enterAt d u stamp
    else s.setDisplay d { cfg := b, rt := r }
  | none => s.setDisplay d { cfg := b, rt := r }

/-- R25: whether a change of configuration marks the display. -/
def State.writeMarks (s : State) (a b : DisplayConfig) : Bool :=
  if a = b then false else if onlySteps a b then s.brightness a != s.brightness b else true

/-- R25 to R28, R30: a taken WRITE to a present display. -/
def State.changeDisplay (s : State) (d : Nat) (x : Display) (b : DisplayConfig) : State :=
  let t := s.requeue d x b (x.rt.replaced x.cfg b)
  let m := if s.writeMarks x.cfg b then t.mark d t.writeUrgency else t
  if x.cfg.node ≠ b.node ∨ x.cfg.cls ≠ b.cls then m.placement d (x.cfg.cls == .cabin && b.cls != .cabin) else m

/-- R24, R30: a taken WRITE that creates a display. -/
def State.createDisplay (s : State) (d : Nat) (c : DisplayConfig) : State :=
  ((s.setDisplay d { cfg := c, rt := DisplayRuntime.fresh }).mark d s.writeUrgency).placement d false

/-- R23, R26: a WRITE to DISPLAYS. -/
def State.writeDisplay (s : State) (d : Nat) (fs : FieldList) : WriteResult :=
  if numberBreaks fs 3 (fun v => decide (v ≤ 5)) || numberBreaks fs 5 (fun v => decide (v ≤ 255)) || unknownField 1 fs then
    .error .badField
  else
    match s.display d with
    | none =>
      let c := DisplayConfig.created.written fs
      if s.placeTaken d c then .error .conflict else .ok (s.createDisplay d c, numbersAdjusted 1 fs)
    | some x =>
      let c := x.cfg.written fs
      if s.placeTaken d c then .error .conflict
      else if x.rt.state == .opened && placementChange x.cfg c then .error .busy
      else .ok (s.changeDisplay d x c, numbersAdjusted 1 fs)

/-! ### STRINGS (R127) -/

/-- R127: a string's configuration after a WRITE. -/
def StringCtl.written (c : StringCtl) (fs : FieldList) : StringCtl :=
  { c with
    enabled := flagField fs 1 c.enabled
    timeout := numField 2 fs 2 c.timeout
    pollPeriod := numField 2 fs 3 c.pollPeriod }

/-- R127: a WRITE to STRINGS, taken while the string is HELD. -/
def State.writeString (s : State) (i : Nat) (fs : FieldList) : WriteResult :=
  let k := stringNo i
  if unknownField 2 fs then .error .badField
  else if (s.str k).state ≠ .held then .error .busy
  else .ok (s.setStr k ((s.str k).written fs), numbersAdjusted 2 fs)

/-! ### NODES, SEGMENTS, DESTINATIONS and LISTS (R37 to R41) -/

/-- R37: a WRITE to NODES. -/
def State.writeNodes (s : State) (i : Nat) (fs : FieldList) : WriteResult :=
  if unknownField 3 fs then .error .badField
  else
    .ok (({ s with nodes := Tab.store s.nodes i (numField 3 fs 1 (Tab.fetchD s.nodes i 0)) } : State).invalidateAll,
      numbersAdjusted 3 fs)

/-- R38: the defaults at creation; the required fields are supplied. -/
def Segment.created : Segment :=
  { a := 0, b := 0, kind := .corridor, length := 1, heading := 0, oneWay := false, closure := none, musterOnly := false,
    enabled := true }

/-- R39: a segment after a WRITE. -/
def Segment.written (g : Segment) (fs : FieldList) : Segment :=
  { a := numField 4 fs 1 g.a
    b := numField 4 fs 2 g.b
    kind := (SegmentKind.ofCode (numField 4 fs 3 g.kind.code)).getD g.kind
    length := numField 4 fs 4 g.length
    heading := numField 4 fs 5 g.heading
    oneWay := numField 4 fs 6 (if g.oneWay then 1 else 0) == 1
    closure := optField 4 fs 7 g.closure
    musterOnly := flagField fs 8 g.musterOnly
    enabled := flagField fs 9 g.enabled }

/-- A node 0..255 that is present. -/
def State.nodePresent (s : State) (n : Nat) : Bool := decide (n ≤ 255) && (Tab.fetch s.nodes n).isSome

/-- R39, step 3: the deck of end a is higher than the deck of end b, both present. -/
def State.inverted (s : State) (g : Segment) : Bool :=
  match Tab.fetch s.nodes g.a, Tab.fetch s.nodes g.b with
  | some da, some db => decide (db < da)
  | _, _ => false

/-- R39: a WRITE to SEGMENTS. -/
def State.writeSegment (s : State) (i : Nat) (fs : FieldList) : WriteResult :=
  let g := ((Tab.fetch s.segments i).getD Segment.created).written fs
  if numberBreaks fs 3 (fun v => decide (v ≤ 3)) || numberBreaks fs 6 (fun v => decide (v ≤ 1)) || unknownField 4 fs then
    .error .badField
  else if numberBreaks fs 1 s.nodePresent || numberBreaks fs 2 s.nodePresent then .error .badRef
  else if g.a = g.b then .error .badField
  else if (supplies fs 1 || supplies fs 2 || supplies fs 3) && g.kind == .stair && s.inverted g then .error .badField
  else .ok (({ s with segments := Tab.store s.segments i g } : State).invalidateAll, numbersAdjusted 4 fs)

/-- R40: a target set holds 1..4 distinct nodes. -/
def targetsOk (ns : List Nat) : Bool := decide (1 ≤ ns.length) && decide (ns.length ≤ 4) && decide ns.Nodup

/-- R40: a supplied list breaks a condition. -/
def listBreaks (fs : FieldList) (n : Nat) (ok : List Nat → Bool) : Bool :=
  match supplied fs n with
  | some (.list ns) => !ok ns
  | _ => false

/-- R54: the entry of a destination created by a WRITE. -/
def Dest.created (fs : FieldList) : Dest :=
  { name := optField 5 fs 1 none
    kind := (DestKind.ofCode (numField 5 fs 2 0)).getD .venue
    targets := listField fs 3 []
    status := .pending
    sweeps := 0
    cells := [] }

/-- R40, R54: a present destination after a WRITE, invalidated. -/
def Dest.written (d : Dest) (fs : FieldList) : Dest :=
  { d.invalidated with
    name := optField 5 fs 1 d.name
    kind := (DestKind.ofCode (numField 5 fs 2 d.kind.code)).getD d.kind
    targets := listField fs 3 d.targets }

/-- R40, R54: a WRITE to DESTINATIONS. -/
def State.writeDest (s : State) (i : Nat) (fs : FieldList) : WriteResult :=
  if unknownField 5 fs || numberBreaks fs 2 (fun v => decide (v ≤ 3)) || listBreaks fs 3 targetsOk then .error .badField
  else if listBreaks fs 3 (fun ns => ns.all s.nodePresent) then .error .badRef
  else
    let e := match Tab.fetch s.dests i with
      | some d => d.written fs
      | none => Dest.created fs
    .ok ({ s with dests := Tab.store s.dests i e }, numbersAdjusted 5 fs)

/-- R41: the displays of some lists lose held values 0..7 and are marked. -/
def State.relist (s : State) (p : Nat → Bool) : State :=
  let hit := fun (x : Display) => x.cfg.list.any p
  (s.clearHeldMany ((s.displays.filter fun e => hit e.2).map (·.1)) listPositions).markWhere (fun _ x => hit x)
    s.writeUrgency

/-- R41: a WRITE to LISTS. -/
def State.writeList (s : State) (i : Nat) (fs : FieldList) : WriteResult :=
  if unknownField 6 fs || listBreaks fs 1 (fun ns => decide (ns.length ≤ 8) && ns.all fun n => decide (n ≤ 31)) then
    .error .badField
  else .ok (({ s with lists := Tab.put s.lists i (listField fs 1 []) [] } : State).relist fun l => l == i, false)

end Sys2Proof.Machine
end

