-- ==== Sys2Proof/Machine/Writes2.lean ====
section
/-! DEFINITION. The field-value and state checks of a WRITE and its effects, table by table: PROGRAMME, CABINS, NOTICES, TEXTS,
TEMPLATES, SELECTION and REGIONS; and the WRITE of any table. -/

namespace Sys2Proof.Machine

/-! ### PROGRAMME (R66 to R69) -/

/-- R69: an entry's status set against a VALID clock. -/
def State.byClockNow (s : State) (e : ProgEntry) : ProgEntry :=
  match s.nowMinute with
  | some t => e.byClock t
  | none => e

/-- R67: an entry created by a WRITE, before R69. -/
def ProgEntry.created (id : Nat) (fs : FieldList) : ProgEntry :=
  { id := id
    day := numField 7 fs 1 0
    start := numField 7 fs 2 0
    duration := numField 7 fs 3 60
    venue := optField 7 fs 4 none
    category := numField 7 fs 5 0
    deck := numField 7 fs 6 0
    title := numField 7 fs 7 0
    status := if numField 7 fs 8 0 = 3 then .cancelled else .scheduled }

/-- R68: an entry updated by a WRITE, before R69. A supplied SCHEDULED changes no status. -/
def ProgEntry.written (e : ProgEntry) (fs : FieldList) : ProgEntry :=
  { e with
    day := numField 7 fs 1 e.day
    start := numField 7 fs 2 e.start
    duration := numField 7 fs 3 e.duration
    venue := optField 7 fs 4 e.venue
    category := numField 7 fs 5 e.category
    deck := numField 7 fs 6 e.deck
    title := numField 7 fs 7 e.title
    status := if numField 7 fs 8 0 = 3 then .cancelled else e.status }

/-- R68: the written status is refused with CLOSED. -/
def statusClosed (e : ProgEntry) (fs : FieldList) : Bool :=
  supplies fs 8 &&
    (match e.status with
      | .ended => true
      | .cancelled => numField 7 fs 8 0 == 0
      | .scheduled => false
      | .running => false)

/-- R77: a taken WRITE that moves an entry from SCHEDULED or RUNNING to CANCELLED. -/
def isCancellation (before after : ProgEntry) : Bool :=
  after.status == .cancelled && (before.status == .scheduled || before.status == .running)

/-- R67: a WRITE that creates an entry. -/
def State.createEntry (s : State) (id : Nat) (fs : FieldList) : State :=
  let e := s.byClockNow (ProgEntry.created id fs)
  ({ s with programme := insertEntry e s.programme } : State).markEntryChange none (some e) false

/-- R68, R69, R77: a WRITE that updates an entry. -/
def State.updateEntry (s : State) (e : ProgEntry) (fs : FieldList) : State :=
  let e' := s.byClockNow (e.written fs)
  if e' = e then s
  else ({ s with programme := replaceEntry e' s.programme } : State).markEntryChange (some e) (some e')
    (isCancellation e e')

/-- R66: a WRITE to PROGRAMME. -/
def State.writeProgramme (s : State) (id : Nat) (fs : FieldList) : WriteResult :=
  if unknownField 7 fs || numberBreaks fs 8 (fun v => v == 0 || v == 3) then .error .badField
  else
    match findEntry id s.programme with
    | none =>
      if Config.programmeCapacity ≤ s.programme.length then .error .full
      else .ok (s.createEntry id fs, numbersAdjusted 7 fs)
    | some e =>
      if statusClosed e fs then .error .closed else .ok (s.updateEntry e fs, numbersAdjusted 7 fs)

/-! ### CABINS (R81, R82) -/

/-- R80: the defaults at creation; the required fields are supplied. -/
def Cabin.created : Cabin :=
  { number := 1, display := 0, station := none, group := none, occupied := false, language := none, greeting := none,
    dnd := false, mur := false, assist := false, swept := false }

/-- R82: a cabin after a WRITE, step 1 with it: DND and MUR go when the occupancy goes. -/
def Cabin.written (c : Cabin) (fs : FieldList) : Cabin :=
  let occupied := numField 8 fs 5 (if c.occupied then 1 else 0) == 1
  let leaves := c.occupied && !occupied
  { c with
    number := numField 8 fs 1 c.number
    display := numField 8 fs 2 c.display
    station := optField 8 fs 3 c.station
    group := optField 8 fs 4 c.group
    occupied := occupied
    language := optField 8 fs 6 c.language
    greeting := optField 8 fs 7 c.greeting
    dnd := c.dnd && !leaves
    mur := c.mur && !leaves }

/-- R81, step 3: a present display of class CABIN. -/
def State.cabinDisplay (s : State) (d : Nat) : Bool :=
  match s.display d with
  | some x => x.cfg.cls == .cabin
  | none => false

/-- R81, step 5: another present cabin has the number or the display. -/
def State.cabinTaken (s : State) (i : Nat) (c : Cabin) : Bool :=
  s.cabins.any fun e => e.1 != i && (e.2.number == c.number || e.2.display == c.display)

/-- R82: the write created the cabin, or changed its muster station or its display. -/
def cabinMoved (old : Option Cabin) (c : Cabin) : Bool :=
  match old with
  | some o => o.station != c.station || o.display != c.display
  | none => true

/-- R82: a display is the cabin's, or the one it named before. -/
def cabinNames (old : Option Cabin) (c : Cabin) (d : Nat) : Bool := d == c.display || old.any fun o => o.display == d

/-- R82, step 2: held value 8 cleared at the displays concerned. -/
def State.cabinHeld (s : State) (old : Option Cabin) (c : Cabin) : State :=
  if cabinMoved old c then
    s.clearHeldMany ((s.displays.filter fun e => cabinNames old c e.1).map (·.1)) stationPosition
  else s

/-- R82, step 3: the displays concerned marked, where the write changed something. -/
def State.cabinMarks (s : State) (old : Option Cabin) (c : Cabin) : State :=
  if old = some c then s else s.markWhere (fun d _ => cabinNames old c d) s.writeUrgency

/-- R82, step 4: the muster station before the write recounted, then the one after it, once where they are the same. -/
def State.cabinRecounts (s : State) (old : Option Cabin) (c : Cabin) : State :=
  match old with
  | some o =>
    if o.station = c.station then s.recountStation c.station else (s.recountStation o.station).recountStation c.station
  | none => s.recountStation c.station

/-- R82, steps 2 to 4: the effects of a taken WRITE that leaves the cabin as `c`, having been `old`. -/
def State.cabinChanged (s : State) (old : Option Cabin) (c : Cabin) : State :=
  let t := (s.cabinHeld old c).cabinMarks old c
  if cabinMoved old c then t.cabinRecounts old c else t

/-- R81, R82: a WRITE to CABINS. -/
def State.writeCabin (s : State) (i : Nat) (fs : FieldList) : WriteResult :=
  let old := Tab.fetch s.cabins i
  let c := (old.getD Cabin.created).written fs
  if unknownField 8 fs || numberBreaks fs 1 (fun v => decide (1 ≤ v) && decide (v ≤ 65535)) ||
      numberBreaks fs 5 (fun v => decide (v ≤ 1)) || numberBreaks fs 4 (fun v => decide (65 ≤ v) && decide (v ≤ 90)) then
    .error .badField
  else if numberBreaks fs 2 (fun v => decide (v ≤ 511) && s.cabinDisplay v) then .error .badRef
  else if s.cabinTaken i c then .error .conflict
  else .ok ((s.setCabin i c).cabinChanged old c, numbersAdjusted 8 fs)

/-! ### NOTICES (R97) -/

/-- R97: the priority a request supplies, clamped, by CONTENT to 11 at most. -/
def noticePriority (origin : Nat) (fs : FieldList) (old : Nat) : Nat :=
  if supplies fs 1 ∧ origin = originContent then min 11 (numField 9 fs 1 old) else numField 9 fs 1 old

/-- R97: some value of a WRITE to NOTICES was adjusted. -/
def noticeAdjusted (origin : Nat) (fs : FieldList) : Bool :=
  numbersAdjusted 9 fs || (supplies fs 1 && origin == originContent && decide (11 < numField 9 fs 1 0))

/-- R96: the defaults at creation; the required fields are supplied. -/
def Notice.created : Notice :=
  { priority := 1, classMask := 0x3F#6, deckMask := 0xFFFF#16, text := 0, start := none, stop := none, current := false }

/-- R97: a notice after a WRITE, its current flag set by R98 at a time of the ship clock. -/
def Notice.written (n : Notice) (origin : Nat) (fs : FieldList) (now : Option Nat) : Notice :=
  let m := { n with
    priority := noticePriority origin fs n.priority
    classMask := BitVec.ofNat 6 (numField 9 fs 2 n.classMask.toNat)
    deckMask := BitVec.ofNat 16 (numField 9 fs 3 n.deckMask.toNat)
    text := numField 9 fs 4 n.text
    start := optField 9 fs 5 n.start
    stop := optField 9 fs 6 n.stop }
  { m with current := m.isCurrent now }

/-- R97, step 3: both bounds are present and the end is not greater than the start. -/
def Notice.boundsBad (n : Notice) : Bool :=
  match n.start, n.stop with
  | some a, some b => decide (b ≤ a)
  | _, _ => false

/-- R97, R102: a WRITE to NOTICES. -/
def State.writeNotice (s : State) (origin i : Nat) (fs : FieldList) : WriteResult :=
  let old := Tab.fetch s.notices i
  let n := (old.getD Notice.created).written origin fs s.nowMinute
  if unknownField 9 fs then .error .badField
  else if n.boundsBad then .error .badField
  else
    let t : State := { s with notices := Tab.store s.notices i n }
    .ok (if old = some n then t else t.markNoticeChange old (some n), noticeAdjusted origin fs)

/-! ### TEXTS, TEMPLATES and SELECTION (R107, R111, R113, R123, R124) -/

/-- R124: the urgency of a change of the text store. -/
def State.textUrgency (s : State) (origin : Nat) : Urgency :=
  if origin = originBridge ∧ s.ship.phase.emergency then .safety else .routine

/-- R113, R124: a WRITE to TEXTS. -/
def State.writeText (s : State) (origin i : Nat) (fs : FieldList) : WriteResult :=
  if unknownField 10 fs then .error .badField
  else
    .ok (({ s with texts := Tab.put s.texts i ((stringField fs 1 []).take 40) [] } : State).markAll (s.textUrgency origin),
      decide (40 < (stringField fs 1 []).length))

/-- R123: mark the displays whose template in use, before or after a change of the template store, is one of those changed. -/
def State.markTemplates (before after : State) (hit : Nat → Bool) : State :=
  after.markWhere (fun _ x => hit (before.displayTemplate x.cfg) || hit (after.displayTemplate x.cfg)) after.writeUrgency

/-- R107, steps 1 to 3: the slots a WRITE supplies, read and clamped; none supplied gives none. -/
def readSlotField (fs : FieldList) : Except ResultCode (Option (List RawSlot × List Slot)) :=
  match supplied fs 2 with
  | some (.slots xs) =>
    if xs.length = 0 ∨ 12 < xs.length then .error .badField
    else
      match xs.mapM RawSlot.read with
      | some ys => .ok (some (xs, ys))
      | none => .error .badField
  | _ => .ok none

/-- R107, step 3: some slot's size or argument was clamped. -/
def slotsClamped (xs : List RawSlot) (ys : List Slot) : Bool :=
  (xs.zip ys).any fun p => p.1.size != p.2.size || p.1.argument != p.2.argument

/-- R107: the grid class after a WRITE. -/
def templateGrid (old : Template) (fs : FieldList) : Grid := (Grid.ofCode (numField 11 fs 1 old.grid.code)).getD old.grid

/-- The slots a template had. -/
def oldSlots (old : Option Template) : List Slot :=
  match old with
  | some t => t.slots
  | none => []

/-- R107: a WRITE to TEMPLATES; a supplied list replaces the whole list, and every box is clipped to the grid after it. -/
def State.writeTemplate (s : State) (i : Nat) (fs : FieldList) : WriteResult :=
  if unknownField 11 fs || numberBreaks fs 1 (fun v => decide (v ≤ 1)) then .error .badField
  else
    match readSlotField fs with
    | .error r => .error r
    | .ok supplied =>
      let old := Tab.fetch s.templates i
      let g := templateGrid (old.getD { grid := .large, slots := [], timeDependent := false }) fs
      let before := match supplied with
        | some p => p.2
        | none => oldSlots old
      let after := before.map fun x => x.clip g
      let clamped := match supplied with
        | some p => slotsClamped p.1 p.2
        | none => false
      .ok (s.markTemplates { s with templates := Tab.store s.templates i (mkTemplate g after) } fun n => n == i,
        clamped || before != after)

/-- R123: mark the displays of a selection entry's class and mode. -/
def State.markSelection (s : State) (i : Nat) : State :=
  s.markWhere (fun _ x => selectionIndex x.cfg.cls (s.screenMode x.cfg) == i) s.writeUrgency

/-- A selection entry given a template number or none. -/
def State.setSelection (s : State) (i : Nat) (n : Option Nat) : State :=
  { s with selection := match n with
      | some t => Tab.store s.selection i t
      | none => Tab.discard s.selection i }

/-- R111: a WRITE to SELECTION. -/
def State.writeSelection (s : State) (i : Nat) (fs : FieldList) : WriteResult :=
  if unknownField 12 fs then .error .badField
  else .ok ((s.setSelection i (optField 12 fs 1 none)).markSelection i, numbersAdjusted 12 fs)

/-! ### REGIONS (R171, R172) -/

/-- R172: a region after a WRITE. -/
def Region.written (r : Region) (fs : FieldList) : Region :=
  { table := optField 13 fs 1 r.table
    first := numField 13 fs 2 r.first
    last := numField 13 fs 3 r.last
    readContent := flagField fs 4 r.readContent
    readMaintenance := flagField fs 5 r.readMaintenance
    readBridge := flagField fs 6 r.readBridge
    writeContent := flagField fs 7 r.writeContent
    writeMaintenance := flagField fs 8 r.writeMaintenance
    writeBridge := flagField fs 9 r.writeBridge
    lock := flagField fs 10 r.lock }

/-- The region of an index. -/
def State.region (s : State) (i : Nat) : Region := s.regions[Fin.ofNat 8 i]

/-- The state with a region replaced. -/
def State.setRegion (s : State) (i : Nat) (r : Region) : State :=
  { s with regions := s.regions.set (Fin.ofNat 8 i) r }

/-- R172: a WRITE to REGIONS. -/
def State.writeRegion (s : State) (i : Nat) (fs : FieldList) : WriteResult :=
  let r := (s.region i).written fs
  if unknownField 13 fs || numberBreaks fs 1 (fun v => decide (v ≤ 15)) then .error .badField
  else if r.last < r.first then .error .badField
  else .ok (s.setRegion i r, numbersAdjusted 13 fs)

/-! ### The WRITE of any table -/

/-- R165: an empty field list to an entry that exists is taken, changes no field and marks nothing. It is a taken WRITE, so it
invalidates as R37, R39 and R54 say of every taken WRITE (log entry 13); check 7 of STRINGS still stands. -/
def State.writeEmpty (s : State) (t i : Nat) : WriteResult :=
  match t with
  | 2 => if (s.str (stringNo i)).state = .held then .ok (s, false) else .error .busy
  | 3 => .ok (s.invalidateAll, false)
  | 4 => .ok (s.invalidateAll, false)
  | 5 => .ok ({ s with dests := Tab.change s.dests i Dest.invalidated }, false)
  | _ => .ok (s, false)

/-- Checks 6 and 7 of a WRITE and its effect, by its table (R168). CLOSURES and ROUTES are refused before this (R170). -/
def State.writeTable (s : State) (origin t i : Nat) (fs : FieldList) : WriteResult :=
  if fs.isEmpty && s.entryExists t i then s.writeEmpty t i
  else
    match t with
    | 0 => s.writeNode fs
    | 1 => s.writeDisplay i fs
    | 2 => s.writeString i fs
    | 3 => s.writeNodes i fs
    | 4 => s.writeSegment i fs
    | 5 => s.writeDest i fs
    | 6 => s.writeList i fs
    | 7 => s.writeProgramme i fs
    | 8 => s.writeCabin i fs
    | 9 => s.writeNotice origin i fs
    | 10 => s.writeText origin i fs
    | 11 => s.writeTemplate i fs
    | 12 => s.writeSelection i fs
    | 13 => s.writeRegion i fs
    | _ => .error .denied

end Sys2Proof.Machine
end

