-- ==== Sys2Proof/Machine/Clears.lean ====
section
/-! DEFINITION. CLEAR and CLEAR_TABLE (R164, R166), table by table. A CLEAR_TABLE acts on each index as a CLEAR of that index, in
increasing index order. Where every index's CLEAR leaves the same (the walking graph invalidates every destination, TEXTS marks
every display) one clear takes the indices as a condition. -/

namespace Sys2Proof.Machine

/-- The listed entries of a table whose index meets a condition. -/
def Tab.hits {α : Type} (t : Tab α) (hit : Nat → Bool) : Tab α := t.filter fun e => hit e.1

/-- A table without the entries whose index meets a condition. -/
def Tab.without {α : Type} (t : Tab α) (hit : Nat → Bool) : Tab α := t.filter fun e => !hit e.1

/-! ### DISPLAYS and STRINGS (R29, R127) -/

/-- R29, R30: a display that is not OPEN removed; PLACEMENT follows. -/
def State.removeDisplay (s : State) (d : Nat) : State :=
  let t := s.leaveQueue d
  ({ t with displays := Tab.discard t.displays d } : State).placement d true

/-- R29: CLEAR and CLEAR_TABLE of DISPLAYS: refused whole while a display reached is OPEN. -/
def State.clearDisplays (s : State) (hit : Nat → Bool) : Except ResultCode State :=
  let es := Tab.hits s.displays hit
  if es.any fun e => e.2.rt.state == .opened then .error .busy
  else .ok ((es.map (·.1)).foldl State.removeDisplay s)

/-- R127: a string's three fields back to their defaults. -/
def StringCtl.defaults (c : StringCtl) : StringCtl :=
  { c with enabled := StringCtl.reset.enabled, timeout := StringCtl.reset.timeout, pollPeriod := StringCtl.reset.pollPeriod }

/-- R127: CLEAR of one STRINGS entry. -/
def State.clearString (s : State) (i : Nat) : Except ResultCode State :=
  if (s.str (stringNo i)).state ≠ .held then .error .busy
  else .ok (s.setStr (stringNo i) (s.str (stringNo i)).defaults)

/-- R127: CLEAR_TABLE of STRINGS: refused whole unless all eight strings are HELD. -/
def State.clearStrings (s : State) : Except ResultCode State :=
  if s.strings.toList.all fun c => c.state == .held then .ok { s with strings := s.strings.map StringCtl.defaults }
  else .error .busy

/-! ### The route tables (R37, R39, R41, R54, R57) -/

/-- R37: present nodes removed; every destination invalidated if there was one. -/
def State.clearNodes (s : State) (hit : Nat → Bool) : State :=
  if (Tab.hits s.nodes hit).isEmpty then s
  else ({ s with nodes := Tab.without s.nodes hit } : State).invalidateAll

/-- R39: present segments removed; every destination invalidated if there was one. -/
def State.clearSegments (s : State) (hit : Nat → Bool) : State :=
  if (Tab.hits s.segments hit).isEmpty then s
  else ({ s with segments := Tab.without s.segments hit } : State).invalidateAll

/-- R57: a route position of a display refers to a destination that meets a condition. -/
def State.refersTo (s : State) (hit : Nat → Bool) (d : Nat) (x : Display) (p : Nat) : Bool :=
  match s.positionDest d x p with
  | some n => hit n
  | none => false

/-- R55: a display shows a destination that meets a condition: in its list, as its cabin's muster station, or as the venue of
an item of its board. -/
def State.showsDest (s : State) (hit : Nat → Bool) (d : Nat) (x : Display) : Bool :=
  routePositions.any (s.refersTo hit d x) || (s.itemList x.cfg).any fun e => e.venue.any hit

/-- R57: the held values that referred to destinations cleared, at the positions that hold them. -/
def State.clearHeldOf (s : State) (hit : Nat → Bool) : State :=
  { s with
    displays := Tab.mapWith s.displays fun d x =>
      { x with rt := { x.rt with held := x.rt.held.filter fun h => !s.refersTo hit d x h.1 } } }

/-- R94: the REMOVED notification of a MUSTER_STATION destination. -/
def State.destRemoved (s : State) (d : Nat) (t : Dest) : State :=
  if t.kind = .musterStation then s.reportLoss d 0 else s

/-- R54, R57: a present destination removed: its held values cleared, its displays marked, then REMOVED for a muster station. -/
def State.clearDest (s : State) (d : Nat) : State :=
  match Tab.fetch s.dests d with
  | none => s
  | some e =>
    let this := fun n => n == d
    let t := s.clearHeldOf this
    (({ t with dests := Tab.discard t.dests d } : State).markWhere (t.showsDest this) t.writeUrgency).destRemoved d e

/-- R41: a destination list emptied. -/
def State.clearList (s : State) (i : Nat) : State :=
  ({ s with lists := Tab.discard s.lists i } : State).relist fun l => l == i

/-! ### PROGRAMME, CABINS and NOTICES (R70, R83, R102) -/

/-- R70, R77: a present entry removed; the boards it was on are marked, as for a removal. -/
def State.clearProgramme (s : State) (id : Nat) : State :=
  match findEntry id s.programme with
  | none => s
  | some e => ({ s with programme := removeEntry id s.programme } : State).markEntryChange (some e) none false

/-- A number put in its place in a rising list. -/
def insertId (i : Nat) : List Nat → List Nat
  | [] => [i]
  | j :: is => if i ≤ j then i :: j :: is else j :: insertId i is

/-- R166: the present entry ids in increasing order. -/
def idsInOrder (t : List ProgEntry) : List Nat := t.foldr (fun e is => insertId e.id is) []

/-- R83: a present cabin removed with its flags; held value 8 of its display cleared and the display marked. -/
def State.removeCabin (s : State) (i : Nat) : State :=
  match Tab.fetch s.cabins i with
  | none => s
  | some c =>
    (({ s with cabins := Tab.discard s.cabins i } : State).clearHeld c.display stationPosition).mark c.display s.writeUrgency

/-- R83: CLEAR of a cabin, with the recount of its muster station. -/
def State.clearCabin (s : State) (i : Nat) : State :=
  match Tab.fetch s.cabins i with
  | none => s
  | some c => (s.removeCabin i).recountStation c.station

/-- R83: CLEAR_TABLE of CABINS: every present cabin removed, then one recount for each muster station that a removed cabin named,
in increasing order of its number (log entry 26). -/
def State.clearCabins (s : State) : State :=
  ((List.range Config.destinationCount).filter fun d => s.cabins.any fun e => e.2.station == some d).foldl State.recount
    ((Tab.indices s.cabins).foldl State.removeCabin s)

/-- R102: a notice removed by CLEAR or CLEAR_TABLE. -/
def State.clearNotice (s : State) (i : Nat) : State :=
  match Tab.fetch s.notices i with
  | none => s
  | some n => ({ s with notices := Tab.discard s.notices i } : State).markNoticeChange (some n) none

/-! ### TEXTS, TEMPLATES, SELECTION and REGIONS (R108, R111, R113, R172) -/

/-- R113, R124: text variants emptied. -/
def State.clearTexts (s : State) (origin : Nat) (hit : Nat → Bool) : State :=
  ({ s with texts := Tab.without s.texts hit } : State).markAll (s.textUrgency origin)

/-- R108, R123: a present writable template removed. -/
def State.clearTemplate (s : State) (i : Nat) : State :=
  match Tab.fetch s.templates i with
  | none => s
  | some _ => s.markTemplates { s with templates := Tab.discard s.templates i } fun n => n == i

/-- R111, R123: one selection entry set to none. -/
def State.clearSelection (s : State) (i : Nat) : State := (s.setSelection i none).markSelection i

/-- R123, R166: every selection entry set to none, one index after another, so that a display is marked at the entry of its class
and screen mode. -/
def State.clearSelections (s : State) : State := (List.range Config.selectionCount).foldl State.clearSelection s

/-! ### The CLEAR and CLEAR_TABLE of any table -/

/-- Check 7 of a CLEAR and its effect, by its table (R168). -/
def State.clearEntry (s : State) (origin t i : Nat) : Except ResultCode State :=
  let this := fun n => n == i
  match t with
  | 0 => .ok (s.setNode NodeParams.reset)
  | 1 => s.clearDisplays this
  | 2 => s.clearString i
  | 3 => .ok (s.clearNodes this)
  | 4 => .ok (s.clearSegments this)
  | 5 => .ok (s.clearDest i)
  | 6 => .ok (s.clearList i)
  | 7 => .ok (s.clearProgramme i)
  | 8 => .ok (s.clearCabin i)
  | 9 => .ok (s.clearNotice i)
  | 10 => .ok (s.clearTexts origin this)
  | 11 => .ok (s.clearTemplate i)
  | 12 => .ok (s.clearSelection i)
  | 13 => .ok (s.setRegion i Region.reset)
  | _ => .error .denied

/-- Check 7 of a CLEAR_TABLE and its effect, by its table (R166, R168). -/
def State.clearAll (s : State) (origin t : Nat) : Except ResultCode State :=
  let every := fun _ => true
  match t with
  | 0 => .ok (s.setNode NodeParams.reset)
  | 1 => s.clearDisplays every
  | 2 => s.clearStrings
  | 3 => .ok (s.clearNodes every)
  | 4 => .ok (s.clearSegments every)
  | 5 => .ok ((Tab.indices s.dests).foldl State.clearDest s)
  | 6 => .ok ((List.range Config.listCount).foldl State.clearList s)
  | 7 => .ok ((idsInOrder s.programme).foldl State.clearProgramme s)
  | 8 => .ok s.clearCabins
  | 9 => .ok ((Tab.indices s.notices).foldl State.clearNotice s)
  | 10 => .ok (s.clearTexts origin every)
  | 11 => .ok ((Tab.indices s.templates).foldl State.clearTemplate s)
  | 12 => .ok s.clearSelections
  | 13 => .ok { s with regions := Vector.replicate 8 Region.reset }
  | _ => .error .denied

end Sys2Proof.Machine
end

