-- ==== Sys2Proof/Machine/Reads.lean ====
section
/-! DEFINITION. READ and the queries (R166, R176 to R178): the pairs each returns, by the tables of R180. R180 has the runtime parts
of a READ follow the configuration fields and gives the pairs no other order (a field list of R165 is in any order): that the
configuration fields, the runtime parts and the parts of a query each stand in increasing field number is the model's choice (log
entry 35). -/

namespace Sys2Proof.Machine

/-- R180: a part that can be absent or none. -/
def optValue (n : Option Nat) : FieldValue :=
  match n with
  | some v => .number v
  | none => .absent

/-- R180: a truth value as a number in a LIST. -/
def bit (b : Bool) : Nat := if b then 1 else 0

/-! ### READ -/

/-- R167: the fields of NODE, in increasing number: the order is the model's choice (log entry 35), here and in every function of
pairs below. -/
def NodeParams.pairs (n : NodeParams) : FieldList :=
  [(1, .number n.holdTime), (2, .number n.silenceTime), (3, .number n.quietStart), (4, .number n.quietEnd),
   (5, .number n.walkRate), (6, .number n.wCorridor), (7, .number n.wStairUp), (8, .number n.wStairDown),
   (9, .number n.wLift), (10, .number n.wOpenDeck), (11, .number n.retention), (12, .number n.minRefresh[0]),
   (13, .number n.minRefresh[1]), (14, .number n.minRefresh[2]), (15, .number n.minRefresh[3]),
   (16, .number n.minRefresh[4]), (17, .number n.minRefresh[5]), (18, .number n.quietMask.toNat),
   (19, optValue n.zoneGroup), (20, .number n.reportDest), (21, .number (Port.code n.reportPort)), (22, .number n.txHop)]

/-- R22: the fields of a display. -/
def DisplayConfig.pairs (c : DisplayConfig) : FieldList :=
  [(1, .number c.string.val), (2, .number c.position), (3, .number c.cls.code), (4, .number c.deck), (5, .number c.node),
   (6, .number c.facing), (7, .number c.language), (8, optValue c.list), (9, .number c.categoryMask.toNat),
   (10, .number c.deckMask.toNat), (11, .number c.horizon), (12, .number c.dayStep), (13, .number c.nightStep)]

/-- R127: the fields of a string, its state and its queue lengths. -/
def StringCtl.pairs (c : StringCtl) : FieldList :=
  [(1, .flag c.enabled), (2, .number c.timeout), (3, .number c.pollPeriod), (32, .number c.state.code),
   (33, .number c.safety.length), (34, .number c.service.length), (35, .number c.routine.length)]

/-- R38: the fields of a segment. -/
def Segment.pairs (g : Segment) : FieldList :=
  [(1, .number g.a), (2, .number g.b), (3, .number g.kind.code), (4, .number g.length), (5, .number g.heading),
   (6, .number (bit g.oneWay)), (7, optValue g.closure), (8, .flag g.musterOnly), (9, .flag g.enabled)]

/-- R40: the fields, status and sweep count of a destination. -/
def Dest.pairs (d : Dest) : FieldList :=
  [(1, optValue d.name), (2, .number d.kind.code), (3, .list d.targets), (32, .number d.status.code), (33, .number d.sweeps)]

/-- R71: the fields of a programme entry, its absolute start and end, and the next id. -/
def ProgEntry.pairs (e : ProgEntry) (next : Option Nat) : FieldList :=
  [(1, .number e.day), (2, .number e.start), (3, .number e.duration), (4, optValue e.venue), (5, .number e.category),
   (6, .number e.deck), (7, .number e.title), (8, .number e.status.code), (32, .number e.absStart), (33, .number e.stop),
   (34, optValue next)]

/-- R83: the fields and flags of a cabin, and whether it is linked. -/
def Cabin.pairs (c : Cabin) (linked : Bool) : FieldList :=
  [(1, .number c.number), (2, .number c.display), (3, optValue c.station), (4, optValue c.group),
   (5, .number (bit c.occupied)), (6, optValue c.language), (7, optValue c.greeting), (32, .flag c.dnd), (33, .flag c.mur),
   (34, .flag c.assist), (35, .flag c.swept), (36, .flag linked)]

/-- R96: the fields of a notice and its current flag. -/
def Notice.pairs (n : Notice) : FieldList :=
  [(1, .number n.priority), (2, .number n.classMask.toNat), (3, .number n.deckMask.toNat), (4, .number n.text),
   (5, optValue n.start), (6, optValue n.stop), (32, .flag n.current)]

/-- R108: a template's grid, slots, whether it is fixed, and its time-dependent flag. -/
def Template.pairs (t : Template) (fixed : Bool) : FieldList :=
  [(1, .number t.grid.code), (2, .slots (t.slots.map Slot.raw)), (32, .flag fixed), (33, .flag t.timeDependent)]

/-- R171: the fields of a region. -/
def Region.pairs (r : Region) : FieldList :=
  [(1, optValue r.table), (2, .number r.first), (3, .number r.last), (4, .flag r.readContent), (5, .flag r.readMaintenance),
   (6, .flag r.readBridge), (7, .flag r.writeContent), (8, .flag r.writeMaintenance), (9, .flag r.writeBridge),
   (10, .flag r.lock)]

/-- R111: the template in use for a selection entry's class and mode. -/
def State.selectionInUse (s : State) (i : Nat) : Nat :=
  match DisplayClass.ofCode (i / 6) with
  | some c => s.templateInUse c (ScreenMode.ofCode (i % 6))
  | none => 0

/-- R43, R180: a cell of the route field, as a ROUTES READ gives it. -/
def Cell.pairs (c : Cell) : FieldList :=
  [(33, optValue c.effort), (34, if c.effort.isSome then .number c.length else .absent), (35, optValue (c.hop.map Hop.code))]

/-- R43: the pairs of a ROUTES index, destination × 256 + node. -/
def State.routePairs (s : State) (i : Nat) : FieldList :=
  match Tab.fetch s.dests (i / 256) with
  | some d => (32, .number d.status.code) :: if d.status = .settled then (cellAt d.cells (i % 256)).pairs else []
  | none => [(32, .number destAbsentCode)]

/-- R71, R180: the pairs of an absent programme id. -/
def State.absentProgramme (s : State) (id : Nat) : FieldList :=
  [(34, if id = 0 then optValue (s.programme.head?.map (·.id)) else .absent)]

/-- A present entry's pairs, or an absent one's presence and none. -/
def present {α : Type} (e : Option α) (f : α → FieldList) : Bool × FieldList :=
  match e with
  | some x => (true, f x)
  | none => (false, [])

/-- R166: what a READ of an entry returns: whether it is present, and its pairs. -/
def State.readEntry (s : State) (t i : Nat) : Bool × FieldList :=
  match t with
  | 0 => (true, s.node.pairs)
  | 1 => present (s.display i) fun x => x.cfg.pairs
  | 2 => (true, (s.str (stringNo i)).pairs)
  | 3 => present (Tab.fetch s.nodes i) fun deck => [(1, .number deck)]
  | 4 => present (Tab.fetch s.segments i) Segment.pairs
  | 5 => present (Tab.fetch s.dests i) Dest.pairs
  | 6 => (true, [(1, .list (s.listItems i))])
  | 7 =>
    match findEntry i s.programme with
    | some e => (true, e.pairs (nextId i s.programme))
    | none => (false, s.absentProgramme i)
  | 8 => present (Tab.fetch s.cabins i) fun c => c.pairs (s.linked c)
  | 9 => present (Tab.fetch s.notices i) Notice.pairs
  | 10 => (true, [(1, .string (Tab.fetchD s.texts i []))])
  | 11 => present (s.template i) fun x => x.pairs (decide (i < Config.fixedTemplateCount))
  | 12 => (true, [(1, optValue (Tab.fetch s.selection i)), (32, .number (s.selectionInUse i))])
  | 13 => (true, (s.region i).pairs)
  | 14 => (true, [(32, .number (s.closure i).code)])
  | 15 => (true, s.routePairs i)
  | _ => (false, [])

/-! ### Queries (R176 to R178) -/

/-- R176: a destination's status code, ABSENT included. -/
def State.destStatusCode (s : State) (d : Nat) : Nat :=
  match Tab.fetch s.dests d with
  | some t => t.status.code
  | none => destAbsentCode

/-- R176: STATUS, its parts in increasing number (log entry 35). -/
def State.statusPairs (s : State) : FieldList :=
  let c := s.strings.toList
  [(1, .number s.ship.phase.code), (2, .flag s.ship.drill), (3, .number (bit s.ship.line)), (4, .flag s.ship.linkLost),
   (5, .flag s.ship.quiet), (6, .number s.stamp.day), (7, .number s.stamp.minute), (8, .number s.stamp.second),
   (9, .number (bit !s.ship.valid)), (10, .number (bit s.fore.up)), (11, .number (bit s.aft.up)),
   (12, .list ((List.range Config.destinationCount).map s.destStatusCode)), (13, .list (c.map fun x => bit x.enabled)),
   (14, .list (c.map fun x => x.state.code)), (15, .list (c.map fun x => x.safety.length)),
   (16, .list (c.map fun x => x.service.length)), (17, .list (c.map fun x => x.routine.length)),
   (18, .number s.reports.length), (19, .number s.replies.length)]

/-- R180: a held route value as a LIST of four numbers, 65535 for a blank. -/
def RouteValue.listed (v : RouteValue) : FieldValue :=
  match v.minutes with
  | some (m, ovr) => .list [v.glyph.code, v.distance.getD 65535, m, bit ovr]
  | none => .list [v.glyph.code, v.distance.getD 65535, 65535, 0]

/-- R177: a held route value, or NONE. -/
def heldValue (held : Tab RouteValue) (p : Nat) : FieldValue :=
  match Tab.fetch held p with
  | some v => v.listed
  | none => .absent

/-- R177: milliseconds elapsed since a time, capped, or NONE. -/
def elapsed (now : Nat) (t : Option Nat) : FieldValue :=
  match t with
  | some x => .number (min Config.elapsedCapMs (now - x))
  | none => .absent

/-- R177: the queue urgency of a display. -/
def UpdateState.urgency : UpdateState → Option Urgency
  | .clean => none
  | .queued u => some u
  | .opened => none
  | .faulted => none

/-- R177: a QUEUED display's place in its queue, from 1 at the head. -/
def State.queuePlace (s : State) (d : Nat) (x : Display) : Option Nat :=
  match x.rt.state.urgency with
  | some u => (((s.str x.cfg.string).queue u).findIdx? fun e => e.display == d).map (· + 1)
  | none => none

/-- R177: DISPLAY_STATUS of a present display, its parts in increasing number (log entry 35). -/
def State.displayStatusPairs (s : State) (d : Nat) (x : Display) : FieldList :=
  x.cfg.pairs ++
  [(14, .number x.rt.state.code), (15, optValue (x.rt.state.urgency.map Urgency.code)), (16, optValue (s.queuePlace d x)),
   (17, .flag x.rt.stale.isSome), (18, optValue (x.rt.stale.map Urgency.code)), (19, optValue (x.rt.digest.map (·.toNat))),
   (20, .number x.rt.failures), (21, optValue (x.rt.fault.map FaultCause.code)), (22, .flag x.inRing)] ++
  routePositions.map (fun p => (23 + p, heldValue x.rt.held p)) ++
  [(32, elapsed s.now x.rt.lastCommit), (33, elapsed s.now x.rt.lastFail), (34, elapsed s.now x.rt.lastPoll),
   (35, .number (x.rt.busyUntil - s.now))]

/-- R178: IDENTIFY, its parts in increasing number (log entry 35). -/
def State.identifyPairs (s : State) : FieldList :=
  [(1, .number Config.vendorCode), (2, .number Config.partCode), (3, .number Config.revision), (4, optValue s.address),
   (5, optValue s.node.zoneGroup)]

/-- R180: what follows the result and kind of a reply with data: a presence byte, a pair count and the pairs. -/
def dataBytes (e : Bool × FieldList) : List Byte :=
  byteOf (bit !e.1) :: byteOf e.2.length :: e.2.flatMap pairBytes

end Sys2Proof.Machine
end

