-- ==== Sys2Proof/Machine/Responder.lean ====
section
/-! DEFINITION. The Management Responder: the checks in the order of R168, the carrying out of each request kind (R163) and
warm restart (R175). -/

namespace Sys2Proof.Machine

/-- What the Responder makes of a request: the state it leaves, the result code and the data after it (empty for none). -/
structure Answer where
  state : State
  code : ResultCode
  data : List Byte
  deriving DecidableEq, Repr

/-- A refusal changes nothing (R163). -/
def State.refuse (s : State) (r : ResultCode) : Answer := { state := s, code := r, data := [] }

/-- A request carried out as given. -/
def State.done (s : State) : Answer := { state := s, code := .done, data := [] }

/-- A request answered DONE with data (R180). -/
def State.doneWith (s : State) (e : Bool × FieldList) : Answer := { state := s, code := .done, data := dataBytes e }

/-- R168: the first check that does not hold gives its result code. -/
def firstRefusal : List (Bool × ResultCode) → Option ResultCode
  | [] => none
  | (ok, r) :: cs => if ok then firstRefusal cs else some r

/-- A request refused by the first check that fails, or carried out (R168). -/
def State.checked (s : State) (cs : List (Bool × ResultCode)) (run : Answer) : Answer :=
  match firstRefusal cs with
  | some r => s.refuse r
  | none => run

/-- What a WRITE's table makes of it: a refusal, DONE, or ADJUSTED (R168). -/
def State.ofWrite (s : State) (w : WriteResult) : Answer :=
  match w with
  | .error r => s.refuse r
  | .ok (t, adjusted) => { state := t, code := if adjusted then .adjusted else .done, data := [] }

/-- What a CLEAR's table makes of it. -/
def State.ofClear (s : State) (w : Except ResultCode State) : Answer :=
  match w with
  | .error r => s.refuse r
  | .ok t => t.done

/-- R165, R168: WRITE. -/
def State.answerWrite (s : State) (origin t i : Nat) (fs : FieldList) : Answer :=
  s.checked
    [(s.writeFormOk t i fs, .malformed), (tableOk t, .noTable), (indexOk t i false, .badIndex),
     (s.mayWrite origin t i, .denied), (s.phasePassesWrite origin t fs, .phase)]
    (s.ofWrite (s.writeTable origin t i fs))

/-- R166, R168: READ. -/
def State.answerRead (s : State) (origin t i : Nat) : Answer :=
  s.checked [(tableOk t, .noTable), (indexOk t i true, .badIndex), (s.mayRead origin t i, .denied)]
    (s.doneWith (s.readEntry t i))

/-- R166, R168: CLEAR. -/
def State.answerClear (s : State) (origin t i : Nat) : Answer :=
  s.checked
    [(tableOk t, .noTable), (indexOk t i false, .badIndex), (s.mayWrite origin t i, .denied),
     (s.phasePassesClear origin t, .phase)]
    (s.ofClear (s.clearEntry origin t i))

/-- R166, R168: CLEAR_TABLE. -/
def State.answerClearTable (s : State) (origin t : Nat) : Answer :=
  s.checked
    [(tableOk t, .noTable), (s.mayClearTable origin t, .denied), (s.phasePassesClear origin t, .phase)]
    (s.ofClear (s.clearAll origin t))

/-- R36, R169: the argument range of an ADJUST_STEPS: a DISPLAY target is an index 0..511. -/
def adjustIndexOk (kind value : Nat) : Bool := kind != 0 || decide (value < Config.displayCount)

/-- R36: a DISPLAY target names a present entry. -/
def State.adjustPresent (s : State) (kind value : Nat) : Bool := kind != 0 || (s.display value).isSome

/-- R36, R168: ADJUST_STEPS. -/
def State.answerAdjust (s : State) (origin kind value code : Nat) : Answer :=
  s.checked
    [(adjustIndexOk kind value, .badIndex), (s.mayAdjust origin kind value, .denied),
     (s.phasePassesAdjust origin kind value, .phase), (targetReadable kind value && decide (code ≤ 7), .badField),
     (s.adjustPresent kind value, .badRef)]
    (s.adjustSteps kind value code).done

/-- R130, R168: HOLD_STRING. -/
def State.answerHold (s : State) (origin i : Nat) : Answer :=
  s.checked
    [(decide (i ≤ 7), .badIndex), (s.mayWrite origin tblStrings i, .denied), (!s.ship.phase.emergency, .phase)]
    (s.setStr (stringNo i) (s.str (stringNo i)).hold).done

/-- R130, R168: FREE_STRING. -/
def State.answerFree (s : State) (origin i : Nat) : Answer :=
  s.checked [(decide (i ≤ 7), .badIndex), (s.mayWrite origin tblStrings i, .denied)]
    (s.setStr (stringNo i) (s.str (stringNo i)).free).done

/-- R137: a FAULTED display loses its last failure or probe time. -/
def State.retry (s : State) (d : Nat) : State :=
  s.onRuntime d fun r => if r.state = .faulted then { r with lastFail := none } else r

/-- R137, R168: RETRY_DISPLAY. -/
def State.answerRetry (s : State) (origin d : Nat) : Answer :=
  s.checked
    [(decide (d < Config.displayCount), .badIndex), (s.mayWrite origin tblDisplays d, .denied),
     ((s.display d).isSome, .badRef)]
    (s.retry d).done

/-! ### Warm restart (R175) -/

/-- R162: a link port after warm restart: its forward queue emptied, a frame in transmission ended. -/
def LinkPort.restarted (l : LinkPort) : LinkPort := { l with queue := [], sending := none }

/-- R63: a destination after warm restart. -/
def Dest.restarted (d : Dest) : Dest := { d with status := .pending, sweeps := 0, cells := [] }

/-- R32: every runtime record reset, then every present display marked ROUTINE. -/
def State.restartDisplays (s : State) : State :=
  ({ s with displays := Tab.mapAll s.displays fun x => { x with rt := x.rt.restarted } } : State).markAll .routine

/-- R175: every block takes its warm-restart values: the strings first, the queues of the link side and the reply queue before
any block could raise a report or a reply, the Display Directory last. -/
def State.warmRestart (s : State) : State :=
  let t := s.restartStrings
  let u : State := { t with
    fore := t.fore.restarted
    aft := t.aft.restarted
    replies := []
    reports := []
    dests := Tab.mapAll t.dests Dest.restarted
    lossReported := [] }
  u.clearCabinFlags.restartDisplays

/-- R175, R168: RESTART. -/
def State.answerRestart (s : State) (origin : Nat) : Answer :=
  s.checked
    [(origin == originBridge || origin == originMaintenance, .denied), (s.ship.phase == .normal, .phase)]
    s.warmRestart.done

/-! ### Queries -/

/-- R176: STATUS. -/
def State.answerStatus (s : State) : Answer := s.doneWith (true, s.statusPairs)

/-- R177: DISPLAY_STATUS. -/
def State.answerDisplayStatus (s : State) (origin d : Nat) : Answer :=
  s.checked [(decide (d < Config.displayCount), .badIndex), (s.mayRead origin tblDisplays d, .denied)]
    (s.doneWith (present (s.display d) fun x => s.displayStatusPairs d x))

/-- R178: IDENTIFY. -/
def State.answerIdentify (s : State) : Answer := s.doneWith (true, s.identifyPairs)

/-- R163, R169: a request of an origin carried out whole, or refused by the first check that fails. -/
def State.respond (s : State) (origin : Nat) (r : Request) : Answer :=
  match r with
  | .write t i fs => s.answerWrite origin t i fs
  | .read t i => s.answerRead origin t i
  | .clear t i => s.answerClear origin t i
  | .clearTable t => s.answerClearTable origin t
  | .adjustSteps k v c => s.answerAdjust origin k v c
  | .holdString i => s.answerHold origin i
  | .freeString i => s.answerFree origin i
  | .retryDisplay d => s.answerRetry origin d
  | .restart => s.answerRestart origin
  | .status => s.answerStatus
  | .displayStatus d => s.answerDisplayStatus origin d
  | .identify => s.answerIdentify
  | .malformed _ => s.refuse .malformed

/-- R180: the request kind a reply answers; a body of no byte names none, so the byte is a free value (log entry 16). -/
def State.kindByte (s : State) (r : Request) : Byte :=
  match r.kindCode with
  | some k => byteOf k
  | none => Config.freeByte s.draws

/-- Whether a reply to a request draws a free value (log entry 16). -/
def requestDraws (r : Request) : Nat := if r.kindCode.isSome then 0 else 1

/-- R180: a reply body: the result code, the request kind and the data. -/
def State.replyBody (s : State) (r : Request) (a : Answer) : List Byte :=
  byteOf a.code.code :: s.kindByte r :: a.data

end Sys2Proof.Machine
end

