-- ==== Sys2Proof/Machine/Link.lean ====
section
/-! DEFINITION. The link ports, the Frame Switch, the reply queue and the transmit arbiters (chapter 9). -/

namespace Sys2Proof.Machine

/-! ### Ports (R148, R149) -/

/-- R148: the line signal of a port appears or disappears; a level that repeats goes on. -/
def LinkPort.signalled (l : LinkPort) (present : Bool) (now : Nat) : LinkPort :=
  if l.signal = present then l else { l with signal := present, signalSince := now }

/-- R148: a DOWN port whose line signal is present; the time at which it becomes UP. -/
def LinkPort.upAt (l : LinkPort) : Option Nat := if !l.up && l.signal then some (l.signalSince + Config.portUpMs) else none

/-- R148: an UP port whose line signal is absent; the time at which it becomes DOWN. -/
def LinkPort.downAt (l : LinkPort) : Option Nat :=
  if l.up && !l.signal then some (l.signalSince + Config.portDownMs) else none

/-- R149: a port goes DOWN: its forward queue, the frame it sends and the replies owed on it are discarded. -/
def State.portFalls (s : State) (p : Port) : State :=
  { s.setPort p { s.port p with up := false, queue := [], sending := none } with
    replies := s.replies.filter fun r => r.port != p }

/-- R148: a port comes UP. -/
def State.portRises (s : State) (p : Port) : State := s.setPort p { s.port p with up := true }

/-! ### Replies (R149, R156, R157) -/

/-- R157: the destination of a reply. -/
def replyDest (node : Nat) : Nat := if 1 ≤ node ∧ node ≤ 239 then node else 255

/-- R156: a reply put at the tail of the reply queue, owed on a port; discarded while that port is DOWN. -/
def State.oweReply (s : State) (p : Port) (f : Frame) (body : List Byte) : State :=
  if (s.port p).up then
    { s with replies := s.replies ++ [{ port := p, dest := replyDest f.node, seq := f.seq, body := body }] }
  else s

/-- R156: a request that concerns the 820: a node-addressed one is discarded while four replies wait, else carried out and
answered; a zone-cast or all-cast one is carried out without a reply. -/
def State.takeRequest (s : State) (p : Port) (f : Frame) (r : Request) : State :=
  let a := s.respond f.origin r
  if s.address = some f.dest then
    if Config.replyQueueCapacity ≤ s.replies.length then s
    else
      let t := a.state.oweReply p f (s.replyBody r a)
      { t with draws := t.draws + requestDraws r }
  else a.state

/-! ### The Frame Switch (R151 to R155) -/

/-- R152: a frame with this destination concerns the 820. -/
def State.concerns (s : State) (dest : Nat) : Bool :=
  s.address == some dest || (s.node.zoneGroup.any fun g => dest == 240 + g) || dest == 255

/-- R152: a frame is forwarded: every destination but this 820's own address, with a hop limit of 1 or more. -/
def State.forwards (s : State) (f : Frame) : Bool := decide (1 ≤ f.hop) && s.address != some f.dest

/-- R151: a frame this 820 sent that has come back to it. -/
def State.ownFrame (s : State) (f : Frame) : Bool := f.origin == originController && s.address == some f.node

/-- R154: a frame that concerns the 820 acted on by its kind and origin class. -/
def State.act (s : State) (p : Port) (f : Frame) (c : Content) : State :=
  match c with
  | .bulletin b => if f.origin = originBridge then s.takeBulletin f.seq b else s
  | .request r => if f.origin ≤ originController then s.takeRequest p f r else s
  | .unused => s

/-- R153: a copy, its hop limit lowered by one, put at the tail of the other port's forward queue; discarded while that queue
holds 16 frames or that port is DOWN. -/
def State.forward (s : State) (p : Port) (f : Frame) : State :=
  let l := s.port p.other
  if l.up && decide (l.queue.length < Config.forwardQueueCapacity) then
    s.setPort p.other { l with queue := l.queue ++ [{ f with hop := f.hop - 1 }] }
  else s

/-- R151 to R154: a frame arrives on a port: it is discarded, or acted on where it concerns the 820, and forwarded. -/
def State.frameArrives (s : State) (p : Port) (f : Frame) (c : Content) : State :=
  if (s.port p).up && decide (f.body.length ≤ Config.maxBodyLength) && !s.ownFrame f then
    let t := if s.concerns f.dest then s.act p f c else s
    if s.forwards f then t.forward p f else t
  else s

/-- R151: a byte sequence that arrives as one frame. -/
def State.bytesArrive (s : State) (p : Port) (bs : List Byte) : State :=
  match parseFrame bs with
  | .ok f => s.frameArrives p f f.content
  | .error _ => s

/-- A bulletin arrives. -/
def State.bulletinArrives (s : State) (a : Arrival) (b : Bulletin) : State :=
  s.frameArrives a.port (a.bulletinFrame b) (.bulletin b)

/-- A request arrives. -/
def State.requestArrives (s : State) (a : Arrival) (r : Request) : State :=
  s.frameArrives a.port (a.requestFrame r) (.request r)

/-! ### The transmit arbiters (R157, R158, R161) -/

/-- R161: the port that the head of the Report Queue is offered to. -/
def State.reportOffer (s : State) : Option Port :=
  if (s.port s.node.reportPort).up then some s.node.reportPort
  else if (s.port s.node.reportPort.other).up then some s.node.reportPort.other
  else none

/-- R180: a report body. -/
def Report.body (r : Report) : List Byte :=
  [byteOf r.kind.code, byteOf r.kind.cls] ++ be16 r.subject ++ be16 r.value ++
    [byteOf (if r.stamp.valid then 0 else 1), byteOf r.stamp.day] ++ be16 r.stamp.minute ++ [byteOf r.stamp.second]

/-- R157: the frame of a reply. -/
def State.replyFrame (s : State) (r : Reply) : Frame :=
  { kind := kindReply, origin := originController, node := s.address.getD 0, dest := r.dest, hop := s.node.txHop,
    seq := r.seq, body := r.body }

/-- R157, R161: the frame of a report. -/
def State.reportFrame (s : State) (r : Report) : Frame :=
  { kind := kindReport, origin := originController, node := s.address.getD 0, dest := s.node.reportDest, hop := s.node.txHop,
    seq := s.reportSeq, body := r.body }

/-- R158: what an arbiter chooses. -/
inductive TxChoice where
  /-- Level 1: the oldest frame of origin class BRIDGE in the forward queue. -/
  | bridge (f : Frame)
  /-- Level 2: the oldest reply owed on the port. -/
  | reply (r : Reply)
  /-- Level 3: the head of the Report Queue. -/
  | report (r : Report)
  /-- Level 4: the oldest frame in the forward queue. -/
  | passing (f : Frame)
  deriving DecidableEq, Repr

/-- R158: the arbiter's choice, if the port has anything to send. -/
def State.txChoice (s : State) (p : Port) : Option TxChoice :=
  (((s.port p).queue.find? fun f => f.origin == originBridge).map .bridge)
    <|> ((s.replies.find? fun r => r.port == p).map .reply)
    <|> (if s.reportOffer = some p then s.reports.head?.map .report else none)
    <|> ((s.port p).queue.head?.map .passing)

/-- R158: an UP port that is not transmitting makes a choice. -/
def State.txReady (s : State) (p : Port) : Option TxChoice :=
  if (s.port p).up ∧ (s.port p).sending = none then s.txChoice p else none

/-- A frame goes out on a port. -/
def State.sends (s : State) (p : Port) (f : Frame) : State := s.setPort p { s.port p with sending := some f.bytes }

/-- A port without the first frame of its forward queue that meets a condition. -/
def LinkPort.unqueue (l : LinkPort) (q : Frame → Bool) : LinkPort := { l with queue := l.queue.eraseP q }

/-- R158, R161: the frame chosen leaves its queue as its transmission begins. -/
def State.transmit (s : State) (p : Port) (c : TxChoice) : State :=
  match c with
  | .bridge f => (s.setPort p ((s.port p).unqueue fun g => g.origin == originBridge)).sends p f
  | .reply r => ({ s with replies := s.replies.eraseP fun q => q.port == p } : State).sends p (s.replyFrame r)
  | .report r =>
    ({ s with reports := s.reports.tail, reportSeq := (s.reportSeq + 1) % 65536 } : State).sends p (s.reportFrame r)
  | .passing f => (s.setPort p ((s.port p).unqueue fun _ => true)).sends p f

/-- A port's transmission ends. -/
def State.transmitted (s : State) (p : Port) : State := s.setPort p { s.port p with sending := none }

end Sys2Proof.Machine
end

