-- ==== Sys2Proof/Machine/Solver.lean ====
section
/-! DEFINITION. The Route Solver's steps (R48 to R51, R55, R56): taking a destination and the end of a sweep. -/

namespace Sys2Proof.Machine

/-- A destination's entry replaced. -/
def State.setDest (s : State) (d : Nat) (t : Dest) : State := { s with dests := Tab.store s.dests d t }

/-- R49, R51: the solver takes a destination. -/
def State.takeDest (s : State) (d : Nat) : State := { s with dests := Tab.change s.dests d Dest.taken }

/-- R50: a solve whose sweep ends with changes is suspended. -/
def State.suspends (s : State) (t : Dest) : Bool :=
  s.ship.phase.emergency && t.kind != .musterStation &&
    s.dests.any fun e => e.2.kind == .musterStation && e.2.status == .pending

/-- R55, R56: a destination settles: its displays are marked, then a MUSTER_STATION is recounted. -/
def State.settle (s : State) (d : Nat) (t : Dest) : State :=
  let u := (s.setDest d t).markWhere ((s.setDest d t).showsDest fun n => n == d) s.writeUrgency
  if t.kind = .musterStation then u.recount d else u

/-- R47, R48, R50: the end of a sweep of a destination that is SOLVING. -/
def State.sweepDone (s : State) (d : Nat) (t : Dest) : State :=
  let r := s.sweep t.cells
  if r.2 then
    s.setDest d { t with
      cells := r.1, sweeps := t.sweeps + 1, status := if s.suspends t then .suspended else .solving }
  else s.settle d { t with cells := r.1, sweeps := t.sweeps + 1, status := .settled }

end Sys2Proof.Machine
end

