-- ==== Sys2Proof/Machine/Events.lean ====
section
/-! DEFINITION. The meanings of the commands that come from the pins, the link ports and the 820's own timers. A timer's command
brings the time base to the timer's deadline; where the timer does not run, the event cannot come and nothing changes (log
entries 2 and 3). -/

namespace Sys2Proof.Machine

/-- The result of a step. -/
abbrev Result := Host.Outcome State Fault Refusal

/-- POWER_ON_RESET: every block at its power-on values, under the pins' levels (R20, R63, R79, R95, R104, R126, R147, R150,
R162, R167, R171). What the outside still has to send stays queued. -/
def execPowerOnReset (straps : BitVec 8) (s : State) : Result :=
  .next (State.powerOn s.pending straps s.ship.raw s.fore.signal s.aft.signal s.draws)

/-- R7: the raw level of MUSTER_IN; a change starts its timing afresh. -/
def State.rawLevel (s : State) (level : Bool) : State :=
  if s.ship.raw = level then s else s.onShip fun h => { h with raw := level, rawSince := s.now }

/-- MUSTER_IN_CHANGE (R7). -/
def execMusterInChange (level : Bool) (s : State) : Result := .next (s.rawLevel level)

/-- R7: the time at which the filter completes, while the raw level differs from the line. -/
def Ship.lineAt (h : Ship) : Option Nat := if h.raw = h.line then none else some (h.rawSince + Config.musterFilterMs)

/-- A timer's event: the time base comes to the deadline and the effect follows; nothing where the timer does not run. -/
def State.expire (s : State) (deadline : Option Nat) (effect : State → State) : State :=
  match deadline with
  | some t => effect (s.reach t)
  | none => s

/-- MUSTER_LINE_CHANGE (R7, R11). -/
def execMusterLineChange (s : State) : Result := .next (s.expire s.ship.lineAt State.filterLine)

/-- R3: the time of the next second, while the clock is VALID. -/
def Ship.secondAt (h : Ship) : Option Nat := if h.valid then some (h.subSecond + 1000) else none

/-- CLOCK_SECOND_ADVANCE (R3). -/
def execClockSecondAdvance (s : State) : Result := .next (s.expire s.ship.secondAt State.advanceSecond)

/-- STAND_DOWN_HOLD_EXPIRY (R12). -/
def execStandDownHoldExpiry (s : State) : Result := .next (s.expire s.ship.hold State.holdExpires)

/-- BRIDGE_SILENCE_EXPIRY (R15, R16). -/
def execBridgeSilenceExpiry (s : State) : Result := .next (s.expire s.ship.silence State.silenceExpires)

/-- LINE_SIGNAL_CHANGE (R148). -/
def execLineSignalChange (p : Port) (present : Bool) (s : State) : Result :=
  .next (s.setPort p ((s.port p).signalled present s.now))

/-- PORT_UP (R148). -/
def execPortUp (p : Port) (s : State) : Result := .next (s.expire (s.port p).upAt fun t => t.portRises p)

/-- PORT_DOWN (R148, R149). -/
def execPortDown (p : Port) (s : State) : Result := .next (s.expire (s.port p).downAt fun t => t.portFalls p)

/-- FRAME_RECEIVE (R151 to R155). -/
def execFrameReceive (p : Port) (bytes : List Byte) (s : State) : Result := .next (s.bytesArrive p bytes)

/-- TIME_BULLETIN (R4). -/
def execTimeBulletin (a : Arrival) (day minute second : Nat) (s : State) : Result :=
  .next (s.bulletinArrives a (.time day minute second))

/-- PHASE_BULLETIN (R9). -/
def execPhaseBulletin (a : Arrival) (phase : Nat) (drill : Bool) (s : State) : Result :=
  .next (s.bulletinArrives a (.phase phase drill))

/-- CLOSURES_BULLETIN (R17). -/
def execClosuresBulletin (a : Arrival) (first : Nat) (states : List Nat) (s : State) : Result :=
  .next (s.bulletinArrives a (.closures first states))

/-- LIGHT_BULLETIN (R18). -/
def execLightBulletin (a : Arrival) (level : Nat) (s : State) : Result := .next (s.bulletinArrives a (.light level))

/-- CABIN_MARK_BULLETIN (R90). -/
def execCabinMarkBulletin (a : Arrival) (cabins : List Nat) (s : State) : Result :=
  .next (s.bulletinArrives a (.cabinMark cabins))

/-- ASSIST_CLEAR_BULLETIN (R89). -/
def execAssistClearBulletin (a : Arrival) (cabins : List Nat) (s : State) : Result :=
  .next (s.bulletinArrives a (.assistClear cabins))

/-- R158: a port's arbiter makes its choice and begins to send. -/
def State.beginTransmit (s : State) (p : Port) : State :=
  match s.txReady p with
  | some c => s.transmit p c
  | none => s

/-- TRANSMIT_BEGIN (R157, R158, R161). -/
def execTransmitBegin (p : Port) (s : State) : Result := .next (s.beginTransmit p)

/-- TRANSMIT_END (R158): the port is free again. -/
def execTransmitEnd (p : Port) (s : State) : Result := .next (s.transmitted p)

/-- R49: the solver, with no solve in flight, takes the destination that the phase gives. -/
def State.solverTakes (s : State) : State :=
  if s.solving.isSome then s
  else
    match s.nextDest with
    | some d => s.takeDest d
    | none => s

/-- SOLVER_TAKE (R47, R49, R51). -/
def execSolverTake (s : State) : Result := .next s.solverTakes

/-- R48: the sweep in progress ends. -/
def State.sweepEnds (s : State) : State :=
  match s.solving with
  | some d =>
    match Tab.fetch s.dests d with
    | some t => s.sweepDone d t
    | none => s
  | none => s

/-- SWEEP_END (R47, R48, R50, R55, R56). -/
def execSweepEnd (s : State) : Result := .next s.sweepEnds

end Sys2Proof.Machine
end

