-- ==== Sys2Proof/Machine/Requests.lean ====
section
/-! DEFINITION. The meanings of the request commands: a request frame arrives (R151 to R157) and the Management Responder carries
it out (chapter 10). -/

namespace Sys2Proof.Machine

/-- WRITE (R165, R168). -/
def execWrite (a : Arrival) (table index : Nat) (fields : FieldList) (s : State) : Result :=
  .next (s.requestArrives a (.write table index fields))

/-- READ (R166, R168). -/
def execRead (a : Arrival) (table index : Nat) (s : State) : Result := .next (s.requestArrives a (.read table index))

/-- CLEAR (R166, R168). -/
def execClear (a : Arrival) (table index : Nat) (s : State) : Result := .next (s.requestArrives a (.clear table index))

/-- CLEAR_TABLE (R166, R168). -/
def execClearTable (a : Arrival) (table : Nat) (s : State) : Result := .next (s.requestArrives a (.clearTable table))

/-- ADJUST_STEPS (R36, R168). -/
def execAdjustSteps (a : Arrival) (kind value code : Nat) (s : State) : Result :=
  .next (s.requestArrives a (.adjustSteps kind value code))

/-- HOLD_STRING (R130, R168). -/
def execHoldString (a : Arrival) (string : Nat) (s : State) : Result := .next (s.requestArrives a (.holdString string))

/-- FREE_STRING (R130, R168). -/
def execFreeString (a : Arrival) (string : Nat) (s : State) : Result := .next (s.requestArrives a (.freeString string))

/-- RETRY_DISPLAY (R137, R168). -/
def execRetryDisplay (a : Arrival) (display : Nat) (s : State) : Result :=
  .next (s.requestArrives a (.retryDisplay display))

/-- RESTART (R175). -/
def execRestart (a : Arrival) (s : State) : Result := .next (s.requestArrives a .restart)

/-- STATUS (R176). -/
def execStatus (a : Arrival) (s : State) : Result := .next (s.requestArrives a .status)

/-- DISPLAY_STATUS (R177). -/
def execDisplayStatus (a : Arrival) (display : Nat) (s : State) : Result :=
  .next (s.requestArrives a (.displayStatus display))

/-- IDENTIFY (R178). -/
def execIdentify (a : Arrival) (s : State) : Result := .next (s.requestArrives a .identify)

end Sys2Proof.Machine
end

