-- ==== Sys2Proof/Machine/Exchanges.lean ====
section
/-! DEFINITION. The meanings of the commands of the display strings: takes, replies, timeouts and the times that make work
takeable (chapter 8). -/

namespace Sys2Proof.Machine

/-- R133, R139: a string takes a display for a dispatch, where selection offers one. -/
def State.dispatchTaken (s : State) (k : StringNo) : State :=
  match s.offer k with
  | some (.dispatch d u stamp) => s.takeDispatch k d u stamp
  | some (.poll _) => s
  | some (.probe _) => s
  | none => s

/-- DISPATCH_TAKE (R134, R135, R138, R139). -/
def execDispatchTake (k : StringNo) (s : State) : Result := .next (s.dispatchTaken k)

/-- R133, R139: a string takes a display for a poll, where selection offers one. -/
def State.pollTaken (s : State) (k : StringNo) : State :=
  match s.offer k with
  | some (.poll d) => s.takePoll k d
  | some (.dispatch _ _ _) => s
  | some (.probe _) => s
  | none => s

/-- POLL_TAKE (R134, R136, R138, R139). -/
def execPollTake (k : StringNo) (s : State) : Result := .next (s.pollTaken k)

/-- R133, R139: a string takes a display for a probe, where selection offers one. -/
def State.probeTaken (s : State) (k : StringNo) : State :=
  match s.offer k with
  | some (.probe d) => s.takeProbe k d
  | some (.dispatch _ _ _) => s
  | some (.poll _) => s
  | none => s

/-- PROBE_TAKE (R134, R137, R138, R139). -/
def execProbeTake (k : StringNo) (s : State) : Result := .next (s.probeTaken k)

/-- READY (R141, R143, R145). -/
def execReady (k : StringNo) (tag cls : Nat) (s : State) : Result := .next (s.stringReply k tag (.ready cls))

/-- BUSY (R141, R145). -/
def execBusy (k : StringNo) (tag ms : Nat) (s : State) : Result := .next (s.stringReply k tag (.busy ms))

/-- ACK (R141). -/
def execAck (k : StringNo) (tag : Nat) (s : State) : Result := .next (s.stringReply k tag .ack)

/-- NAK (R140, R142). -/
def execNak (k : StringNo) (tag : Nat) (s : State) : Result := .next (s.stringReply k tag .nak)

/-- REFRESH (R141). -/
def execRefresh (k : StringNo) (tag ms : Nat) (s : State) : Result := .next (s.stringReply k tag (.refresh ms))

/-- R181: an EVENTS reply passes its check with at most four events. -/
def State.eventsReply (s : State) (k : StringNo) (tag : Nat) (codes : List Nat) : State :=
  if codes.length ≤ 4 then s.stringReply k tag (.events codes) else s

/-- EVENTS (R144, R86). -/
def execEvents (k : StringNo) (tag : Nat) (codes : List Nat) (s : State) : Result := .next (s.eventsReply k tag codes)

/-- R140, R181: the bytes of a complete reply: discarded where they fail the check or the tag is not awaited, else judged by
their code. -/
def State.replyBytes (s : State) (k : StringNo) (bs : List Byte) : State :=
  match parseStringReply bs with
  | some (tag, r) => s.stringReply k tag r
  | none => s

/-- STRING_REPLY_DISCARD (R140, R181). -/
def execStringReplyDiscard (k : StringNo) (bytes : List Byte) (s : State) : Result := .next (s.replyBytes k bytes)

/-- R140: the time at which the reply timeout of the try in flight expires. -/
def State.timeoutAt (s : State) (k : StringNo) : Option Nat :=
  match (s.str k).txn with
  | some t => some (t.sentAt + (s.str k).timeout)
  | none => none

/-- R140: the try in flight fails as unanswered. -/
def State.unanswered (s : State) (k : StringNo) : State :=
  match (s.str k).txn with
  | some t => s.failTry k t .noReply
  | none => s

/-- REPLY_TIMEOUT (R140, R142, R143, R145). -/
def execReplyTimeout (k : StringNo) (s : State) : Result := .next (s.expire (s.timeoutAt k) fun t => t.unanswered k)

/-- R135: a present display's refresh-busy-until. -/
def State.busyAt (s : State) (d : Nat) : Option Nat := (s.display d).map fun x => x.rt.busyUntil

/-- REFRESH_BUSY_REACHED (R133, R135): the time comes; what is takeable follows from it. -/
def execRefreshBusyReached (display : Nat) (s : State) : Result := .next (s.expire (s.busyAt display) id)

/-- R135: the time at which a display's minimum refresh interval has passed, while it has a last commit time. -/
def State.intervalAt (s : State) (d : Nat) : Option Nat :=
  match s.display d with
  | some x => x.rt.lastCommit.map fun t => t + s.node.minRefreshMs x.cfg.cls
  | none => none

/-- MIN_REFRESH_EXPIRY (R133, R135). -/
def execMinRefreshExpiry (display : Nat) (s : State) : Result := .next (s.expire (s.intervalAt display) id)

/-- R136: the time at which a display of a poll ring falls due, while it has a last poll time. -/
def State.pollAt (s : State) (d : Nat) : Option Nat :=
  match s.display d with
  | some x => if x.inRing then x.rt.lastPoll.map fun t => t + (s.str x.cfg.string).pollPeriod else none
  | none => none

/-- POLL_DUE (R133, R136). -/
def execPollDue (display : Nat) (s : State) : Result := .next (s.expire (s.pollAt display) id)

/-- R137: the time at which a FAULTED display falls due for a probe, while it has a last failure or probe time. -/
def State.probeAt (s : State) (d : Nat) : Option Nat :=
  match s.display d with
  | some x => if x.rt.state = .faulted then x.rt.lastFail.map fun t => t + Config.probeIntervalMs else none
  | none => none

/-- PROBE_DUE (R133, R137). -/
def execProbeDue (display : Nat) (s : State) : Result := .next (s.expire (s.probeAt display) id)

end Sys2Proof.Machine
end

