-- ==== Sys2Proof/Machine/Dispatch.lean ====
section
/-! DEFINITION. The dispatch: one arm per command, each one direct call of its meaning. -/

namespace Sys2Proof.Machine

/-- The effect of a command on everything but the queue. -/
def exec (i : Instr) (s : State) : Host.Outcome State Fault Refusal :=
  match i with
  | .powerOnReset straps => Sys2Proof.Machine.execPowerOnReset straps s
  | .musterInChange level => Sys2Proof.Machine.execMusterInChange level s
  | .musterLineChange => Sys2Proof.Machine.execMusterLineChange s
  | .clockSecondAdvance => Sys2Proof.Machine.execClockSecondAdvance s
  | .standDownHoldExpiry => Sys2Proof.Machine.execStandDownHoldExpiry s
  | .bridgeSilenceExpiry => Sys2Proof.Machine.execBridgeSilenceExpiry s
  | .lineSignalChange p present => Sys2Proof.Machine.execLineSignalChange p present s
  | .portUp p => Sys2Proof.Machine.execPortUp p s
  | .portDown p => Sys2Proof.Machine.execPortDown p s
  | .frameReceive p bytes => Sys2Proof.Machine.execFrameReceive p bytes s
  | .timeBulletin a day minute second => Sys2Proof.Machine.execTimeBulletin a day minute second s
  | .phaseBulletin a phase drill => Sys2Proof.Machine.execPhaseBulletin a phase drill s
  | .closuresBulletin a first states => Sys2Proof.Machine.execClosuresBulletin a first states s
  | .lightBulletin a level => Sys2Proof.Machine.execLightBulletin a level s
  | .cabinMarkBulletin a cabins => Sys2Proof.Machine.execCabinMarkBulletin a cabins s
  | .assistClearBulletin a cabins => Sys2Proof.Machine.execAssistClearBulletin a cabins s
  | .write a table index fields => Sys2Proof.Machine.execWrite a table index fields s
  | .read a table index => Sys2Proof.Machine.execRead a table index s
  | .clear a table index => Sys2Proof.Machine.execClear a table index s
  | .clearTable a table => Sys2Proof.Machine.execClearTable a table s
  | .adjustSteps a kind value code => Sys2Proof.Machine.execAdjustSteps a kind value code s
  | .holdString a string => Sys2Proof.Machine.execHoldString a string s
  | .freeString a string => Sys2Proof.Machine.execFreeString a string s
  | .retryDisplay a display => Sys2Proof.Machine.execRetryDisplay a display s
  | .restart a => Sys2Proof.Machine.execRestart a s
  | .status a => Sys2Proof.Machine.execStatus a s
  | .displayStatus a display => Sys2Proof.Machine.execDisplayStatus a display s
  | .identify a => Sys2Proof.Machine.execIdentify a s
  | .transmitBegin p => Sys2Proof.Machine.execTransmitBegin p s
  | .transmitEnd p => Sys2Proof.Machine.execTransmitEnd p s
  | .dispatchTake k => Sys2Proof.Machine.execDispatchTake k s
  | .pollTake k => Sys2Proof.Machine.execPollTake k s
  | .probeTake k => Sys2Proof.Machine.execProbeTake k s
  | .ready k tag cls => Sys2Proof.Machine.execReady k tag cls s
  | .busy k tag ms => Sys2Proof.Machine.execBusy k tag ms s
  | .ack k tag => Sys2Proof.Machine.execAck k tag s
  | .nak k tag => Sys2Proof.Machine.execNak k tag s
  | .refresh k tag ms => Sys2Proof.Machine.execRefresh k tag ms s
  | .events k tag codes => Sys2Proof.Machine.execEvents k tag codes s
  | .stringReplyDiscard k bytes => Sys2Proof.Machine.execStringReplyDiscard k bytes s
  | .replyTimeout k => Sys2Proof.Machine.execReplyTimeout k s
  | .refreshBusyReached display => Sys2Proof.Machine.execRefreshBusyReached display s
  | .minRefreshExpiry display => Sys2Proof.Machine.execMinRefreshExpiry display s
  | .pollDue display => Sys2Proof.Machine.execPollDue display s
  | .probeDue display => Sys2Proof.Machine.execProbeDue display s
  | .solverTake => Sys2Proof.Machine.execSolverTake s
  | .sweepEnd => Sys2Proof.Machine.execSweepEnd s

end Sys2Proof.Machine
end

