-- ==== Sys2Proof/Machine/Idle.lean ====
section
/-! DEFINITION. What the 820 does of its own accord while no command waits (log entry 1): the events of its own timers and
blocks that are due, in an order that stays free, or a millisecond of its time base. -/

namespace Sys2Proof.Machine

/-- The event of a timer whose deadline the time base has reached. -/
def State.dueAt (s : State) (deadline : Option Nat) (i : Instr) : List Instr :=
  match deadline with
  | some t => if t ≤ s.now then [i] else []
  | none => []

/-- The eight strings. -/
def allStrings : List StringNo := [0, 1, 2, 3, 4, 5, 6, 7]

/-- R133: what an IDLE, enabled string is offered, it takes at once. -/
def State.takeDue (s : State) (k : StringNo) : List Instr :=
  match s.offer k with
  | some (.dispatch _ _ _) => [.dispatchTake k]
  | some (.poll _) => [.pollTake k]
  | some (.probe _) => [.probeTake k]
  | none => []

/-- The events of a port that are due: its change of state, or its arbiter's choice (R148, R158). -/
def State.portDue (s : State) (p : Port) : List Instr :=
  s.dueAt (s.port p).upAt (.portUp p) ++ s.dueAt (s.port p).downAt (.portDown p) ++
    (if (s.txReady p).isSome then [.transmitBegin p] else [])

/-- R49: the solver takes a destination at once when it can. -/
def State.solverDue (s : State) : List Instr := if s.solving.isNone && s.nextDest.isSome then [.solverTake] else []

/-- The events that come before any more time passes. -/
def State.dueEvents (s : State) : List Instr :=
  s.dueAt s.ship.lineAt .musterLineChange ++ s.dueAt s.ship.secondAt .clockSecondAdvance ++
    s.dueAt s.ship.hold .standDownHoldExpiry ++ s.dueAt s.ship.silence .bridgeSilenceExpiry ++
    s.portDue .fore ++ s.portDue .aft ++ allStrings.flatMap (fun k => s.dueAt (s.timeoutAt k) (.replyTimeout k)) ++
    allStrings.flatMap s.takeDue ++ s.solverDue

/-- The ends of what is under way for a time that the spec does not give: a sweep and the transmissions (log entry 22). -/
def State.openEvents (s : State) : List Instr :=
  (if s.solving.isSome then [.sweepEnd] else []) ++ (if (s.port .fore).sending.isSome then [.transmitEnd .fore] else []) ++
    (if (s.port .aft).sending.isSome then [.transmitEnd .aft] else [])

/-- One millisecond of the monotonic time base (R6). -/
def State.tick (s : State) : State := { s with now := s.now + 1 }

/-- What may come next of the 820's own accord; none stands for a millisecond in which nothing comes, which waits while an
event is due. -/
def State.ownEvents (s : State) : List (Option Instr) :=
  (s.dueEvents ++ s.openEvents).map some ++ (if s.dueEvents = [] then [none] else [])

/-- The choice among several events of the 820's own: a free value (log entry 1). -/
def State.ownChoice (s : State) : Option Instr :=
  (s.ownEvents[Config.freePick s.draws % s.ownEvents.length]?).join

/-- A step while no command waits. With nothing due and nothing under way it is a millisecond; else a free choice. -/
def State.idle (s : State) : Result :=
  if s.ownEvents = [none] then .next s.tick
  else
    match s.ownChoice with
    | some i => exec i { s with draws := s.draws + 1 }
    | none => .next ({ s with draws := s.draws + 1 } : State).tick

end Sys2Proof.Machine
end

