-- ==== Sys2Proof/Safety.lean ====
section
/-! DEFINITION. What every state of a run keeps, and the situations the statements name, in the spec's terms. -/

namespace Sys2Proof.Machine

/-- R159: two reports ordered by class, highest first, and then by arrival number. -/
def reportBefore (a b : Report) : Prop := b.kind.cls < a.kind.cls ∨ (a.kind.cls = b.kind.cls ∧ a.arrival < b.arrival)

/-- R159: the Report Queue holds at most 32 reports, no two with the same kind and subject, in its order, every arrival number
below the counter. -/
structure State.ReportsOk (s : State) : Prop where
  length : s.reports.length ≤ Config.reportQueueCapacity
  order : s.reports.Pairwise reportBefore
  unique : s.reports.Pairwise fun a b => ¬(a.kind = b.kind ∧ a.subject = b.subject)
  arrivals : ∀ r ∈ s.reports, r.arrival < s.reportArrival

/-- What a report changes of the Report Queue: its pending reports and the arrival counter. -/
def State.reporting (s : State) : List Report × Nat := (s.reports, s.reportArrival)

/-- R159: a new report placed by its class: behind every pending report of its class or a higher one, before every lower one. -/
def Placed (r : Report) (before after : List Report) : Prop :=
  r ∈ after ∧
    (before.Pairwise reportBefore →
      ∃ pre post, before = pre ++ post ∧ after = pre ++ r :: post ∧ (∀ p ∈ pre, r.kind.cls ≤ p.kind.cls) ∧
        ∀ p ∈ post, p.kind.cls < r.kind.cls)

/-- R160: the oldest report of the lowest class in a queue. -/
def OldestOfLowest (v : Report) (q : List Report) : Prop :=
  v ∈ q ∧ ∀ r ∈ q, r = v ∨ v.kind.cls < r.kind.cls ∨ (v.kind.cls = r.kind.cls ∧ v.arrival < r.arrival)

/-- R159, R160: a report queued at a stamp: coalesced with a pending one of its kind and subject; else placed with a fresh
arrival number, in a full queue after the oldest report of the lowest class is removed; or discarded where every pending report is
of a higher class. -/
def Reported (st : Stamp) (k : ReportKind) (subject value : Nat) (before after : List Report × Nat) : Prop :=
  ((∃ r ∈ before.1, r.kind = k ∧ r.subject = subject) →
    after =
      (before.1.map fun r => if r.kind = k ∧ r.subject = subject then { r with value := value, stamp := st } else r,
        before.2)) ∧
  ((∀ r ∈ before.1, ¬(r.kind = k ∧ r.subject = subject)) →
    (before.1.length < 32 →
      Placed { kind := k, subject := subject, value := value, stamp := st, arrival := before.2 } before.1 after.1 ∧
        after.2 = before.2 + 1) ∧
    (32 ≤ before.1.length →
      ((∀ r ∈ before.1, k.cls < r.kind.cls) → after = before) ∧
      (∀ v, OldestOfLowest v before.1 → v.kind.cls ≤ k.cls → before.1.Pairwise reportBefore →
        Placed { kind := k, subject := subject, value := value, stamp := st, arrival := before.2 } (before.1.erase v) after.1 ∧
          after.2 = before.2 + 1)))

/-- R159: several reports of one subject queued one after another, each by its kind and value. -/
def ReportedAll (st : Stamp) (subject : Nat) : List (ReportKind × Nat) → List Report × Nat → List Report × Nat → Prop
  | [], before, after => after = before
  | r :: rs, before, after => ∃ m, Reported st r.1 subject r.2 before m ∧ ReportedAll st subject rs m after

/-- R159: reports of one kind and value queued one after another, each by its subject. -/
def ReportedEach (st : Stamp) (k : ReportKind) (value : Nat) : List Nat → List Report × Nat → List Report × Nat → Prop
  | [], before, after => after = before
  | n :: ns, before, after => ∃ m, Reported st k n value before m ∧ ReportedEach st k value ns m after

/-- R8, R10, R12: while the muster line is ASSERTED the phase is ALERT or MUSTER; in NORMAL the drill flag is false; a stand-down
hold runs, and a hold run-out mark stands, in STAND_DOWN alone. -/
structure State.PhaseOk (s : State) : Prop where
  line : s.ship.line = true → s.ship.phase = .alert ∨ s.ship.phase = .muster
  drill : s.ship.phase = .normal → s.ship.drill = false
  hold : s.ship.hold.isSome = true → s.ship.phase = .standDown
  runOut : s.ship.holdRunOut = true → s.ship.phase = .standDown

/-- R153, R156: the forward queues hold at most 16 frames and the reply queue at most 4 replies. -/
def State.LinkOk (s : State) : Prop :=
  s.fore.queue.length ≤ Config.forwardQueueCapacity ∧ s.aft.queue.length ≤ Config.forwardQueueCapacity ∧
    s.replies.length ≤ Config.replyQueueCapacity

/-- R64: the table order of two entries: by absolute start and then by entry id. -/
abbrev ProgEntry.Earlier (e f : ProgEntry) : Prop :=
  e.day * 1440 + e.start < f.day * 1440 + f.start ∨ (e.day * 1440 + e.start = f.day * 1440 + f.start ∧ e.id < f.id)

/-- R64: the programme table in increasing (absolute start, id) order with no id twice, every id 1..65535, at most 256
entries. -/
def State.ProgrammeOk (s : State) : Prop :=
  s.programme.Pairwise ProgEntry.Earlier ∧ (s.programme.map (·.id)).Nodup ∧
    (∀ e ∈ s.programme, 1 ≤ e.id ∧ e.id ≤ 65535) ∧ s.programme.length ≤ Config.programmeCapacity

/-- R172: a locked region. -/
def State.lockedAt (s : State) (i : Fin 8) (r : Region) : Prop := s.regions[i] = r ∧ r.lock = true

/-- R128: the quiet-in-force copy of the string controllers agrees with the Ship State Unit. -/
def State.QuietOk (s : State) : Prop := s.quietCopy = s.ship.quiet

/-- R19: a minute of day lies between quiet start and quiet end, across midnight where the start is the later. -/
def NodeParams.QuietMinute (n : NodeParams) (minute : Nat) : Prop :=
  (n.quietStart < n.quietEnd ∧ n.quietStart ≤ minute ∧ minute < n.quietEnd) ∨
    (n.quietEnd < n.quietStart ∧ (n.quietStart ≤ minute ∨ minute < n.quietEnd))

/-- R19: quiet hours are in force exactly while the phase is NORMAL, the clock is VALID and its minute is a quiet one. -/
def State.QuietInForce (s : State) : Prop :=
  s.ship.quiet = true ↔ s.ship.phase = .normal ∧ s.ship.valid = true ∧ s.node.QuietMinute s.ship.minute

/-- R80, R85: a cabin number is 1..65535; DND and MUR are never set together; in NORMAL ASSIST and SWEPT are clear. -/
def State.CabinsOk (s : State) : Prop :=
  ∀ e ∈ s.cabins, (1 ≤ e.2.number ∧ e.2.number ≤ 65535) ∧ ¬(e.2.dnd = true ∧ e.2.mur = true) ∧
    (s.ship.phase = .normal → e.2.assist = false ∧ e.2.swept = false)

/-- R131: the order of two places of a queue: SAFETY by display class number and then entry stamp, SERVICE and ROUTINE by entry
stamp alone. -/
def State.StandsBefore (s : State) (u : Urgency) (e f : QEntry) : Prop :=
  (u ≠ .safety → e.stamp < f.stamp) ∧
    (u = .safety → ∀ x y, s.display e.display = some x → s.display f.display = some y →
      x.cfg.cls.code < y.cfg.cls.code ∨ (x.cfg.cls.code = y.cfg.cls.code ∧ e.stamp < f.stamp))

/-- R131: the entry stamps that a string holds: those of its queues and the return place of its transaction. -/
def StringCtl.stamps (c : StringCtl) : List Nat :=
  (c.safety ++ c.service ++ c.routine).map (·.stamp) ++ ((c.txn.bind (·.place)).map (·.2)).toList

/-- R129, R131: the strings, their queues and the displays agree. -/
structure State.StringsOk (s : State) : Prop where
  /-- R129: a string is OPEN or HOLDING exactly while a transaction is in flight on it. -/
  flight : ∀ k, ((s.str k).state = .opened ∨ (s.str k).state = .holding) ↔ (s.str k).txn.isSome = true
  /-- R129: the display of a transaction is present on that string and OPEN. -/
  inFlight : ∀ k t, (s.str k).txn = some t → ∃ x, s.display t.display = some x ∧ x.cfg.string = k ∧ x.rt.state = .opened
  /-- R129: every OPEN display is the one of its string's transaction, so a string has at most one. -/
  opened : ∀ d x, s.display d = some x → x.rt.state = .opened → ∃ t, (s.str x.cfg.string).txn = some t ∧ t.display = d
  /-- R139, R144, R145: a poll stands at its one step, a probe at SELECT. -/
  steps : ∀ k t, (s.str k).txn = some t → (t.kind = .poll ↔ t.step = .poll) ∧ (t.kind = .probe → t.step = .select)
  /-- R131: a QUEUED display is in the queue that its urgency and its string name. -/
  queued : ∀ d x u, s.display d = some x → x.rt.state = .queued u → ∃ e ∈ (s.str x.cfg.string).queue u, e.display = d
  /-- R131: what stands in a queue is a present display of that string, QUEUED there: it is in no other queue. -/
  waiting : ∀ k u, ∀ e ∈ (s.str k).queue u, ∃ x, s.display e.display = some x ∧ x.cfg.string = k ∧ x.rt.state = .queued u
  /-- R131: a queue holds a display at most once. -/
  once : ∀ k u, ((s.str k).queue u).Pairwise fun e f => e.display ≠ f.display
  /-- R131: SAFETY by class number and then entry stamp, SERVICE and ROUTINE by entry stamp. -/
  order : ∀ k u, ((s.str k).queue u).Pairwise fun e f => s.StandsBefore u e f
  /-- R131: the entry stamps of a string differ and are below its entry counter. -/
  stamps : ∀ k, (s.str k).stamps.Nodup ∧ ∀ n ∈ (s.str k).stamps, n < (s.str k).counter
  /-- R21, R22: no two displays share a place, and every position is 1..63. -/
  places : ∀ d x e y, s.display d = some x → s.display e = some y → x.cfg.string = y.cfg.string →
    x.cfg.position = y.cfg.position → d = e
  positions : ∀ d x, s.display d = some x → 1 ≤ x.cfg.position ∧ x.cfg.position ≤ 63

/-- The canonical form of a table: its indices strictly rise, so that each index is listed once. -/
def Tab.Rising {α : Type} (t : Tab α) : Prop := t.Pairwise fun p q => p.1 < q.1

/-- The tables addressed by index are in canonical form: rising, and with no entry listed that reads as an unlisted one does, so
that equal contents are equal data. -/
structure State.TablesOk (s : State) : Prop where
  closures : Tab.Rising s.ship.closures ∧ ∀ e ∈ s.ship.closures, e.2 ≠ .unknown
  displays : Tab.Rising s.displays ∧ ∀ e ∈ s.displays, Tab.Rising e.2.rt.held
  nodes : Tab.Rising s.nodes
  segments : Tab.Rising s.segments
  dests : Tab.Rising s.dests ∧ ∀ e ∈ s.dests, Tab.Rising e.2.cells ∧ ∀ c ∈ e.2.cells, c.2 ≠ unlistedCell
  lists : Tab.Rising s.lists ∧ ∀ e ∈ s.lists, e.2 ≠ []
  cabins : Tab.Rising s.cabins
  lossReported : Tab.Rising s.lossReported ∧ ∀ e ∈ s.lossReported, e.2 ≠ 0
  notices : Tab.Rising s.notices
  templates : Tab.Rising s.templates
  selection : Tab.Rising s.selection
  texts : Tab.Rising s.texts ∧ ∀ e ∈ s.texts, e.2 ≠ []

/-! ### Arrivals -/

/-- R151: a frame with this arrival is examined: it comes on an UP port and is none of the 820's own. -/
def State.Receives (s : State) (a : Arrival) : Prop :=
  (s.port a.port).up = true ∧ ¬(a.origin = originController ∧ s.address = some a.node)

/-- R152: the destinations that concern the 820. -/
def State.ConcernedBy (s : State) (dest : Nat) : Prop :=
  s.address = some dest ∨ (∃ g, s.node.zoneGroup = some g ∧ dest = 240 + g) ∨ dest = 255

/-- R154: a BRIDGE frame that concerns the 820 arrives on an UP port. -/
def State.Hears (s : State) (a : Arrival) : Prop :=
  (s.port a.port).up = true ∧ a.origin = originBridge ∧ s.ConcernedBy a.dest

/-- R155: the sequences that are taken. -/
def State.Fresh (s : State) (seq : Nat) : Prop :=
  ∀ w, s.watermark = some w → 1 ≤ (seq + 65536 - w) % 65536 ∧ (seq + 65536 - w) % 65536 ≤ 32767

/-- R156: a node-addressed request of one of the four origin classes arrives while the reply queue has room. -/
def State.Asked (s : State) (a : Arrival) : Prop :=
  s.Receives a ∧ a.origin ≤ originController ∧ s.address = some a.dest ∧ s.replies.length < Config.replyQueueCapacity

/-- R156, R157: the state with one more reply owed, of a result code, the request kind it answers and data. -/
def State.answered (s : State) (a : Arrival) (code kind : Nat) (data : List Byte) : State :=
  { s with
    replies := s.replies ++
      [{ port := a.port, dest := if 1 ≤ a.node ∧ a.node ≤ 239 then a.node else 255, seq := a.seq,
         body := byteOf code :: byteOf kind :: data }] }

/-- R171: an enabled region of a table that holds an index. -/
def Region.Matches (r : Region) (t i : Nat) : Prop := r.table = some t ∧ r.first ≤ i ∧ i ≤ r.last

/-- R171: the region of number `n` decides for an entry: it is the lowest-numbered one that matches. -/
def State.DecidedBy (s : State) (n : Fin 8) (t i : Nat) : Prop :=
  (s.regions[n]).Matches t i ∧ ∀ m : Fin 8, m < n → ¬(s.regions[m]).Matches t i

/-- R171: what a region decides for an origin, given its three bits: an unlocked one never bars the BRIDGE, a locked one gives it
exactly its bit. -/
def Region.Lets (r : Region) (origin : Nat) (content maintenance bridge : Bool) : Prop :=
  (origin = originBridge ∧ (r.lock = false ∨ bridge = true)) ∨ (origin = originContent ∧ content = true) ∨
    (origin = originMaintenance ∧ maintenance = true)

/-- R170, R171: an origin may read an entry. CONTROLLER may read every entry; for the others the deciding region says, and where no
region matches every origin may. -/
def State.ReadAccess (s : State) (origin t i : Nat) : Prop :=
  origin = originController ∨ (∀ n : Fin 8, ¬(s.regions[n]).Matches t i) ∨
    ∃ n : Fin 8, s.DecidedBy n t i ∧
      (s.regions[n]).Lets origin (s.regions[n]).readContent (s.regions[n]).readMaintenance (s.regions[n]).readBridge

/-- R170 to R172: an origin may write and clear an entry. CLOSURES and ROUTES, the fixed templates, the entry of a locked region and
the origin CONTROLLER are barred whatever a region says; else the deciding region says, and where none matches BRIDGE and MAINTENANCE
may, and CONTENT in PROGRAMME, CABINS, NOTICES and TEXTS. -/
def State.WriteAccess (s : State) (origin t i : Nat) : Prop :=
  t ≤ 13 ∧ (t = 11 → 16 ≤ i) ∧ (t = 13 → (s.region i).lock = false) ∧
    (((∀ n : Fin 8, ¬(s.regions[n]).Matches t i) ∧
        (origin = originBridge ∨ origin = originMaintenance ∨ (origin = originContent ∧ t ∈ [7, 8, 9, 10]))) ∨
      ∃ n : Fin 8, s.DecidedBy n t i ∧
        (s.regions[n]).Lets origin (s.regions[n]).writeContent (s.regions[n]).writeMaintenance (s.regions[n]).writeBridge)

/-- R164: the number of indices of each table's range, by the table's id. -/
def tableRanges : List Nat := [1, 512, 8, 256, 1024, 32, 64, 65536, 384, 64, 4096, 64, 36, 8, 128, 8192]

/-- R170 to R172, R174: access and phase let an origin write an entry. (The fields of CABINS that the phase gates besides are said where
a WRITE of it is.) -/
def State.MayChange (s : State) (a : Arrival) (t i : Nat) : Prop :=
  s.WriteAccess a.origin t i ∧
    (s.ship.phase = .alert ∨ s.ship.phase = .muster → a.origin = originBridge ∨ t ∉ [1, 2, 3, 4, 5, 11, 12])

/-- R170 to R172, R174: access and phase let an origin clear an entry. -/
def State.MayClear (s : State) (a : Arrival) (t i : Nat) : Prop :=
  s.WriteAccess a.origin t i ∧
    (s.ship.phase = .alert ∨ s.ship.phase = .muster → a.origin = originBridge ∨ t ∉ [1, 2, 3, 4, 5, 8, 11, 12])

/-- R166: a CLEAR_TABLE reaches an index: of PROGRAMME a present id, of TEMPLATES 16..63, of any other table its range. -/
def State.ClearReaches (s : State) (t i : Nat) : Prop :=
  if t = 7 then ∃ e ∈ s.programme, e.id = i else i < tableRanges.getD t 0 ∧ (t = 11 → 16 ≤ i)

/-- R165: the highest field number of each table that can be written, by the table's id. -/
def tableFields : List Nat := [22, 13, 3, 1, 9, 3, 1, 8, 7, 6, 1, 2, 1, 10]

/-! ### Warm restart (R175) -/

/-- R32, R63, R95, R140, R146, R147, R162: what a warm restart leaves of a state. -/
structure State.Restarted (s t : State) : Prop where
  reports : t.reports = []
  ports : ∀ p, t.port p = { s.port p with queue := [], sending := none }
  strings : ∀ k, (t.str k).state = .idle ∧ (t.str k).txn = none ∧ (t.str k).safety = [] ∧ (t.str k).service = [] ∧
    (t.str k).run = 0 ∧ (t.str k).cursor = 0 ∧ (t.str k).enabled = (s.str k).enabled ∧
    (t.str k).timeout = (s.str k).timeout ∧ (t.str k).pollPeriod = (s.str k).pollPeriod
  /-- R140, R146: a dispatch or a probe cut short sends RELEASE under the next tag; a poll and an IDLE or HELD string send
  nothing and keep the tag. -/
  messages : ∀ k,
    ((∃ x, (s.str k).txn = some x ∧ x.kind ≠ .poll) →
      (t.str k).tag = ((s.str k).tag + 1) % 256 ∧ (t.str k).lineOut = stringBytes (s.str k).tag 4 []) ∧
    ((∀ x, (s.str k).txn = some x → x.kind = .poll) →
      (t.str k).tag = (s.str k).tag ∧ (t.str k).lineOut = (s.str k).lineOut)
  /-- R32, R146: each ROUTINE queue holds the present displays of its string in increasing index order, each under the next stamp
  of the entry counter, which is kept. -/
  refilled : s.TablesOk → ∀ (k : StringNo) (ds : List Nat), ds = (s.displays.filter fun e => e.2.cfg.string = k).map (·.1) →
    ds.Pairwise (· < ·) ∧
      (t.str k).routine = ds.mapIdx (fun n d => { display := d, stamp := (s.str k).counter + n }) ∧
      (t.str k).counter = (s.str k).counter + ds.length
  dests : ∀ n, Tab.fetch t.dests n =
    (Tab.fetch s.dests n).map fun e => { e with status := .pending, sweeps := 0, cells := [] }
  lossReported : t.lossReported = []
  cabins : t.cabins = s.cabins.map fun e => (e.1, { e.2 with assist := false, swept := false })
  displays : ∀ d, t.display d =
    (s.display d).map fun x =>
      { x with
        rt := { x.rt with
          state := .queued .routine, stale := none, digest := none, failures := 0, fault := none, lastFail := none,
          held := [] } }
  rest : { t with
      replies := s.replies, reports := s.reports, fore := s.fore, aft := s.aft, strings := s.strings, dests := s.dests,
      lossReported := s.lossReported, cabins := s.cabins, displays := s.displays } = s

/-! ### Messages and replies (R140, R141, R144, R145) -/

/-- R141, R144, R145, R181: the code and the payload of the message of a transaction's step. -/
def State.Message (s : State) (t : Txn) (code : Nat) (payload : List Byte) : Prop :=
  (t.step = .select ∧ code = 1 ∧ ∃ x, s.display t.display = some x ∧ payload = [byteOf x.cfg.position]) ∨
    (t.step = .screen ∧ code = 2 ∧ ∃ digest, t.kind = .dispatch payload digest) ∨
    (t.step = .commit ∧ code = 3 ∧ payload = []) ∨
    (t.step = .poll ∧ code = 5 ∧ ∃ x, s.display t.display = some x ∧ payload = [byteOf x.cfg.position])

/-- R141, R144, R145: the replies that the message of a step expects, besides the NAK that rejects it. -/
def TxnStep.Expects : TxnStep → StringReply → Prop
  | .select, .ready _ => True
  | .select, .busy _ => True
  | .screen, .ack => True
  | .commit, .refresh _ => True
  | .poll, .events _ => True
  | _, _ => False

/-- R181: the reply codes: READY, BUSY, ACK, NAK, REFRESH and EVENTS. -/
def replyCodes : List Nat := [129, 130, 131, 132, 133, 134]

/-- R181: the payload length that a code of its table gives; SCREEN's is the record's, and the codes that the table does not have
give none. -/
def payloadLength (code : Nat) : Option Nat :=
  match code with
  | 1 => some 1
  | 3 => some 0
  | 4 => some 0
  | 5 => some 1
  | 129 => some 1
  | 130 => some 2
  | 131 => some 0
  | 132 => some 0
  | 133 => some 2
  | _ => none

/-! ### Displays put back, and presses -/

/-- R132: the update state of a display put back from a transaction: its place, if it had one, raised by a stale mark. -/
def stateBack (place : Option (Urgency × Nat)) (stale : Option Urgency) : UpdateState :=
  match place, stale with
  | none, none => .clean
  | none, some v => .queued v
  | some (u, _), none => .queued u
  | some (u, _), some v => .queued (if u.code ≤ v.code then u else v)

/-- R87: one press at an OCCUPIED cabin in NORMAL or STAND_DOWN, on (DND, MUR). -/
def pressed (f : Bool × Bool) (button : Nat) : Bool × Bool :=
  match button with
  | 0 => (!f.1, f.2 && f.1)
  | 1 => (f.1 && f.2, !f.2)
  | _ => f

/-- R87: the reports of one press at an OCCUPIED cabin in NORMAL or STAND_DOWN, on (DND, MUR). -/
def pressReports (f : Bool × Bool) (button : Nat) : List (ReportKind × Nat) :=
  match button with
  | 0 => if f.1 then [(.dndChange, 0)] else if f.2 then [(.dndChange, 1), (.murChange, 0)] else [(.dndChange, 1)]
  | 1 => if f.2 then [(.murChange, 0)] else if f.1 then [(.murChange, 1), (.dndChange, 0)] else [(.murChange, 1)]
  | 2 => [(.serviceCall, 0)]
  | _ => []

/-- R86, R87: the reports of several presses, in their order. -/
def pressesReports (f : Bool × Bool) : List Nat → List (ReportKind × Nat)
  | [] => []
  | b :: bs => pressReports f b ++ pressesReports (pressed f b) bs

/-! ### Muster route loss (R92, R93) -/

/-- R92: the loss count of a destination by its cells: the cabins that name it, are linked, and whose display stands at an
UNREACHABLE node. -/
def State.lossAt (s : State) (d : Nat) (cells : Tab Cell) : Nat :=
  (s.cabins.filter fun e =>
    e.2.station == some d &&
      match s.display e.2.display with
      | some x => x.cfg.cls == .cabin && (cellAt cells x.cfg.node).effort == none
      | none => false).length

/-- R92, R159: what a recount changes: the last reported counts, and the Report Queue. -/
def State.losses (s : State) : Tab Nat × (List Report × Nat) := (s.lossReported, s.reporting)

/-- R93: destination `d` recounted in the state `t` that the change leaves: only while it is a present, SETTLED muster station
does its count become the last reported one, with a MUSTER_ROUTE report where it differs. -/
def State.Recounts (t : State) (st : Stamp) (d : Nat) (before after : Tab Nat × (List Report × Nat)) : Prop :=
  (∀ e, Tab.fetch t.dests d = some e → e.kind = .musterStation → e.status = .settled →
    (∀ j, Tab.fetchD after.1 j 0 = if j = d then t.lossAt d e.cells else Tab.fetchD before.1 j 0) ∧
      (Tab.fetchD before.1 d 0 = t.lossAt d e.cells → after = before) ∧
      (Tab.fetchD before.1 d 0 ≠ t.lossAt d e.cells → Reported st .musterRoute d (t.lossAt d e.cells) before.2 after.2)) ∧
  ((∀ e, Tab.fetch t.dests d = some e → e.kind ≠ .musterStation ∨ e.status ≠ .settled) → after = before)

/-- R93: the muster station of a cabin recounted, if it has one. -/
def State.RecountsStation (t : State) (st : Stamp) (station : Option Nat) (before after : Tab Nat × (List Report × Nat)) :
    Prop :=
  match station with
  | some d => t.Recounts st d before after
  | none => after = before

/-- R84, R93, R166: displays removed one after another, in the order of the list, and after each the muster station of the cabin that
names it recounted, with the displays that are then left. -/
def State.RecountsRemoved (t : State) (st : Stamp) : Tab Display → Tab Nat × (List Report × Nat) →
    Tab Nat × (List Report × Nat) → Prop
  | [], before, after => after = before
  | e :: rest, before, after => ∃ mid,
      ({ t with displays := rest } : State).RecountsStation st ((t.cabinNaming e.1).bind fun c => c.2.station) before mid ∧
        t.RecountsRemoved st rest mid after

/-- R69, R72: the status of an entry whose written status is SCHEDULED, RUNNING, ENDED or CANCELLED, set against the clock (none
while it is INVALID). -/
def statusAt (now : Option Nat) (start duration : Nat) (written : EntryStatus) : EntryStatus :=
  match now, written with
  | some t, .scheduled => if start + duration ≤ t then .ended else if start ≤ t then .running else .scheduled
  | some t, .running => if start + duration ≤ t then .ended else .running
  | _, st => st

/-- R133 to R135: a queued display can be taken from a queue at this moment. -/
def State.Takeable (s : State) (u : Urgency) (d : Nat) : Prop :=
  ∃ x, s.display d = some x ∧ x.rt.busyUntil ≤ s.now ∧
    (u = .safety ∨ ∀ c, x.rt.lastCommit = some c → c + 1000 * s.node.minRefresh.toList.getD x.cfg.cls.code 0 ≤ s.now)

/-- R136: a display is due for a poll on a string. -/
def State.PollDue (s : State) (k : StringNo) (x : Display) : Prop :=
  x.cfg.string = k ∧ x.cfg.cls = .cabin ∧ x.rt.state ≠ .faulted ∧ x.rt.fault = none ∧ x.rt.state ≠ .opened ∧
    ∀ p, x.rt.lastPoll = some p → p + (s.str k).pollPeriod ≤ s.now

/-- R137: a display is due for a probe on a string. -/
def State.ProbeDue (s : State) (k : StringNo) (x : Display) : Prop :=
  x.cfg.string = k ∧ x.rt.state = .faulted ∧ ∀ f, x.rt.lastFail = some f → f + 30000 ≤ s.now

/-! ### Fields of NODE (R167) -/

/-- R167: the numeric NODE fields with their ranges. -/
def nodeRanges : List (Nat × Nat × Nat) :=
  [(1, 10, 900), (2, 2, 60), (3, 0, 1439), (4, 0, 1439), (5, 300, 1500), (6, 1, 63), (7, 1, 63), (8, 1, 63), (9, 1, 63),
   (10, 1, 63), (11, 0, 240), (12, 0, 600), (13, 0, 600), (14, 0, 600), (15, 0, 600), (16, 0, 600), (17, 0, 600),
   (18, 0, 255), (19, 0, 14), (20, 1, 255), (21, 0, 1), (22, 1, 63)]

/-! ### What comes of the 820's own accord (log entry 1) -/

/-- An event of the 820's own is due: the filter of R7, the second of R3, the hold of R12 or the silence of R15 has run out; a line
signal has lasted its time (R148); an UP port that sends nothing has something to send (R158, R161); a reply timeout has run out
(R140); a string takes what it is offered (R133); or the solver is free and has a destination to take (R49). -/
def State.Due (s : State) : Instr → Prop
  | .musterLineChange => s.ship.raw ≠ s.ship.line ∧ s.ship.rawSince + 200 ≤ s.now
  | .clockSecondAdvance => s.ship.valid = true ∧ s.ship.subSecond + 1000 ≤ s.now
  | .standDownHoldExpiry => ∃ t, s.ship.hold = some t ∧ t ≤ s.now
  | .bridgeSilenceExpiry => ∃ t, s.ship.silence = some t ∧ t ≤ s.now
  | .portUp p => (s.port p).up = false ∧ (s.port p).signal = true ∧ (s.port p).signalSince + 100 ≤ s.now
  | .portDown p => (s.port p).up = true ∧ (s.port p).signal = false ∧ (s.port p).signalSince + 10 ≤ s.now
  | .transmitBegin p => (s.port p).up = true ∧ (s.port p).sending = none ∧
      ((s.port p).queue ≠ [] ∨ (∃ r ∈ s.replies, r.port = p) ∨
        (s.reports ≠ [] ∧ (s.node.reportPort = p ∨ (s.port s.node.reportPort).up = false)))
  | .replyTimeout k => ∃ t, (s.str k).txn = some t ∧ t.sentAt + (s.str k).timeout ≤ s.now
  | .dispatchTake k => ∃ d u n, s.offer k = some (.dispatch d u n)
  | .pollTake k => ∃ d, s.offer k = some (.poll d)
  | .probeTake k => ∃ d, s.offer k = some (.probe d)
  | .solverTake => (∀ e ∈ s.dests, e.2.status ≠ .solving) ∧ ∃ e ∈ s.dests, e.2.status = .pending ∨ e.2.status = .suspended
  | _ => False

/-- What is under way for a time that the spec does not give ends: a sweep, or a transmission (log entry 22). -/
def State.UnderWay (s : State) : Instr → Prop
  | .sweepEnd => ∃ e ∈ s.dests, e.2.status = .solving
  | .transmitEnd p => (s.port p).sending ≠ none
  | _ => False

/-! ### The solver's order (R49) -/

/-- R49: how soon the solver takes a destination, lower first; none for one that it does not take. In ALERT and MUSTER PENDING
muster stations go before everything; SUSPENDED destinations go before the other PENDING ones. -/
def solverRank (p : Phase) (t : Dest) : Option Nat :=
  match t.status with
  | .pending => if (p = .alert ∨ p = .muster) ∧ t.kind = .musterStation then some 0 else some 2
  | .suspended => some 1
  | .solving => none
  | .settled => none

/-- R45: the traversals of a segment are passable. -/
def State.Passable (s : State) (g : Segment) : Prop :=
  g.enabled = true ∧ (∃ deck, Tab.fetch s.nodes g.a = some deck) ∧ (∃ deck, Tab.fetch s.nodes g.b = some deck) ∧
    (∀ c, g.closure = some c → Tab.fetchD s.ship.closures c .unknown ≠ .closed) ∧
    (g.kind = .lift → s.ship.phase = .normal ∨ s.ship.phase = .standDown) ∧
    (g.musterOnly = true → s.ship.phase = .alert ∨ s.ship.phase = .muster)

/-- R46: the weight of a kind of segment, walked b→a where `back`. -/
def NodeParams.walkWeight (n : NodeParams) : SegmentKind → Bool → Nat
  | .corridor, _ => n.wCorridor
  | .stair, false => n.wStairUp
  | .stair, true => n.wStairDown
  | .lift, _ => n.wLift
  | .openDeck, _ => n.wOpenDeck

/-- R46: the effort of a traversal. -/
def NodeParams.walkEffort (n : NodeParams) (g : Segment) (back : Bool) : Nat :=
  max 1 ((g.length * n.walkWeight g.kind back + 4) / 8)

/-- R47: the traversals that a sweep tries, in its order: of each segment in index order a→b and then, where it is offered, b→a; each
by its next hop and its segment. -/
def traversals (t : Tab Segment) : List (Hop × Segment) :=
  t.flatMap fun e =>
    ({ segment := e.1, back := false }, e.2) :: if e.2.oneWay then [] else [({ segment := e.1, back := true }, e.2)]

/-- R47: the candidate of a passable traversal from `u` to `v` is taken: the far node is not UNREACHABLE, and the candidate is at most
65534 and strictly less than the effort of `u`, or `u` is UNREACHABLE. -/
def State.Betters (s : State) (h : Hop) (g : Segment) (u v : Nat) (cells : Nat → Cell) (candidate : Nat) : Prop :=
  s.Passable g ∧ u = (if h.back then g.b else g.a) ∧ v = (if h.back then g.a else g.b) ∧
    (∃ far, (cells v).effort = some far ∧ candidate = s.node.walkEffort g h.back + far) ∧ candidate ≤ 65534 ∧
    ∀ own, (cells u).effort = some own → candidate < own

/-- R47: traversals tried one after another, from the cells `before` to the cells `after`, `n` of them taken. One that is taken sets
the cell of its near node, and the later ones read what it has set; one that is not taken leaves every cell. -/
inductive State.Swept (s : State) : List (Hop × Segment) → (before after : Nat → Cell) → (n : Nat) → Prop
  | done (cells : Nat → Cell) : State.Swept s [] cells cells 0
  | taken (h : Hop) (g : Segment) (rest : List (Hop × Segment)) (u v candidate : Nat) (before after : Nat → Cell) (n : Nat)
      (better : s.Betters h g u v before candidate)
      (later : State.Swept s rest
        (fun j =>
          if j = u then
            { effort := some candidate, length := min 65535 (g.length + (before v).length), hop := some h }
          else before j) after n) :
      State.Swept s ((h, g) :: rest) before after (n + 1)
  | passed (h : Hop) (g : Segment) (rest : List (Hop × Segment)) (before after : Nat → Cell) (n : Nat)
      (worse : ∀ u v candidate, ¬s.Betters h g u v before candidate) (later : State.Swept s rest before after n) :
      State.Swept s ((h, g) :: rest) before after n

/-- R45, R46: a present segment offers a passable traversal from node `u` to node `v`, of an effort and a length. -/
def State.Offers (s : State) (h : Hop) (u v effort length : Nat) : Prop :=
  ∃ g, Tab.fetch s.segments h.segment = some g ∧ s.Passable g ∧ (h.back = true → g.oneWay = false) ∧
    u = (if h.back then g.b else g.a) ∧ v = (if h.back then g.a else g.b) ∧ length = g.length ∧
    effort = s.node.walkEffort g h.back

/-- R48: a path of `k` passable traversals and of a total effort `w` leads from a node to one of some targets. -/
def State.Reaches (s : State) (targets : List Nat) : Nat → Nat → Nat → Prop
  | 0, n, w => n ∈ targets ∧ w = 0
  | k + 1, n, w => ∃ h v c l w', s.Offers h n v c l ∧ s.Reaches targets k v w' ∧ w = c + w'

/-- R47: what every sweep keeps of the cells of a destination: effort 0 at its targets; at any other node an effort in 1..65534
that is that of its next hop, or better since the far node improved; or UNREACHABLE with no next hop. -/
structure State.SolveOk (s : State) (t : Dest) : Prop where
  target : ∀ n ∈ t.targets, cellAt t.cells n = { effort := some 0, length := 0, hop := none }
  hop : ∀ n e, n ∉ t.targets → (cellAt t.cells n).effort = some e →
    1 ≤ e ∧ e ≤ 65534 ∧ ∃ h v c l ev, (cellAt t.cells n).hop = some h ∧ s.Offers h n v c l ∧
      (cellAt t.cells v).effort = some ev ∧
      ((e = c + ev ∧ (cellAt t.cells n).length = min 65535 (l + (cellAt t.cells v).length)) ∨ c + ev < e)
  cut : ∀ n, n ∉ t.targets → (cellAt t.cells n).effort = none → (cellAt t.cells n).hop = none

/-- R48: the cells of a SETTLED destination: effort 0 at its targets; at any other node an effort in 1..65534 that its next hop, a
passable traversal, gives with the far node's effort, and the length likewise, or UNREACHABLE; and no passable traversal betters
any of them. -/
structure State.SettledOk (s : State) (t : Dest) : Prop where
  target : ∀ n ∈ t.targets, cellAt t.cells n = { effort := some 0, length := 0, hop := none }
  hop : ∀ n e, n ∉ t.targets → (cellAt t.cells n).effort = some e →
    1 ≤ e ∧ e ≤ 65534 ∧ ∃ h v c l ev, (cellAt t.cells n).hop = some h ∧ s.Offers h n v c l ∧
      (cellAt t.cells v).effort = some ev ∧ e = c + ev ∧
      (cellAt t.cells n).length = min 65535 (l + (cellAt t.cells v).length)
  least : ∀ h u v c l ev, s.Offers h u v c l → (cellAt t.cells v).effort = some ev → c + ev ≤ 65534 →
    ∃ eu, (cellAt t.cells u).effort = some eu ∧ eu ≤ c + ev

/-- R44, R48 to R50: one solve at a time, one suspended solve at most, the cells of each destination, and the bound on the sweeps of
a solve. -/
structure State.SolverOk (s : State) : Prop where
  /-- R44: at most one destination is SOLVING. -/
  one : ∀ d e x y, Tab.fetch s.dests d = some x → Tab.fetch s.dests e = some y → x.status = .solving → y.status = .solving →
    d = e
  /-- R50: at most one destination is SUSPENDED. -/
  suspended : ∀ d e x y, Tab.fetch s.dests d = some x → Tab.fetch s.dests e = some y → x.status = .suspended →
    y.status = .suspended → d = e
  /-- R50: a SUSPENDED destination is no muster station, and the phase is ALERT or MUSTER: the model takes a PHASE notification in
  the step that sends it (log entry 10), so a return to NORMAL or STAND_DOWN has invalidated it. -/
  alarm : ∀ d x, Tab.fetch s.dests d = some x → x.status = .suspended →
    x.kind ≠ .musterStation ∧ (s.ship.phase = .alert ∨ s.ship.phase = .muster)
  /-- R49: while a destination is SUSPENDED only a muster station is SOLVING. -/
  overtaken : ∀ d e x y, Tab.fetch s.dests d = some x → Tab.fetch s.dests e = some y → x.status = .suspended →
    y.status = .solving → y.kind = .musterStation
  /-- R47, R51: the cells of a solve in flight or suspended. -/
  solving : ∀ d x, Tab.fetch s.dests d = some x → x.status = .solving ∨ x.status = .suspended → s.SolveOk x
  /-- R48: the cells of a SETTLED destination. -/
  settled : ∀ d x, Tab.fetch s.dests d = some x → x.status = .settled → s.SettledOk x
  /-- R37: the nodes are at most 256. -/
  nodes : ∀ e ∈ s.nodes, e.1 < 256
  /-- R48: after k sweeps every node has an effort no greater than that of any path of at most k traversals. -/
  walked : ∀ d x, Tab.fetch s.dests d = some x → x.status = .solving ∨ x.status = .suspended →
    ∀ k ≤ x.sweeps, ∀ n w, s.Reaches x.targets k n w → w ≤ 65534 → ∃ e, (cellAt x.cells n).effort = some e ∧ e ≤ w
  /-- R48: a solve that is not over has taken at most 255 sweeps. -/
  bounded : ∀ d x, Tab.fetch s.dests d = some x → x.status = .solving ∨ x.status = .suspended → x.sweeps ≤ 255
  /-- R48: no solve takes more than 256 sweeps, the final sweep included. -/
  final : ∀ d x, Tab.fetch s.dests d = some x → x.status = .settled → x.sweeps ≤ 256

/-- R50, R52: every destination of `s` has been invalidated in `t`: PENDING with sweep count 0 and all else as it was, but for the
kept work of a SUSPENDED one, which is discarded. -/
def State.InvalidatesAll (s t : State) : Prop :=
  ∀ i, (Tab.fetch s.dests i = none → Tab.fetch t.dests i = none) ∧
    ∀ e, Tab.fetch s.dests i = some e →
      ∃ cells, Tab.fetch t.dests i = some { e with status := .pending, sweeps := 0, cells := cells } ∧
        (e.status ≠ .suspended → cells = e.cells)

/-! ### Route positions (R58, R60) -/

/-- R58: position `p` of a display refers to destination `n`: the item of its list, or the muster station of its linked cabin. -/
def State.RoutePosition (s : State) (d : Nat) (x : Display) (p n : Nat) : Prop :=
  (p < 8 ∧ ∃ l, x.cfg.list = some l ∧ (Tab.fetchD s.lists l [])[p]? = some n) ∨
    (p = 8 ∧ x.cfg.cls = .cabin ∧ ∃ i c, s.cabinNaming d = some (i, c) ∧ c.station = some n)

/-- R60: the glyph of a next hop along a segment, seen from a facing. -/
def hopSign (g : Segment) (back : Bool) (facing : Nat) : Glyph :=
  match g.kind with
  | .stair => if back then .stairsDown else .stairsUp
  | .lift => .lift
  | .corridor => .arrow (Fin.ofNat 8 ((((if back then (g.heading + 8) % 16 else g.heading) + 16 - facing) % 16 + 1) / 2))
  | .openDeck => .arrow (Fin.ofNat 8 ((((if back then (g.heading + 8) % 16 else g.heading) + 16 - facing) % 16 + 1) / 2))

/-! ### Marks (R132) -/

/-- R132: the update state that a mark at an urgency leaves: CLEAN becomes QUEUED, and QUEUED rises to a higher urgency. -/
def UpdateState.raised (x : UpdateState) (u : Urgency) : UpdateState :=
  match x with
  | .clean => .queued u
  | .queued v => .queued (if u.code < v.code then u else v)
  | .opened => .opened
  | .faulted => .faulted

/-- R132: what a mark at an urgency makes of a display. While it is OPEN the stale urgency becomes the higher of the two; a FAULTED
display ignores marks. -/
def Display.markedAt (x : Display) (u : Urgency) : Display :=
  { x with
    rt := { x.rt with
      state := x.rt.state.raised u
      stale :=
        if x.rt.state = .opened then
          some (match x.rt.stale with
            | some v => if u.code < v.code then u else v
            | none => u)
        else x.rt.stale } }

/-- R132: the highest of the urgencies that a display is marked at. -/
def Highest (m : Urgency → Prop) (u : Urgency) : Prop := m u ∧ ∀ v, m v → u.code ≤ v.code

/-- R132: between `s` and `t` a display of a string has entered a queue, or has risen to a higher one. -/
def State.Rises (s t : State) (k : StringNo) (d : Nat) : Prop :=
  ∃ x y, s.display d = some x ∧ t.display d = some y ∧ x.cfg.string = k ∧ y.rt.state ≠ x.rt.state

/-- R132: the displays and strings of `t` are those of `s` after one step's marks, `m` giving the urgencies at which each display is
marked: each marked display is marked once, at the highest of them, and no other changes. A string changes in its queues and its
entry counter alone, and only by the displays that rise: in increasing index order each takes a fresh stamp, with which it stands in
its new queue, and leaves the queue it was in; every other place is kept. -/
structure State.Marks (s t : State) (m : Nat → Display → Urgency → Prop) : Prop where
  absent : ∀ d, s.display d = none → t.display d = none
  unmarked : ∀ d x, s.display d = some x → (∀ u, ¬m d x u) → t.display d = some x
  marked : ∀ d x u, s.display d = some x → Highest (m d x) u → t.display d = some (x.markedAt u)
  strings : ∀ k, t.str k =
    { s.str k with
      safety := (t.str k).safety, service := (t.str k).service, routine := (t.str k).routine,
      counter := (t.str k).counter }
  still : ∀ k, (∀ d, ¬s.Rises t k d) → t.str k = s.str k
  places : ∀ k u e, ¬s.Rises t k e.display → (e ∈ (t.str k).queue u ↔ e ∈ (s.str k).queue u)
  indices : Tab.Rising s.displays → t.displays.map (·.1) = s.displays.map (·.1)
  order : Tab.Rising s.displays → ∀ k, ∃ ds : List Nat, ds.Pairwise (· < ·) ∧ (∀ d, d ∈ ds ↔ s.Rises t k d) ∧
    (t.str k).counter = (s.str k).counter + ds.length ∧
    ∀ (n d : Nat) (x y : Display) (u : Urgency), ds[n]? = some d → s.display d = some x → t.display d = some y →
      y.rt.state = .queued u →
      ∀ v e, e.display = d →
        (e ∈ (t.str k).queue v ↔
          (v = u ∧ e.stamp = (s.str k).counter + n) ∨ (x.rt.state ≠ .queued v ∧ e ∈ (s.str k).queue v))

/-- R166: several rounds of marks one after another, each as `State.Marks` says, and nothing else of the displays and strings. -/
def State.MarksEach (s t : State) : List (Nat → Display → Urgency → Prop) → Prop
  | [] => t.displays = s.displays ∧ t.strings = s.strings
  | m :: ms => ∃ r : State, s.Marks r m ∧ r.MarksEach t ms

/-- The urgency of R16, R24 and R55. -/
def emergencyUrgency (p : Phase) : Urgency := if p = .alert ∨ p = .muster then .safety else .routine

/-- R129, R130: the state of a string once it is freed. -/
def freedState : StringState → StringState
  | .idle => .idle
  | .opened => .opened
  | .holding => .opened
  | .held => .idle

/-- R10, R12, R13, R19, R53, R91, R128, R130: the phase `r` has been entered from another one, `t` being what it leaves of `s`. -/
structure State.Entered (s t : State) (r : Phase) (drill : Bool) : Prop where
  /-- R10, R12: the drill flag is false in NORMAL; the hold starts in STAND_DOWN and is abandoned elsewhere. Nothing else of the Ship
  State Unit changes, but quiet hours. -/
  ship : t.ship =
    { s.ship with
      phase := r
      drill := if r = .normal then false else drill
      hold := if r = .standDown then some (s.now + s.node.holdTime * 1000) else none
      holdRunOut := false
      quiet := t.ship.quiet }
  /-- R19, R128: quiet hours are judged anew, and a change of them is copied. -/
  quiet : t.QuietInForce
  copied : t.quietCopy = if t.ship.quiet = s.ship.quiet then s.quietCopy else t.ship.quiet
  /-- R53. -/
  invalidated : ¬(r = .alert ∨ r = .muster ↔ s.ship.phase = .alert ∨ s.ship.phase = .muster) → s.InvalidatesAll t
  routes : (r = .alert ∨ r = .muster ↔ s.ship.phase = .alert ∨ s.ship.phase = .muster) → t.dests = s.dests
  /-- R91. -/
  cabins : t.cabins =
    if r = .normal then s.cabins.map fun e => (e.1, { e.2 with assist := false, swept := false }) else s.cabins
  /-- R13, R130, R132: on entry to ALERT or MUSTER every string is freed; every present display is marked, at the urgency of the
  change; and nothing else of the displays and the strings changes. What the end of quiet hours marks, it marks at no higher one. -/
  marks : ∃ m : State,
    (∀ k, m.str k = { s.str k with
      state := if r = .alert ∨ r = .muster then freedState (s.str k).state else (s.str k).state }) ∧
    { m with strings := s.strings } = s ∧
    m.Marks t fun _ _ u => u =
      (if r = .alert ∨ r = .muster then .safety
       else if r = .standDown ∨ s.ship.phase = .alert then .service
       else .routine)
  rest : { t with ship := s.ship, dests := s.dests, cabins := s.cabins, displays := s.displays, strings := s.strings,
                  quietCopy := s.quietCopy } = s

/-- R1, R15, R16, R155: what taking a bulletin with sequence `seq` does whatever its kind, the forward queues as `t` has them:
the watermark moves, the bridge-silence timer starts afresh and LINK_LOST ends. -/
def State.heard (s t : State) (seq : Nat) : State :=
  { s with
    watermark := some seq, fore := t.fore, aft := t.aft
    ship := { s.ship with silence := some (s.now + s.node.silenceTime * 1000), linkLost := false } }

/-- R16: what follows on a bulletin that leaves `m`, in which the timer runs afresh and LINK_LOST is false: nothing where LINK_LOST did
not hold before; where it held, its end marks every display, and a hold that ran out takes effect if the phase is still
STAND_DOWN. -/
def State.LinkRestored (m t : State) (lost : Bool) : Prop :=
  (lost = false → t = m) ∧
    (lost = true →
      (¬(m.ship.phase = .standDown ∧ m.ship.holdRunOut = true) →
        (m.Marks t fun _ _ u => u = emergencyUrgency m.ship.phase) ∧
          { t with displays := m.displays, strings := m.strings } = m) ∧
      (m.ship.phase = .standDown ∧ m.ship.holdRunOut = true → m.Entered t .normal false))

/-- R179: how many bytes follow the kind in a bulletin body, by the layout of its kind and its count; none for a kind above 5. -/
def layoutLength (kind : Nat) (rest : List Byte) : Option Nat :=
  match kind with
  | 0 => some 5
  | 1 => some 2
  | 2 => some (2 + (rest.getD 1 0).toNat)
  | 3 => some 1
  | 4 => some (1 + 2 * (rest.getD 0 0).toNat)
  | 5 => some (1 + 2 * (rest.getD 0 0).toNat)
  | _ => none

/-- R179: a bulletin body that is dropped whole: one of no byte, one of a kind above 5, and one whose length is not the one that the
layout of its kind, with its count, gives. -/
abbrev DroppedBody (body : List Byte) : Prop :=
  body = [] ∨ layoutLength (body.headD 0).toNat body.tail ≠ some body.tail.length

/-- R28: the state `m` is `s` but for held route values: those at the positions that meet a condition are gone, and the others
stay. -/
structure State.HeldCleared (s m : State) (p : Nat → Display → Nat → Prop) : Prop where
  absent : ∀ d, s.display d = none → m.display d = none
  kept : ∀ d x, s.display d = some x → ∃ y, m.display d = some y ∧ y = { x with rt := { x.rt with held := y.rt.held } } ∧
    ∀ q, (p d x q → Tab.fetch y.rt.held q = none) ∧ (¬p d x q → Tab.fetch y.rt.held q = Tab.fetch x.rt.held q)
  indices : m.displays.map (·.1) = s.displays.map (·.1)
  rest : { m with displays := s.displays } = s

/-- R132: a string `c` has become `c'` but for the queues and the entry counter, and only places of display `d` have come or
gone in the queues. -/
def StringCtl.PlacesOf (d : Nat) (c c' : StringCtl) : Prop :=
  c' = { c with safety := c'.safety, service := c'.service, routine := c'.routine, counter := c'.counter } ∧
    ∀ u e, e.display ≠ d → (e ∈ c'.queue u ↔ e ∈ c.queue u)

/-- R129, R140: a string after its transaction ends: OPEN becomes IDLE and HOLDING HELD; with RELEASE, sent under the tag as it
stands, where the transaction ends with one (log entries 17 and 20). -/
def StringCtl.over (c : StringCtl) (release : Bool) : StringCtl :=
  { c with
    txn := none
    state := if c.state = .holding ∨ c.state = .held then .held else .idle
    tag := if release then (c.tag + 1) % 256 else c.tag
    lineOut := if release then stringBytes c.tag 4 [] else c.lineOut }

/-- R131, R132: where display `d`, put back from a transaction and then marked, stands in the queues of its string `home`: at its return
place while it has not risen above it, else with a fresh stamp. -/
def State.PutBack (s t : State) (d : Nat) (home : StringNo) (place : Option (Urgency × Nat)) (now : UpdateState) : Prop :=
  ∀ v, now = .queued v →
    (∀ n, place = some (v, n) →
      { display := d, stamp := n } ∈ (t.str home).queue v ∧ (t.str home).counter = (s.str home).counter) ∧
    ((∀ n, place ≠ some (v, n)) →
      { display := d, stamp := (t.str home).counter - 1 } ∈ (t.str home).queue v ∧
        (s.str home).counter < (t.str home).counter)

/-- The frame of a transaction that ends: string `k` has become `c`; no display but `d` has changed; and of the strings none but
that of the display may have places of it that have come or gone. -/
structure State.EndsTxn (s t : State) (k : StringNo) (c : StringCtl) (d : Nat) (home : StringNo) : Prop where
  displays : ∀ j, j ≠ d → t.display j = s.display j
  strings : ∀ j, j ≠ home → t.str j = if j = k then c else s.str j
  places : (if home = k then c else s.str home).PlacesOf d (t.str home)

/-- R35: the display's effective brightness or screen mode differs between two states. -/
def State.ShowsApart (s t : State) (c : DisplayConfig) : Prop :=
  t.brightness c ≠ s.brightness c ∨ t.screenMode c ≠ s.screenMode c

/-- R19, R42, R167: what the readers of the NODE fields have done where the fields have gone from those of `s` to those of `t`:
every destination invalidated for a changed weight, every display marked for a changed walk rate, and quiet hours judged again for
a changed start or end, with the marks of R35. -/
structure State.NodeTaken (s t : State) : Prop where
  weights : (s.node.weights ≠ t.node.weights → s.InvalidatesAll t) ∧
    (s.node.weights = t.node.weights → t.dests = s.dests)
  quiet : (s.node.quietStart ≠ t.node.quietStart ∨ s.node.quietEnd ≠ t.node.quietEnd →
      t.QuietInForce ∧ t.quietCopy = (if t.ship.quiet = s.ship.quiet then s.quietCopy else t.ship.quiet)) ∧
    (s.node.quietStart = t.node.quietStart → s.node.quietEnd = t.node.quietEnd →
      t.ship = s.ship ∧ t.quietCopy = s.quietCopy)
  still : s.node.walkRate = t.node.walkRate → s.node.quietStart = t.node.quietStart → s.node.quietEnd = t.node.quietEnd →
    t.displays = s.displays ∧ t.strings = s.strings
  marks : s.TablesOk → s.Marks t fun _ x u =>
    (s.node.walkRate ≠ t.node.walkRate ∨ s.ShowsApart t x.cfg) ∧ u = emergencyUrgency s.ship.phase
  ship : { t.ship with quiet := s.ship.quiet } = s.ship
  rest : { t with node := s.node, ship := s.ship, dests := s.dests, displays := s.displays, strings := s.strings,
                  quietCopy := s.quietCopy } = s

/-! ### A clock evaluation (R5, R72, R74, R78, R99, R102, R125) -/

/-- R72: an entry with its status moved at an absolute minute. -/
def ProgEntry.movedAt (e : ProgEntry) (now : Nat) : ProgEntry :=
  { e with status := statusAt (some now) (e.day * 1440 + e.start) e.duration e.status }

/-- R74: an ENDED or CANCELLED entry whose end plus the retention time has come. -/
abbrev ProgEntry.Outlived (e : ProgEntry) (retention now : Nat) : Prop :=
  (e.status = .ended ∨ e.status = .cancelled) ∧ e.day * 1440 + e.start + e.duration + retention ≤ now

/-- R78: an evaluation at `now` concerns a board through an entry: it was in the window at the old now with its old status, or is at
the new one with its new status, and its status moved, it was pruned, or it entered or left the window. -/
def ProgEntry.Concerns (e : ProgEntry) (c : DisplayConfig) (old : Option Nat) (now retention : Nat) : Prop :=
  let was := inWindow c old e = true
  let is := ¬(e.movedAt now).Outlived retention now ∧ inWindow c (some now) (e.movedAt now) = true
  (was ∨ is) ∧ ((e.movedAt now).status ≠ e.status ∨ (e.movedAt now).Outlived retention now ∨ ¬(was ↔ is))

/-- R96: a configuration in the scope of a notice: the bit of its class and the bit of its deck are set. -/
abbrev Notice.InScope (n : Notice) (c : DisplayConfig) : Prop :=
  n.classMask.toNat.testBit c.cls.code = true ∧ n.deckMask.toNat.testBit c.deck = true

/-- R98: a priority above the phase floor. -/
def Notice.AboveFloor (n : Notice) (p : Phase) : Prop := 0 < n.priority ∧ (p = .alert ∨ p = .muster → 11 < n.priority)

/-- R98, R102: a notice counts, and a configuration is in its scope. -/
def Notice.CountsFor (n : Notice) (p : Phase) (c : DisplayConfig) : Prop :=
  n.current = true ∧ n.AboveFloor p ∧ n.InScope c

/-- R102: the urgency of a notice mark, by the phase and the priority. -/
def noticeUrgencyAt (p : Phase) (priority : Nat) : Urgency :=
  if p = .alert ∨ p = .muster then .safety else if priority ≤ 7 then .routine else .service

/-- R99, R102: between `s` and `t` the notice in slot `i` has been removed or its current flag has changed; it counted before or
counts after, and its scope holds a display of this configuration. -/
def State.NoticeMoved (s t : State) (i : Nat) (n : Notice) (c : DisplayConfig) : Prop :=
  Tab.fetch s.notices i = some n ∧ Tab.fetch t.notices i ≠ some n ∧ n.AboveFloor s.ship.phase ∧ n.InScope c ∧
    (n.current = true ∨ ∃ m, Tab.fetch t.notices i = some m ∧ m.current = true)

/-- R125: a display's template in use is time-dependent. -/
def State.ShowsTime (s : State) (c : DisplayConfig) : Prop :=
  ∃ t, s.template (s.templateInUse c.cls (s.screenMode c)) = some t ∧ t.timeDependent = true

/-- R5: what the clock's notification of an absolute minute `now` does to the tables, from the state `s` before it to `t`; the notices
act on a minute boundary alone. -/
structure State.ClockTaken (s t : State) (now : Nat) (boundary : Prop) : Prop where
  /-- R72, R74: every entry moves, then the outlived ones are removed; the others stay in their order, with every other field. -/
  programme : t.programme = (s.programme.map (·.movedAt now)).filter fun e => ¬e.Outlived s.node.retention now
  last : t.lastEvaluation = some now
  /-- R99: without a boundary no notice changes. -/
  still : ¬boundary → t.notices = s.notices
  absent : ∀ i, Tab.fetch s.notices i = none → Tab.fetch t.notices i = none
  /-- R99: at a boundary a notice whose end has come is removed. -/
  expired : boundary → ∀ i n b, Tab.fetch s.notices i = some n → n.stop = some b → b ≤ now → Tab.fetch t.notices i = none
  /-- R98, R99: any other keeps all but its current flag, which says that its start has come. -/
  kept : boundary → ∀ i n, Tab.fetch s.notices i = some n → (∀ b, n.stop = some b → now < b) →
    ∃ c, Tab.fetch t.notices i = some { n with current := c } ∧ (c = true ↔ ∀ a, n.start = some a → a ≤ now)
/-- R5, R35, R77, R78, R102, R125: the displays that a clock's notification marks, block by block in the order of R5's table (log entry
11), and no others: the boards that the evaluation concerns, `old` being the last evaluation's now; at a boundary the displays of the
notices removed or changed, then those whose template depends on the time; and those that quiet hours, judged anew under the notices
that are left, make show otherwise. -/
def State.ClockMarks (s t : State) (old : Option Nat) (now : Nat) (boundary : Prop) : Prop :=
  s.MarksEach t
    [fun _ x u => x.cfg.cls.isBoard = true ∧ (∃ e ∈ s.programme, e.Concerns x.cfg old now s.node.retention) ∧
       u = emergencyUrgency s.ship.phase,
     fun _ x u => boundary ∧ ∃ i n, s.NoticeMoved t i n x.cfg ∧ u = noticeUrgencyAt s.ship.phase n.priority,
     fun _ x u => boundary ∧ ({ s with notices := t.notices } : State).ShowsTime x.cfg ∧ u = .routine,
     fun _ x u => ({ s with notices := t.notices } : State).ShowsApart t x.cfg ∧ u = emergencyUrgency s.ship.phase]

/-! ### Composition (R114 to R117) -/

/-- R84: the linked cabin of a display. -/
def State.LinkedTo (s : State) (d : Nat) (x : Display) (c : Cabin) : Prop :=
  x.cfg.cls = .cabin ∧ ∃ i, s.cabinNaming d = some (i, c)

/-- R98, R101: the active notice for a configuration: of the current notices above the floor whose scope holds it, the one of the
highest priority, in the lowest-numbered slot of that priority. -/
def State.Active (s : State) (c : DisplayConfig) (n : Notice) : Prop :=
  n.current = true ∧ n.AboveFloor s.ship.phase ∧ n.InScope c ∧
    ∃ i pre post, s.notices = pre ++ (i, n) :: post ∧
      (∀ e ∈ pre, e.2.current = true → e.2.AboveFloor s.ship.phase → e.2.InScope c → e.2.priority < n.priority) ∧
      ∀ e ∈ post, e.2.current = true → e.2.AboveFloor s.ship.phase → e.2.InScope c → e.2.priority ≤ n.priority

/-- R115: when each condition is true for a display. -/
def State.Meets (s : State) (d : Nat) (x : Display) : Condition → Prop
  | .always => True
  | .alertOrMuster => s.ship.phase = .alert ∨ s.ship.phase = .muster
  | .drill => s.ship.drill = true
  | .noticePresent => ∃ n, s.Active x.cfg n
  | .dnd => ∃ c, s.LinkedTo d x c ∧ c.dnd = true
  | .mur => ∃ c, s.LinkedTo d x c ∧ c.mur = true
  | .occupied => ∃ c, s.LinkedTo d x c ∧ c.occupied = true
  | .assist => ∃ c, s.LinkedTo d x c ∧ c.assist = true
  | .swept => ∃ c, s.LinkedTo d x c ∧ c.swept = true
  | .routePending => ∃ p n e, s.RoutePosition d x p n ∧ Tab.fetch s.dests n = some e ∧ e.status ≠ .settled
  | .destUnreachable => ∃ p v, p < 8 ∧ s.positionValue d x p = some v ∧ v.glyph = .noRoute
  | .progPresent => s.itemList x.cfg ≠ []
  | .progCancelled => ∃ e ∈ s.itemList x.cfg, e.status = .cancelled
  | .quiet => s.ship.quiet = true
  | .linkLost => s.ship.linkLost = true
  | .standDown => s.ship.phase = .standDown

/-- R114: the value of a text id read in language `g`: its variant in it, else variant 0, else BLANK. -/
def State.TextValue (s : State) (text : Option Nat) (g : Nat) (v : Value) : Prop :=
  (text = none → v = .blank) ∧
  ∀ t own english, text = some t → own = Tab.fetchD s.texts (t * 4 + g) [] → english = Tab.fetchD s.texts (t * 4) [] →
    v = if own ≠ [] then .text own else if english ≠ [] then .text english else .blank

/-- R116: the name of a route position's destination; BLANK without one. -/
def State.NameValue (s : State) (d : Nat) (x : Display) (p g : Nat) (v : Value) : Prop :=
  (∀ n, s.RoutePosition d x p n → s.TextValue ((Tab.fetch s.dests n).bind (·.name)) g v) ∧
    ((∀ n, ¬s.RoutePosition d x p n) → v = .blank)

/-- R116: a value read from the linked cabin; BLANK with none. -/
def State.CabinValue (s : State) (d : Nat) (x : Display) (v : Value) (p : Cabin → Prop) : Prop :=
  (∀ c, s.LinkedTo d x c → p c) ∧ ((∀ c, ¬s.LinkedTo d x c) → v = .blank)

/-- R117: a value read from item `k` of the board's item list; BLANK beyond it. -/
def State.ItemValue (s : State) (x : Display) (k : Nat) (v : Value) (p : ProgEntry → Prop) : Prop :=
  (∀ e, (s.itemList x.cfg)[k]? = some e → p e) ∧ ((s.itemList x.cfg)[k]? = none → v = .blank)

/-- R76: an item's venue is present and SETTLED, the board's node is none of its targets, and its cell there is UNREACHABLE. -/
def State.VenueCutOff (s : State) (x : Display) (e : ProgEntry) : Prop :=
  ∃ n t, e.venue = some n ∧ Tab.fetch s.dests n = some t ∧ t.status = .settled ∧ x.cfg.node ∉ t.targets ∧
    (cellAt t.cells x.cfg.node).effort = none

/-- R59, R60, R76: the glyph of an item's route value: BLANK without a present venue, ROUTE_PENDING until it is SETTLED, then HERE,
NO_ROUTE or that of the next hop. -/
def State.VenueGlyph (s : State) (x : Display) (venue : Option Nat) (v : Value) : Prop :=
  (venue.bind (Tab.fetch s.dests) = none → v = .blank) ∧
  ∀ t, venue.bind (Tab.fetch s.dests) = some t →
    (t.status ≠ .settled → v = .glyph .routePending) ∧
    (t.status = .settled →
      (x.cfg.node ∈ t.targets → v = .glyph .here) ∧
      (x.cfg.node ∉ t.targets →
        ((cellAt t.cells x.cfg.node).effort = none → v = .glyph .noRoute) ∧
        ∀ h g, (cellAt t.cells x.cfg.node).effort ≠ none → (cellAt t.cells x.cfg.node).hop = some h →
          Tab.fetch s.segments h.segment = some g → v = .glyph (hopSign g h.back x.cfg.facing)))

/-- R116: a cabin number in decimal: 1..5 digits in the codes 48..57, without leading zeros. -/
def DecimalText (number : Nat) (codes : List Nat) : Prop :=
  1 ≤ codes.length ∧ codes.length ≤ 5 ∧ (∀ c ∈ codes, 48 ≤ c ∧ c ≤ 57) ∧ codes.head? ≠ some 48 ∧
    codes.foldl (fun n c => n * 10 + (c - 48)) 0 = number

/-- R116: SERVICE_GLYPHS of a linked cabin. -/
def serviceSign (c : Cabin) (a : Nat) : Value :=
  if a = 0 ∧ c.dnd = true then .glyph .dnd
  else if a = 0 ∧ c.mur = true then .glyph .mur
  else if a = 1 ∧ c.assist = true then .glyph .assist
  else if a = 2 ∧ c.swept = true then .glyph .swept
  else .blank

/-- R116, R117: the value of each source, with argument `a` and text read in language `g`. -/
def State.SourceGives (s : State) (d : Nat) (x : Display) (g a : Nat) (v : Value) : Source → Prop
  | .text => s.TextValue (some a) g v
  | .destName => s.NameValue d x a g v
  | .arrow => v = (match s.positionValue d x a with | some r => .glyph r.glyph | none => .blank)
  | .distance =>
      v = (match (s.positionValue d x a).bind (·.distance) with | some n => .number n false | none => .blank)
  | .minutes =>
      v = (match (s.positionValue d x a).bind (·.minutes) with | some m => .number m.1 m.2 | none => .blank)
  | .progTitle => s.ItemValue x a v fun e => s.TextValue (some e.title) g v
  | .progVenue => s.ItemValue x a v fun e =>
      s.TextValue ((e.venue.bind (Tab.fetch s.dests)).bind (·.name)) g v
  | .progTime => s.ItemValue x a v fun e => v = .time (some (e.start / 60, e.start % 60))
  | .progMark => s.ItemValue x a v fun e =>
      (e.status = .cancelled → v = .glyph .cancelled) ∧
      (e.status ≠ .cancelled → s.VenueCutOff x e → v = .glyph .restricted) ∧
      (e.status ≠ .cancelled → ¬s.VenueCutOff x e → v = .glyph (if e.status = .running then .now else .next))
  | .progArrow => s.ItemValue x a v fun e => s.VenueGlyph x e.venue v
  | .cabinNumber => s.CabinValue d x v fun c =>
      1 ≤ c.number → c.number ≤ 65535 → ∃ codes, v = .text codes ∧ DecimalText c.number codes
  | .greeting => s.CabinValue d x v fun c => s.TextValue c.greeting g v
  | .musterName => s.NameValue d x 8 g v
  | .musterGroup => s.CabinValue d x v fun c => v = (match c.group with | some l => .text [l] | none => .blank)
  | .musterArrow => v = (match s.positionValue d x 8 with | some r => .glyph r.glyph | none => .blank)
  | .musterDistance =>
      v = (match (s.positionValue d x 8).bind (·.distance) with | some n => .number n false | none => .blank)
  | .musterMinutes =>
      v = (match (s.positionValue d x 8).bind (·.minutes) with | some m => .number m.1 m.2 | none => .blank)
  | .noticeText =>
      (∀ n, s.Active x.cfg n → s.TextValue (some n.text) g v) ∧ ((∀ n, ¬s.Active x.cfg n) → v = .blank)
  | .clock => v = .time (if s.ship.valid then some (s.ship.minute / 60, s.ship.minute % 60) else none)
  | .deck => v = .number x.cfg.deck false
  | .serviceGlyphs => s.CabinValue d x v fun c => v = serviceSign c a
  | .phaseMark => v = if s.ship.drill then .glyph .drill else .blank

/-! ### The mode, the brightness, the template in use and the window (R33, R34, R75, R112) -/

/-- R33: the screen mode for a configuration. -/
def State.InMode (s : State) (c : DisplayConfig) (m : ScreenMode) : Prop :=
  (s.ship.phase = .alert → m = .alert) ∧ (s.ship.phase = .muster → m = .muster) ∧
    (s.ship.phase = .standDown → m = .standDown) ∧
    (s.ship.phase = .normal →
      ((∃ n, s.Active c n) → m = .notice) ∧
        ((∀ n, ¬s.Active c n) → (s.ship.quiet = true → m = .quiet) ∧ (s.ship.quiet = false → m = .normal)))

/-- R34: the effective brightness for a configuration. -/
abbrev State.LitAt (s : State) (c : DisplayConfig) (step : Nat) : Prop :=
  step =
    if s.ship.phase = .alert ∨ s.ship.phase = .muster then 15
    else if s.ship.quiet = true ∨ s.ship.light = .night then c.nightStep
    else c.dayStep

/-- R112: the fallback for a class and mode. -/
def fallbackFor (c : DisplayClass) (m : ScreenMode) : Nat :=
  match m, c.grid with
  | .normal, _ => c.code
  | .quiet, _ => c.code
  | .alert, _ => 6 + c.code
  | .muster, _ => 6 + c.code
  | .notice, .large => 12
  | .notice, .small => 13
  | .standDown, .large => 14
  | .standDown, .small => 15

/-- R111, R112: the template in use for a class and mode: the fixed one, or the present one of the class's grid, that the selection
entry names; else the fallback. -/
def State.InUse (s : State) (c : DisplayClass) (m : ScreenMode) (n : Nat) : Prop :=
  (∀ k, Tab.fetch s.selection (c.code * 6 + m.code) = some k →
    (k < 16 → n = k) ∧
      (16 ≤ k →
        (∀ t, Tab.fetch s.templates k = some t → t.grid = c.grid → n = k) ∧
          ((∀ t, Tab.fetch s.templates k = some t → t.grid ≠ c.grid) → n = fallbackFor c m))) ∧
    (Tab.fetch s.selection (c.code * 6 + m.code) = none → n = fallbackFor c m)

/-- R75: an entry is in the window of a configuration at an absolute minute. -/
abbrev ProgEntry.InWindow (e : ProgEntry) (c : DisplayConfig) (now : Nat) : Prop :=
  c.categoryMask.toNat.testBit e.category = true ∧ c.deckMask.toNat.testBit e.deck = true ∧
    (e.status = .running ∨
      ((e.status = .scheduled ∨ e.status = .cancelled) ∧
        ((e.day * 1440 + e.start : Nat) : Int) - (now : Int) ≤ (c.horizon : Int)))

/-! ### The fixed templates (R110) -/

/-- R110: a slot of a fixed template as its table gives it: polarity SHOW_WHEN_TRUE and language selector DISPLAY, with no argument
where its source takes none and no size where the table gives none. -/
structure FixedSlot where
  source : Source
  argument : Option Nat := none
  /-- Column, row, width and height. -/
  box : Nat × Nat × Nat × Nat
  size : Option Nat := none
  condition : Condition := .always
  emphasis : Bool := false
  deriving DecidableEq, Repr

/-- R110: a row of the table of the fixed templates. -/
structure FixedTemplate where
  grid : Grid
  slots : List FixedSlot
  timeDependent : Bool
  deriving DecidableEq, Repr

/-- R110: the route line at a position and a row, LARGE. -/
def routeLineLarge (k r : Nat) : List FixedSlot :=
  [{ source := .destName, argument := some k, box := (0, r, 30, 2), size := some 2 },
   { source := .arrow, argument := some k, box := (32, r, 4, 2), size := some 2 },
   { source := .distance, argument := some k, box := (36, r, 4, 1), size := some 1 },
   { source := .minutes, argument := some k, box := (36, r + 1, 4, 1), size := some 1 }]

/-- R110: the route line at a position and a row, SMALL. -/
def routeLineSmall (k r : Nat) : List FixedSlot :=
  [{ source := .destName, argument := some k, box := (0, r, 14, 1), size := some 1 },
   { source := .arrow, argument := some k, box := (16, r, 4, 2), size := some 2 },
   { source := .distance, argument := some k, box := (0, r + 1, 6, 1), size := some 1 },
   { source := .minutes, argument := some k, box := (8, r + 1, 4, 1), size := some 1 }]

/-- R110: the table of the fixed templates, but for 8, 9 and 11, which are as 6, 6 and 7. -/
def fixedTable : List (Nat × FixedTemplate) :=
  [(0, { grid := .large, slots := routeLineLarge 0 0 ++ routeLineLarge 1 4 ++ routeLineLarge 2 8, timeDependent := false }),
   (1, { grid := .small, slots := routeLineSmall 0 0 ++ routeLineSmall 1 3 ++ routeLineSmall 2 6, timeDependent := false }),
   (2, { grid := .large
         slots := routeLineLarge 0 0 ++ routeLineLarge 1 4 ++
           [{ source := .progTime, argument := some 0, box := (0, 10, 5, 1) },
            { source := .progMark, argument := some 0, box := (6, 10, 3, 1) },
            { source := .progVenue, argument := some 0, box := (10, 10, 24, 1) },
            { source := .progArrow, argument := some 0, box := (36, 10, 2, 1) }]
         timeDependent := true }),
   (3, { grid := .large
         slots := [0, 1, 2, 3].flatMap fun k =>
           [{ source := .progTime, argument := some k, box := (0, 4 * k, 5, 2), size := some 2 },
            { source := .progTitle, argument := some k, box := (6, 4 * k, 26, 2), size := some 2 },
            { source := .progMark, argument := some k, box := (33, 4 * k, 3, 2), size := some 2 }]
         timeDependent := true }),
   (4, { grid := .small
         slots :=
           [{ source := .cabinNumber, box := (0, 0, 10, 2), size := some 2 },
            { source := .serviceGlyphs, argument := some 0, box := (16, 0, 4, 2), size := some 2, condition := .occupied },
            { source := .greeting, box := (0, 3, 20, 2), condition := .occupied },
            { source := .musterGroup, box := (16, 6, 4, 2), size := some 2 },
            { source := .deck, box := (0, 7, 3, 1) }]
         timeDependent := false }),
   (5, { grid := .small
         slots := { source := .deck, box := (0, 0, 4, 2), size := some 2 } :: (routeLineSmall 0 2 ++ routeLineSmall 1 5)
         timeDependent := false }),
   (6, { grid := .large
         slots := routeLineLarge 0 0 ++ routeLineLarge 1 4 ++
           [{ source := .phaseMark, box := (0, 12, 8, 2), size := some 2, condition := .drill, emphasis := true },
            { source := .noticeText, box := (0, 14, 40, 2), condition := .noticePresent, emphasis := true }]
         timeDependent := false }),
   (7, { grid := .small
         slots := routeLineSmall 0 0 ++ routeLineSmall 1 3 ++
           [{ source := .phaseMark, box := (0, 6, 6, 1), condition := .drill, emphasis := true },
            { source := .noticeText, box := (0, 7, 20, 1), condition := .noticePresent, emphasis := true }]
         timeDependent := false }),
   (10, { grid := .small
          slots :=
            [{ source := .musterName, box := (0, 0, 14, 2) },
             { source := .musterGroup, box := (16, 0, 4, 2), size := some 2 },
             { source := .musterArrow, box := (0, 2, 4, 3), size := some 3, emphasis := true },
             { source := .musterDistance, box := (6, 3, 6, 1) },
             { source := .musterMinutes, box := (6, 4, 4, 1) },
             { source := .cabinNumber, box := (14, 2, 6, 1) },
             { source := .serviceGlyphs, argument := some 1, box := (14, 4, 3, 2), size := some 2, condition := .assist },
             { source := .serviceGlyphs, argument := some 2, box := (17, 4, 3, 2), size := some 2, condition := .swept },
             { source := .phaseMark, box := (0, 6, 6, 1), condition := .drill, emphasis := true },
             { source := .noticeText, box := (0, 7, 20, 1), condition := .noticePresent, emphasis := true }]
          timeDependent := false }),
   (12, { grid := .large
          slots := { source := .noticeText, box := (0, 0, 40, 8), size := some 2 } :: (routeLineLarge 0 10 ++
            [{ source := .clock, box := (32, 14, 8, 2), size := some 2 }])
          timeDependent := true }),
   (13, { grid := .small
          slots :=
            [{ source := .noticeText, box := (0, 0, 20, 5) },
             { source := .cabinNumber, box := (0, 6, 10, 2), size := some 2 },
             { source := .arrow, argument := some 0, box := (16, 6, 4, 2), size := some 2 }]
          timeDependent := false }),
   (14, { grid := .large
          slots := { source := .noticeText, box := (0, 0, 40, 6), size := some 2, condition := .noticePresent } ::
            (routeLineLarge 0 8 ++
              [{ source := .phaseMark, box := (0, 14, 8, 2), size := some 2, condition := .drill }])
          timeDependent := false }),
   (15, { grid := .small
          slots := { source := .cabinNumber, box := (0, 0, 10, 2), size := some 2 } ::
            { source := .serviceGlyphs, argument := some 2, box := (16, 0, 4, 2), size := some 2, condition := .swept } ::
            (routeLineSmall 0 3 ++ [{ source := .noticeText, box := (0, 6, 20, 2), condition := .noticePresent }])
          timeDependent := false })]

/-- R106, R110: a slot is what the table gives; a size or an argument that it does not give is left open (log entry 27), the size
within 1..3. -/
abbrev Slot.IsFixed (y : Slot) (f : FixedSlot) : Prop :=
  y = { box := { column := f.box.1, row := f.box.2.1, width := f.box.2.2.1, height := f.box.2.2.2 }
        size := y.size, emphasis := f.emphasis, source := f.source, argument := y.argument, language := none
        condition := f.condition, showWhenTrue := true } ∧
    (∀ z, f.size = some z → y.size = z) ∧ 1 ≤ y.size ∧ y.size ≤ 3 ∧
    (∀ a, f.argument = some a → y.argument = a) ∧ y.argument ≤ 65535

/-- R110: a template is the one of a row of the table. -/
def Template.IsFixed (t : Template) (f : FixedTemplate) : Prop :=
  t.grid = f.grid ∧ t.timeDependent = f.timeDependent ∧ t.slots.length = f.slots.length ∧
    ∀ (k : Nat) (y : Slot) (g : FixedSlot), t.slots[k]? = some y → f.slots[k]? = some g → y.IsFixed g

/-! ### Slots as a WRITE gives them (R107, R109) -/

/-- R107: a box brought into a grid: the column and the row to its last, then the width and the height to what is left of it. -/
def Box.fit (b : Box) (g : Grid) : Box :=
  { column := min (g.columns - 1) b.column
    row := min (g.rows - 1) b.row
    width := max 1 (min (g.columns - min (g.columns - 1) b.column) b.width)
    height := max 1 (min (g.rows - min (g.rows - 1) b.row) b.height) }

/-- R107: the route and programme sources, whose argument is 8 at most. -/
def positionSources : List Source :=
  [.destName, .arrow, .distance, .minutes, .progTitle, .progVenue, .progTime, .progMark, .progArrow]

/-- R109: the sources of a time-dependent template. -/
def timeSources : List Source := [.clock, .progTitle, .progVenue, .progTime, .progMark, .progArrow]

/-- R107: a slot that a WRITE is refused for. -/
abbrev SlotRefused (x : RawSlot) : Prop := 21 < x.source ∨ 15 < x.condition ∨ 4 < x.language ∨ 1 < x.polarity

/-- R107: the argument of a slot as its source takes it. -/
def argumentTaken (src : Source) (a : Nat) : Nat :=
  if src = .text then min 1023 a else if src ∈ positionSources then min 8 a else a

/-- R107: the slot that a WRITE leaves of what it gives, on a grid. -/
def slotTaken (x : RawSlot) (g : Grid) (src : Source) (cond : Condition) : Slot :=
  { box := Box.fit { column := x.column, row := x.row, width := x.width, height := x.height } g
    size := max 1 (min 3 x.size)
    emphasis := x.emphasis
    source := src
    argument := argumentTaken src x.argument
    language := if x.language = 4 then none else some x.language
    condition := cond
    showWhenTrue := x.polarity == 0 }

/-- R107: the slots that a WRITE leaves of a list it gives: one for each, in their order, by the codes of their sources and
conditions. -/
def SlotsTaken (g : Grid) (xs : List RawSlot) (ys : List Slot) : Prop :=
  ys.length = xs.length ∧ ∀ (k : Nat) (x : RawSlot) (y : Slot), xs[k]? = some x → ys[k]? = some y →
    y.source.code = x.source ∧ y.condition.code = x.condition ∧ y = slotTaken x g y.source y.condition

/-- R107: a clamp or a clip of a slot that a WRITE gives. -/
def SlotAdjusted (x : RawSlot) (y : Slot) : Prop :=
  y.box ≠ { column := x.column, row := x.row, width := x.width, height := x.height } ∨ y.size ≠ x.size ∨
    y.argument ≠ x.argument

/-! ### The form of a WRITE (R165, R169, R180) -/

/-- The FLAG fields of the tables, by table and field number (R38, R127, R171). -/
def flagFields : List (Nat × Nat) := [(2, 1), (4, 8), (4, 9), (13, 4), (13, 5), (13, 6), (13, 7), (13, 8), (13, 9), (13, 10)]

/-- The fields with a none value (R22, R38, R40, R65, R80, R96, R111, R167, R171). -/
def noneFields : List (Nat × Nat) :=
  [(0, 19), (1, 8), (4, 7), (5, 1), (7, 4), (8, 3), (8, 4), (8, 6), (8, 7), (9, 5), (9, 6), (12, 1), (13, 1)]

/-- R165, R180: a field of a table can hold a value: flags, the none value, lists (R40, R41), strings (R113) and slots (R107) each
where the table has them, and a number in every other field. -/
def FieldHolds (t n : Nat) : FieldValue → Prop
  | .number _ => (t, n) ∉ flagFields ++ [(5, 3), (6, 1), (10, 1), (11, 2)]
  | .flag _ => (t, n) ∈ flagFields
  | .absent => (t, n) ∈ noneFields
  | .list _ => (t, n) ∈ [(5, 3), (6, 1)]
  | .string _ => (t, n) ∈ [(10, 1)]
  | .slots _ => (t, n) ∈ [(11, 2)]

/-- R165: no entry is present at an index of a table whose entries do not always exist. -/
def State.AbsentAt (s : State) (t i : Nat) : Prop :=
  (t = 1 ∧ s.display i = none) ∨ (t = 3 ∧ Tab.fetch s.nodes i = none) ∨ (t = 4 ∧ Tab.fetch s.segments i = none) ∨
    (t = 5 ∧ Tab.fetch s.dests i = none) ∨ (t = 7 ∧ ∀ e ∈ s.programme, e.id ≠ i) ∨ (t = 8 ∧ Tab.fetch s.cabins i = none) ∨
    (t = 9 ∧ Tab.fetch s.notices i = none) ∨ (t = 11 ∧ 16 ≤ i ∧ Tab.fetch s.templates i = none)

/-- The fields that a WRITE must supply to create an entry, by the table's id (the field tables; R107). -/
def creationFields (t : Nat) : List Nat :=
  match t with
  | 1 => [1, 2, 3, 5]
  | 4 => [1, 2, 3, 4]
  | 5 => [2, 3]
  | 7 => [1, 2, 7]
  | 8 => [1, 2]
  | 9 => [1, 4]
  | 11 => [1, 2]
  | _ => []

/-- R165, R169: a WRITE out of form: a field number twice; a value of a kind that its field cannot hold; of an entry in range, a
creation that lacks a required field, or a WRITE of LISTS, TEXTS or SELECTION without field 1. -/
def State.OutOfForm (s : State) (t i : Nat) (fs : FieldList) : Prop :=
  (∃ n u v pre mid post, fs = pre ++ (n, u) :: mid ++ (n, v) :: post) ∨
    (t ≤ 15 ∧ ∃ p ∈ fs, 1 ≤ p.1 ∧ p.1 ≤ tableFields.getD t 0 ∧ ¬FieldHolds t p.1 p.2) ∨
    (i < tableRanges.getD t 0 ∧ (t = 7 → 1 ≤ i) ∧
      ((s.AbsentAt t i ∧ ∃ n ∈ creationFields t, n ∉ fs.map (·.1)) ∨ (t ∈ [6, 10, 12] ∧ 1 ∉ fs.map (·.1))))

/-! ### The fields that a WRITE supplies (R165) -/

/-- R165: the pair of a field that a field list supplies; no pair for one that it does not. -/
def given (n : Nat) (v : Option FieldValue) : FieldList := v.toList.map fun x => (n, x)

/-- R167: what a WRITE of NODE supplies of each field. -/
structure NodeWrite where
  holdTime : Option Nat
  silenceTime : Option Nat
  quietStart : Option Nat
  quietEnd : Option Nat
  walkRate : Option Nat
  wCorridor : Option Nat
  wStairUp : Option Nat
  wStairDown : Option Nat
  wLift : Option Nat
  wOpenDeck : Option Nat
  retention : Option Nat
  minRefresh : Vector (Option Nat) 6
  quietMask : Option Nat
  zoneGroup : Option (Option Nat)
  reportDest : Option Nat
  reportPort : Option Nat
  txHop : Option Nat
  deriving DecidableEq, Repr

/-- R167: its pairs. -/
def NodeWrite.pairs (w : NodeWrite) : FieldList :=
  given 1 (w.holdTime.map .number) ++ given 2 (w.silenceTime.map .number) ++ given 3 (w.quietStart.map .number) ++
    given 4 (w.quietEnd.map .number) ++ given 5 (w.walkRate.map .number) ++ given 6 (w.wCorridor.map .number) ++
    given 7 (w.wStairUp.map .number) ++ given 8 (w.wStairDown.map .number) ++ given 9 (w.wLift.map .number) ++
    given 10 (w.wOpenDeck.map .number) ++ given 11 (w.retention.map .number) ++ given 12 (w.minRefresh[0].map .number) ++
    given 13 (w.minRefresh[1].map .number) ++ given 14 (w.minRefresh[2].map .number) ++
    given 15 (w.minRefresh[3].map .number) ++ given 16 (w.minRefresh[4].map .number) ++
    given 17 (w.minRefresh[5].map .number) ++ given 18 (w.quietMask.map .number) ++ given 19 (w.zoneGroup.map optValue) ++
    given 20 (w.reportDest.map .number) ++ given 21 (w.reportPort.map .number) ++ given 22 (w.txHop.map .number)

/-- R167: the node parameters that it leaves: what it supplies, clamped, and the rest. -/
def NodeWrite.leaves (w : NodeWrite) (n : NodeParams) : NodeParams :=
  { holdTime := w.holdTime.elim n.holdTime fun v => max 10 (min 900 v)
    silenceTime := w.silenceTime.elim n.silenceTime fun v => max 2 (min 60 v)
    quietStart := w.quietStart.elim n.quietStart (min 1439)
    quietEnd := w.quietEnd.elim n.quietEnd (min 1439)
    walkRate := w.walkRate.elim n.walkRate fun v => max 300 (min 1500 v)
    wCorridor := w.wCorridor.elim n.wCorridor fun v => max 1 (min 63 v)
    wStairUp := w.wStairUp.elim n.wStairUp fun v => max 1 (min 63 v)
    wStairDown := w.wStairDown.elim n.wStairDown fun v => max 1 (min 63 v)
    wLift := w.wLift.elim n.wLift fun v => max 1 (min 63 v)
    wOpenDeck := w.wOpenDeck.elim n.wOpenDeck fun v => max 1 (min 63 v)
    retention := w.retention.elim n.retention (min 240)
    minRefresh := Vector.ofFn fun c : Fin 6 => (w.minRefresh[c]).elim (n.minRefresh[c]) (min 600)
    quietMask := w.quietMask.elim n.quietMask fun v => BitVec.ofNat 8 (min 255 v)
    zoneGroup := w.zoneGroup.elim n.zoneGroup fun v => v.map (min 14)
    reportDest := w.reportDest.elim n.reportDest fun v => max 1 (min 255 v)
    reportPort := w.reportPort.elim n.reportPort fun v => if v = 0 then .fore else .aft
    txHop := w.txHop.elim n.txHop fun v => max 1 (min 63 v) }

/-- R167: a clamp. -/
def NodeWrite.Adjusted (w : NodeWrite) : Prop :=
  ∃ f v lo hi, (f, FieldValue.number v) ∈ w.pairs ∧ (f, lo, hi) ∈ nodeRanges ∧ (v < lo ∨ hi < v)

/-- R127: what a WRITE of STRINGS supplies of each field. -/
structure StringWrite where
  enabled : Option Bool
  timeout : Option Nat
  pollPeriod : Option Nat
  deriving DecidableEq, Repr

/-- R127: its pairs. -/
def StringWrite.pairs (w : StringWrite) : FieldList :=
  given 1 (w.enabled.map .flag) ++ given 2 (w.timeout.map .number) ++ given 3 (w.pollPeriod.map .number)

/-- R127: the string that it leaves: what it supplies, clamped, and the rest. -/
def StringWrite.leaves (w : StringWrite) (c : StringCtl) : StringCtl :=
  { c with
    enabled := w.enabled.getD c.enabled
    timeout := w.timeout.elim c.timeout fun v => max 2 (min 50 v)
    pollPeriod := w.pollPeriod.elim c.pollPeriod fun v => max 250 (min 5000 v) }

/-- R127: a clamp. -/
def StringWrite.Adjusted (w : StringWrite) : Prop :=
  (∃ v, w.timeout = some v ∧ (v < 2 ∨ 50 < v)) ∨ ∃ v, w.pollPeriod = some v ∧ (v < 250 ∨ 5000 < v)

/-- R171: what a WRITE of REGIONS supplies of each field. -/
structure RegionWrite where
  table : Option (Option Nat)
  first : Option Nat
  last : Option Nat
  readContent : Option Bool
  readMaintenance : Option Bool
  readBridge : Option Bool
  writeContent : Option Bool
  writeMaintenance : Option Bool
  writeBridge : Option Bool
  lock : Option Bool
  deriving DecidableEq, Repr

/-- R171: its pairs. -/
def RegionWrite.pairs (w : RegionWrite) : FieldList :=
  given 1 (w.table.map optValue) ++ given 2 (w.first.map .number) ++ given 3 (w.last.map .number) ++
    given 4 (w.readContent.map .flag) ++ given 5 (w.readMaintenance.map .flag) ++ given 6 (w.readBridge.map .flag) ++
    given 7 (w.writeContent.map .flag) ++ given 8 (w.writeMaintenance.map .flag) ++ given 9 (w.writeBridge.map .flag) ++
    given 10 (w.lock.map .flag)

/-- R171, R172: the region that it leaves: what it supplies, and the rest. That an index is clamped is read from the spec (log entry
15). -/
def RegionWrite.leaves (w : RegionWrite) (r : Region) : Region :=
  { table := w.table.getD r.table
    first := w.first.elim r.first (min 65535)
    last := w.last.elim r.last (min 65535)
    readContent := w.readContent.getD r.readContent
    readMaintenance := w.readMaintenance.getD r.readMaintenance
    readBridge := w.readBridge.getD r.readBridge
    writeContent := w.writeContent.getD r.writeContent
    writeMaintenance := w.writeMaintenance.getD r.writeMaintenance
    writeBridge := w.writeBridge.getD r.writeBridge
    lock := w.lock.getD r.lock }

/-- R172: a table above 15, or a first index that would stand above the last. -/
def RegionWrite.Refused (w : RegionWrite) (r : Region) : Prop :=
  (∃ v, w.table = some (some v) ∧ 15 < v) ∨ (w.leaves r).last < (w.leaves r).first

/-- R38: what a WRITE of SEGMENTS supplies of each field. -/
structure SegmentWrite where
  a : Option Nat
  b : Option Nat
  kind : Option Nat
  length : Option Nat
  heading : Option Nat
  direction : Option Nat
  closure : Option (Option Nat)
  musterOnly : Option Bool
  enabled : Option Bool
  deriving DecidableEq, Repr

/-- R38: its pairs. -/
def SegmentWrite.pairs (w : SegmentWrite) : FieldList :=
  given 1 (w.a.map .number) ++ given 2 (w.b.map .number) ++ given 3 (w.kind.map .number) ++ given 4 (w.length.map .number) ++
    given 5 (w.heading.map .number) ++ given 6 (w.direction.map .number) ++ given 7 (w.closure.map optValue) ++
    given 8 (w.musterOnly.map .flag) ++ given 9 (w.enabled.map .flag)

/-- R39: the segment that it leaves of one that stood before, or of the defaults: what it supplies, clamped, and the rest. -/
def SegmentWrite.leaves (w : SegmentWrite) (g : Segment) : Segment :=
  { a := w.a.getD g.a
    b := w.b.getD g.b
    kind := (w.kind.bind SegmentKind.ofCode).getD g.kind
    length := w.length.elim g.length fun v => max 1 (min 4095 v)
    heading := w.heading.elim g.heading fun v => min 15 v
    oneWay := w.direction.elim g.oneWay fun v => v == 1
    closure := w.closure.elim g.closure fun v => v.map (min 127)
    musterOnly := w.musterOnly.getD g.musterOnly
    enabled := w.enabled.getD g.enabled }

/-- R39, step 1: a kind or a direction outside its list. -/
def SegmentWrite.ValueRefused (w : SegmentWrite) : Prop :=
  (∃ v, w.kind = some v ∧ 3 < v) ∨ ∃ v, w.direction = some v ∧ 1 < v

/-- R39, step 2: an end supplied that is no present node. -/
def SegmentWrite.EndRefused (w : SegmentWrite) (s : State) : Prop :=
  ∃ v, (w.a = some v ∨ w.b = some v) ∧ (255 < v ∨ Tab.fetch s.nodes v = none)

/-- R39, step 3: equal ends, or a STAIR that would lead down from end a, where the WRITE supplies an end or the kind. -/
def SegmentWrite.ShapeRefused (w : SegmentWrite) (s : State) (g : Segment) : Prop :=
  (w.leaves g).a = (w.leaves g).b ∨
    ((w.a ≠ none ∨ w.b ≠ none ∨ w.kind ≠ none) ∧ (w.leaves g).kind = .stair ∧
      ∃ da db, Tab.fetch s.nodes (w.leaves g).a = some da ∧ Tab.fetch s.nodes (w.leaves g).b = some db ∧ db < da)

/-- R39, step 4: a clamp. -/
def SegmentWrite.Adjusted (w : SegmentWrite) : Prop :=
  (∃ v, w.length = some v ∧ (v = 0 ∨ 4095 < v)) ∨ (∃ v, w.heading = some v ∧ 15 < v) ∨ ∃ v, w.closure = some (some v) ∧ 127 < v

/-- R22: what a WRITE of DISPLAYS supplies of each field. -/
structure DisplayWrite where
  string : Option Nat
  position : Option Nat
  cls : Option Nat
  deck : Option Nat
  node : Option Nat
  facing : Option Nat
  language : Option Nat
  list : Option (Option Nat)
  categoryMask : Option Nat
  deckMask : Option Nat
  horizon : Option Nat
  dayStep : Option Nat
  nightStep : Option Nat
  deriving DecidableEq, Repr

/-- R22: its pairs. -/
def DisplayWrite.pairs (w : DisplayWrite) : FieldList :=
  given 1 (w.string.map .number) ++ given 2 (w.position.map .number) ++ given 3 (w.cls.map .number) ++
    given 4 (w.deck.map .number) ++ given 5 (w.node.map .number) ++ given 6 (w.facing.map .number) ++
    given 7 (w.language.map .number) ++ given 8 (w.list.map optValue) ++ given 9 (w.categoryMask.map .number) ++
    given 10 (w.deckMask.map .number) ++ given 11 (w.horizon.map .number) ++ given 12 (w.dayStep.map .number) ++
    given 13 (w.nightStep.map .number)

/-- R23 to R25: the configuration that it leaves of one that stood before, or of the defaults: what it supplies, clamped or masked,
and the rest. -/
def DisplayWrite.leaves (w : DisplayWrite) (c : DisplayConfig) : DisplayConfig :=
  { string := w.string.elim c.string fun v => Fin.ofNat 8 (min 7 v)
    position := w.position.elim c.position fun v => max 1 (min 63 v)
    cls := (w.cls.bind DisplayClass.ofCode).getD c.cls
    deck := w.deck.elim c.deck (min 15)
    node := w.node.getD c.node
    facing := w.facing.elim c.facing (min 15)
    language := w.language.elim c.language (min 3)
    list := w.list.elim c.list fun v => v.map (min 63)
    categoryMask := w.categoryMask.elim c.categoryMask (BitVec.ofNat 16)
    deckMask := w.deckMask.elim c.deckMask (BitVec.ofNat 16)
    horizon := w.horizon.elim c.horizon (min 1440)
    dayStep := w.dayStep.elim c.dayStep (min 15)
    nightStep := w.nightStep.elim c.nightStep (min 15) }

/-- R23, step 1: a class or a location node outside its values. -/
def DisplayWrite.ValueRefused (w : DisplayWrite) : Prop := (∃ v, w.cls = some v ∧ 5 < v) ∨ ∃ v, w.node = some v ∧ 255 < v

/-- R23, step 3: a clamp, or a mask with bits above bit 15. -/
def DisplayWrite.Adjusted (w : DisplayWrite) : Prop :=
  (∃ v, w.string = some v ∧ 7 < v) ∨ (∃ v, w.position = some v ∧ (v = 0 ∨ 63 < v)) ∨ (∃ v, w.language = some v ∧ 3 < v) ∨
    (∃ v, (w.deck = some v ∨ w.facing = some v ∨ w.dayStep = some v ∨ w.nightStep = some v) ∧ 15 < v) ∨
    (∃ v, w.list = some (some v) ∧ 63 < v) ∨ (∃ v, w.horizon = some v ∧ 1440 < v) ∨
    ∃ v, (w.categoryMask = some v ∨ w.deckMask = some v) ∧ 65535 < v

/-- R23, step 4: another present display stands at the place of a configuration. -/
def State.PlaceTaken (s : State) (d : Nat) (c : DisplayConfig) : Prop :=
  ∃ e ∈ s.displays, e.1 ≠ d ∧ e.2.cfg.string = c.string ∧ e.2.cfg.position = c.position

/-- R25, R27: a placement change: of the string, the position or the class. -/
abbrev DisplayConfig.Moved (a b : DisplayConfig) : Prop := b.string ≠ a.string ∨ b.position ≠ a.position ∨ b.cls ≠ a.cls

/-- R25: a change that marks the display: of any field but the two steps, or of the effective brightness. -/
def State.Remarks (s : State) (a b : DisplayConfig) : Prop :=
  b ≠ { a with dayStep := b.dayStep, nightStep := b.nightStep } ∨ s.brightness b ≠ s.brightness a

/-- R28, R94: a position whose held value a change of the configuration clears. -/
abbrev DisplayConfig.Clears (a b : DisplayConfig) (p : Nat) : Prop :=
  b.node ≠ a.node ∨ b.facing ≠ a.facing ∨ (b.list ≠ a.list ∧ p < 8) ∨ (a.cls = .cabin ∧ b.cls ≠ .cabin ∧ p = 8)

/-- R25, R27, R28: what a change of the configuration from `a` to `b` makes of a runtime record, but for the update state and the
stale urgency. -/
def DisplayRuntime.rewritten (r : DisplayRuntime) (a b : DisplayConfig) : DisplayRuntime :=
  { r with
    digest := if a.Moved b then none else r.digest
    failures := if a.Moved b ∧ r.state ≠ .faulted then 0 else r.failures
    lastFail := if a.Moved b ∧ r.state = .faulted then none else r.lastFail
    lastPoll := if b.cls ≠ a.cls ∧ b.cls = .cabin ∧ r.state ≠ .faulted then none else r.lastPoll
    held := r.held.filter fun h => ¬a.Clears b h.1 }

/-- R25 to R27, R131, R132: what becomes of the update state of a display `d`, `x` before and `y` after a taken WRITE, in the queues of
its string before it and of its string after it; `u` is the write urgency, and `marked` says that the WRITE marks the display. That a
class change keeps the entry stamp in the SAFETY queue is read from the spec (log entry 18). -/
def State.Requeued (s t : State) (d : Nat) (x y : Display) (u : Urgency) (marked : Prop) : Prop :=
  match x.rt.state with
  | .faulted => y.rt.state = .faulted ∧ y.rt.stale = x.rt.stale ∧ t.strings = s.strings
  | .opened =>
    y.rt.state = .opened ∧ t.strings = s.strings ∧ (¬marked → y.rt.stale = x.rt.stale) ∧
      (marked → ∃ v, y.rt.stale = some v ∧
        v = (match x.rt.stale with | some o => if o.code ≤ u.code then o else u | none => u))
  | .clean =>
    y.rt.stale = x.rt.stale ∧ (¬marked → y.rt.state = .clean ∧ t.strings = s.strings) ∧
      (marked → y.rt.state = .queued u ∧
        { display := d, stamp := (s.str y.cfg.string).counter } ∈ (t.str y.cfg.string).queue u ∧
        (t.str y.cfg.string).counter = (s.str y.cfg.string).counter + 1 ∧
        (x.cfg.string ≠ y.cfg.string → t.str x.cfg.string = s.str x.cfg.string))
  | .queued o =>
    y.rt.stale = x.rt.stale ∧ (¬marked → y.rt.state = x.rt.state ∧ t.strings = s.strings) ∧
      (marked → ∃ v, v = (if u.code < o.code then u else o) ∧ y.rt.state = .queued v ∧
        (v ≠ o → { display := d, stamp := (t.str y.cfg.string).counter - 1 } ∈ (t.str y.cfg.string).queue v) ∧
        (x.cfg.string = y.cfg.string →
          (t.str y.cfg.string).counter = (s.str y.cfg.string).counter + (if v = o then 0 else 1) ∧
            (v = o → ∀ e ∈ (s.str x.cfg.string).queue o, e.display = d → e ∈ (t.str x.cfg.string).queue o)) ∧
        (x.cfg.string ≠ y.cfg.string →
          (t.str y.cfg.string).counter = (s.str y.cfg.string).counter + (if v = o then 1 else 2) ∧
            (v = o → { display := d, stamp := (s.str y.cfg.string).counter } ∈ (t.str y.cfg.string).queue o) ∧
            (t.str x.cfg.string).counter = (s.str x.cfg.string).counter ∧
            ∀ f ∈ (t.str x.cfg.string).queue o, f.display ≠ d))

/-- R40: what a WRITE of DESTINATIONS supplies of each field. -/
structure DestWrite where
  name : Option (Option Nat)
  kind : Option Nat
  targets : Option (List Nat)
  deriving DecidableEq, Repr

/-- R40: its pairs. -/
def DestWrite.pairs (w : DestWrite) : FieldList :=
  given 1 (w.name.map optValue) ++ given 2 (w.kind.map .number) ++ given 3 (w.targets.map .list)

/-- R40, R52, R54: the destination that it leaves, but for the cells, of one that stood before or of the defaults: PENDING with sweep
count 0, with what it supplies, clamped, and the rest. -/
def DestWrite.leaves (w : DestWrite) (e : Dest) : Dest :=
  { e with
    name := w.name.elim e.name fun v => v.map (min 1023)
    kind := (w.kind.bind DestKind.ofCode).getD e.kind
    targets := w.targets.getD e.targets
    status := .pending
    sweeps := 0 }

/-- R40: a kind outside its list, or a target set that is empty, too long or names a node twice. -/
def DestWrite.ValueRefused (w : DestWrite) : Prop :=
  (∃ v, w.kind = some v ∧ 3 < v) ∨ ∃ ns, w.targets = some ns ∧ (ns.length = 0 ∨ 4 < ns.length ∨ ¬ns.Nodup)

/-- R40: a target that is no present node. -/
def DestWrite.TargetRefused (w : DestWrite) (s : State) : Prop :=
  ∃ ns, w.targets = some ns ∧ ∃ n ∈ ns, 255 < n ∨ Tab.fetch s.nodes n = none

/-- R65: what a WRITE of PROGRAMME supplies of each field. -/
structure ProgrammeWrite where
  day : Option Nat
  start : Option Nat
  duration : Option Nat
  venue : Option (Option Nat)
  category : Option Nat
  deck : Option Nat
  title : Option Nat
  status : Option Nat
  deriving DecidableEq, Repr

/-- R65: its pairs. -/
def ProgrammeWrite.pairs (w : ProgrammeWrite) : FieldList :=
  given 1 (w.day.map .number) ++ given 2 (w.start.map .number) ++ given 3 (w.duration.map .number) ++
    given 4 (w.venue.map optValue) ++ given 5 (w.category.map .number) ++ given 6 (w.deck.map .number) ++
    given 7 (w.title.map .number) ++ given 8 (w.status.map .number)

/-- R67, R68: the entry that it leaves, before the clock, of one that stood before or of the defaults: what it supplies, clamped, and
the rest; a supplied CANCELLED cancels it, and a supplied SCHEDULED changes no status. -/
def ProgrammeWrite.leaves (w : ProgrammeWrite) (e : ProgEntry) : ProgEntry :=
  { e with
    day := w.day.elim e.day (min 255)
    start := w.start.elim e.start (min 1439)
    duration := w.duration.elim e.duration (min 720)
    venue := w.venue.elim e.venue fun v => v.map (min 31)
    category := w.category.elim e.category (min 15)
    deck := w.deck.elim e.deck (min 15)
    title := w.title.elim e.title (min 1023)
    status := if w.status = some 3 then .cancelled else e.status }

/-- R69: an entry whose status is set against the clock. -/
def ProgEntry.clocked (e : ProgEntry) (now : Option Nat) : ProgEntry :=
  { e with status := statusAt now (e.day * 1440 + e.start) e.duration e.status }

/-- R66, step 2: a status that is neither SCHEDULED nor CANCELLED. -/
def ProgrammeWrite.StatusRefused (w : ProgrammeWrite) : Prop := ∃ v, w.status = some v ∧ v ≠ 0 ∧ v ≠ 3

/-- R68: a status supplied to an ENDED entry, or SCHEDULED to a CANCELLED one. -/
def ProgrammeWrite.Closed (w : ProgrammeWrite) (e : ProgEntry) : Prop :=
  (e.status = .ended ∧ w.status ≠ none) ∨ (e.status = .cancelled ∧ w.status = some 0)

/-- R66, step 3: a clamp. -/
def ProgrammeWrite.Adjusted (w : ProgrammeWrite) : Prop :=
  (∃ v, w.day = some v ∧ 255 < v) ∨ (∃ v, w.start = some v ∧ 1439 < v) ∨ (∃ v, w.duration = some v ∧ 720 < v) ∨
    (∃ v, w.venue = some (some v) ∧ 31 < v) ∨ (∃ v, (w.category = some v ∨ w.deck = some v) ∧ 15 < v) ∨
    ∃ v, w.title = some v ∧ 1023 < v

/-- R77: the urgency of the marks of a WRITE: a cancellation, which moves an entry from SCHEDULED or RUNNING, goes at SERVICE. -/
def programmeUrgencyAt (p : Phase) (before : Option ProgEntry) (after : ProgEntry) : Urgency :=
  if p = .alert ∨ p = .muster then .safety
  else if after.status = .cancelled ∧
      (before.map (·.status) = some .scheduled ∨ before.map (·.status) = some .running) then .service
  else .routine

/-- R80: what a WRITE of CABINS supplies of each field. -/
structure CabinWrite where
  number : Option Nat
  display : Option Nat
  station : Option (Option Nat)
  group : Option (Option Nat)
  occupancy : Option Nat
  language : Option (Option Nat)
  greeting : Option (Option Nat)
  deriving DecidableEq, Repr

/-- R80: its pairs. -/
def CabinWrite.pairs (w : CabinWrite) : FieldList :=
  given 1 (w.number.map .number) ++ given 2 (w.display.map .number) ++ given 3 (w.station.map optValue) ++
    given 4 (w.group.map optValue) ++ given 5 (w.occupancy.map .number) ++ given 6 (w.language.map optValue) ++
    given 7 (w.greeting.map optValue)

/-- R82: a WRITE takes an OCCUPIED cabin to VACANT. -/
def CabinWrite.Vacates (w : CabinWrite) (c : Cabin) : Prop := c.occupied = true ∧ ∃ v, w.occupancy = some v ∧ v ≠ 1

/-- R81, R82: the cabin `c'` is what a WRITE leaves of one that stood before, or of the defaults: what it supplies, clamped, and the
rest; DND and MUR go where the cabin is vacated. -/
structure CabinWrite.Leaves (w : CabinWrite) (c c' : Cabin) : Prop where
  fields : c' =
    { c with
      number := w.number.getD c.number
      display := w.display.getD c.display
      station := w.station.elim c.station fun v => v.map (min 31)
      group := w.group.getD c.group
      occupied := w.occupancy.elim c.occupied fun v => v == 1
      language := w.language.elim c.language fun v => v.map (min 3)
      greeting := w.greeting.elim c.greeting fun v => v.map (min 1023)
      dnd := c'.dnd
      mur := c'.mur }
  vacated : w.Vacates c → c'.dnd = false ∧ c'.mur = false
  flags : ¬w.Vacates c → c'.dnd = c.dnd ∧ c'.mur = c.mur

/-- R82: the cabin has been created, or its muster station or its display is not that of the cabin before the write. -/
def Cabin.MovesFrom (c : Cabin) (old : Option Cabin) : Prop := ∀ o, old = some o → o.station ≠ c.station ∨ o.display ≠ c.display

/-- R82: a display is the cabin's, or that of the cabin before the write. -/
def Cabin.Names (c : Cabin) (old : Option Cabin) (d : Nat) : Prop := d = c.display ∨ ∃ o, old = some o ∧ o.display = d

/-- R81, step 2: a number, an occupancy or a group outside its values. -/
def CabinWrite.ValueRefused (w : CabinWrite) : Prop :=
  (∃ v, w.number = some v ∧ (v = 0 ∨ 65535 < v)) ∨ (∃ v, w.occupancy = some v ∧ 1 < v) ∨
    ∃ v, w.group = some (some v) ∧ (v < 65 ∨ 90 < v)

/-- R81, step 3: a display supplied that is no present CABIN display. -/
def CabinWrite.DisplayRefused (w : CabinWrite) (s : State) : Prop :=
  ∃ d, w.display = some d ∧ ∀ x, s.display d = some x → 511 < d ∨ x.cfg.cls ≠ .cabin

/-- R81, step 4: a clamp. -/
def CabinWrite.Adjusted (w : CabinWrite) : Prop :=
  (∃ v, w.station = some (some v) ∧ 31 < v) ∨ (∃ v, w.language = some (some v) ∧ 3 < v) ∨
    ∃ v, w.greeting = some (some v) ∧ 1023 < v

/-- R96: what a WRITE of NOTICES supplies of each field. -/
structure NoticeWrite where
  priority : Option Nat
  classMask : Option Nat
  deckMask : Option Nat
  text : Option Nat
  start : Option (Option Nat)
  stop : Option (Option Nat)
  deriving DecidableEq, Repr

/-- R96: its pairs. -/
def NoticeWrite.pairs (w : NoticeWrite) : FieldList :=
  given 1 (w.priority.map .number) ++ given 2 (w.classMask.map .number) ++ given 3 (w.deckMask.map .number) ++
    given 4 (w.text.map .number) ++ given 5 (w.start.map optValue) ++ given 6 (w.stop.map optValue)

/-- R97: the highest priority that an origin may give. -/
def priorityLimit (origin : Nat) : Nat := if origin = originContent then 11 else 15

/-- R97: the notice that it leaves, but for the current flag, of one that stood before or of the defaults: what it supplies, adjusted,
and the rest. That a deck mask is clamped is read from the spec (log entry 15). -/
def NoticeWrite.leaves (w : NoticeWrite) (origin : Nat) (n : Notice) : Notice :=
  { n with
    priority := w.priority.elim n.priority fun v => max 1 (min (priorityLimit origin) v)
    classMask := w.classMask.elim n.classMask (BitVec.ofNat 6)
    deckMask := w.deckMask.elim n.deckMask fun v => BitVec.ofNat 16 (min 65535 v)
    text := w.text.elim n.text fun v => min 1023 v
    start := w.start.elim n.start fun v => v.map (min 368639)
    stop := w.stop.elim n.stop fun v => v.map (min 368639) }

/-- R97, step 2: an adjustment. -/
def NoticeWrite.Adjusted (w : NoticeWrite) (origin : Nat) : Prop :=
  (∃ v, w.priority = some v ∧ (v = 0 ∨ priorityLimit origin < v)) ∨ (∃ v, w.classMask = some v ∧ 63 < v) ∨
    (∃ v, w.deckMask = some v ∧ 65535 < v) ∨ (∃ v, w.text = some v ∧ 1023 < v) ∨
    ∃ v, (w.start = some (some v) ∨ w.stop = some (some v)) ∧ 368639 < v

/-- R97, step 3: both bounds are present and the end is not greater than the start. -/
def Notice.BoundsRefused (n : Notice) : Prop := ∃ m e, n.start = some m ∧ n.stop = some e ∧ e ≤ m

/-- R98: a notice that is current by the ship clock as it stands. -/
def State.CurrentNow (s : State) (n : Notice) : Prop :=
  (n.start = none ∧ n.stop = none) ∨
    (s.ship.valid = true ∧ (∀ m, n.start = some m → m ≤ s.ship.day * 1440 + s.ship.minute) ∧
      ∀ m, n.stop = some m → s.ship.day * 1440 + s.ship.minute < m)

/-! ### The table of R9 -/

/-- What a cell of the table of R9 says. -/
inductive PhaseCell where
  /-- "no change", "ignored", and the cells that cannot occur. -/
  | keep
  /-- "drill d" in the current phase. -/
  | drill
  /-- A phase entered, with "drill d" (in NORMAL the flag is false: R10). -/
  | enter (q : Phase)
  /-- "ignored; LINE_HELD". -/
  | held
  deriving DecidableEq, Repr

/-- R9: the rows by the current phase and the phase the bulletin names, each with its DEASSERTED and its ASSERTED cell. -/
def phaseRow : Phase → Phase → PhaseCell × PhaseCell
  | .normal, .normal => (.keep, .keep)
  | .normal, .alert => (.enter .alert, .keep)
  | .normal, .muster => (.enter .muster, .keep)
  | .normal, .standDown => (.keep, .keep)
  | .alert, .normal => (.enter .normal, .held)
  | .alert, .alert => (.drill, .drill)
  | .alert, .muster => (.enter .muster, .enter .muster)
  | .alert, .standDown => (.enter .standDown, .held)
  | .muster, .normal => (.enter .standDown, .held)
  | .muster, .alert => (.keep, .keep)
  | .muster, .muster => (.drill, .drill)
  | .muster, .standDown => (.enter .standDown, .held)
  | .standDown, .normal => (.enter .normal, .keep)
  | .standDown, .alert => (.enter .alert, .keep)
  | .standDown, .muster => (.enter .muster, .keep)
  | .standDown, .standDown => (.drill, .keep)

/-- R9: the cell for a current phase, a named phase and the muster line. -/
def phaseCell (current named : Phase) (asserted : Bool) : PhaseCell :=
  if asserted then (phaseRow current named).2 else (phaseRow current named).1

end Sys2Proof.Machine

namespace Sys2Proof

/-- The command of a request that arrives. -/
def Request.command (a : Arrival) : Request → Option Instr
  | .write t i fs => some (.write a t i fs)
  | .read t i => some (.read a t i)
  | .clear t i => some (.clear a t i)
  | .clearTable t => some (.clearTable a t)
  | .adjustSteps k v c => some (.adjustSteps a k v c)
  | .holdString k => some (.holdString a k)
  | .freeString k => some (.freeString a k)
  | .retryDisplay d => some (.retryDisplay a d)
  | .restart => some (.restart a)
  | .status => some (.status a)
  | .displayStatus d => some (.displayStatus a d)
  | .identify => some (.identify a)
  | .malformed _ => none

/-- The request kinds that change something when they are carried out (R163). -/
def Request.changes : Request → Bool
  | .write _ _ _ => true
  | .clear _ _ => true
  | .clearTable _ => true
  | .adjustSteps _ _ _ => true
  | .holdString _ => true
  | .freeString _ => true
  | .retryDisplay _ => true
  | .restart => true
  | .read _ _ => false
  | .status => false
  | .displayStatus _ => false
  | .identify => false
  | .malformed _ => false

/-- R164: a table request whose table id is above 15. -/
def Request.TableRefused : Request → Prop
  | .write t _ _ => 15 < t
  | .read t _ => 15 < t
  | .clear t _ => 15 < t
  | .clearTable t => 15 < t
  | .adjustSteps _ _ _ => False
  | .holdString _ => False
  | .freeString _ => False
  | .retryDisplay _ => False
  | .restart => False
  | .status => False
  | .displayStatus _ => False
  | .identify => False
  | .malformed _ => False

/-- R164, R169: an index outside its table's range, PROGRAMME's 0 being for READ alone; or the string, the display or the DISPLAY target
of a request outside its own. -/
def Request.IndexRefused : Request → Prop
  | .write t i _ => t ≤ 15 ∧ (Machine.tableRanges.getD t 0 ≤ i ∨ (t = 7 ∧ i = 0))
  | .read t i => t ≤ 15 ∧ Machine.tableRanges.getD t 0 ≤ i
  | .clear t i => t ≤ 15 ∧ (Machine.tableRanges.getD t 0 ≤ i ∨ (t = 7 ∧ i = 0))
  | .clearTable _ => False
  | .adjustSteps k v _ => k = 0 ∧ 511 < v
  | .holdString k => 7 < k
  | .freeString k => 7 < k
  | .retryDisplay d => 511 < d
  | .restart => False
  | .status => False
  | .displayStatus d => 511 < d
  | .identify => False
  | .malformed _ => False

/-! ### The bytes of frames, of requests and of bulletins (R122, R179, R180) -/

/-- R122: the bits of a byte, most significant first. -/
def bitsOf (b : Byte) : List Bool := [7, 6, 5, 4, 3, 2, 1, 0].map fun k => b.toNat.testBit k

/-- R122: one bit fed into the CRC register, whose generator is x^16 + x^12 + x^5 + 1. -/
def crcFeed (r : Nat) (bit : Bool) : Nat :=
  if decide (2 ^ 15 ≤ r) = bit then 2 * r % 2 ^ 16 else Nat.xor (2 * r % 2 ^ 16) (2 ^ 12 + 2 ^ 5 + 1)

/-- R122: the CRC of a byte string: the register starts at all ones, and is not inverted at the end. -/
def crcValue (bs : List Byte) : Nat := (bs.flatMap bitsOf).foldl crcFeed (2 ^ 16 - 1)

/-- R179, R180: the bytes of a frame as it can arrive, with the two bits above the hop limit at `upper`. -/
def Frame.received (f : Frame) (upper : Nat) : List Byte :=
  let front := [byteOf f.kind, byteOf f.origin, byteOf f.node, byteOf f.dest, byteOf (upper * 64 + f.hop)] ++ be16 f.seq ++
    be16 f.body.length ++ f.body
  front ++ be16 (crcValue front)

/-- R180: the frame of a kind and a body that arrives. -/
def Arrival.frame (a : Arrival) (kind : Nat) (body : List Byte) : Frame :=
  { kind := kind, origin := a.origin, node := a.node, dest := a.dest, hop := a.hop, seq := a.seq, body := body }

/-- R179: a byte reads as a flag: 0 is clear, and any other value is set. -/
abbrev ReadsAs (b : Byte) (flag : Bool) : Prop := flag = true ↔ b.toNat ≠ 0

/-- Items spelled one after another. -/
def SpelledEach {α : Type} (p : α → List Byte → Prop) : List α → List Byte → Prop
  | [], bs => bs = []
  | x :: xs, bs => ∃ front rest, p x front ∧ SpelledEach p xs rest ∧ bs = front ++ rest

/-- R180: the twelve bytes of a slot. -/
def RawSlot.SpelledBy (x : RawSlot) (bs : List Byte) : Prop :=
  ∃ emphasis, ReadsAs emphasis x.emphasis ∧
    bs = [byteOf x.column, byteOf x.row, byteOf x.width, byteOf x.height, byteOf x.size, emphasis, byteOf x.source] ++
      be16 x.argument ++ [byteOf x.language, byteOf x.condition, byteOf x.polarity]

/-- R180: the tag and the bytes of a value. -/
def FieldValue.SpelledBy : FieldValue → List Byte → Prop
  | .number n, bs => bs = 0 :: be32 n
  | .flag f, bs => ∃ b, ReadsAs b f ∧ bs = [1, b]
  | .absent, bs => bs = [2]
  | .list ns, bs => bs = 3 :: byteOf ns.length :: ns.flatMap be16
  | .string cs, bs => bs = 4 :: byteOf cs.length :: cs.flatMap be16
  | .slots xs, bs => ∃ ys, SpelledEach RawSlot.SpelledBy xs ys ∧ bs = 5 :: byteOf xs.length :: ys

/-- R180: the bytes of a pair: the field number and the value. -/
def PairSpelledBy (p : Nat × FieldValue) (bs : List Byte) : Prop := ∃ ys, p.2.SpelledBy ys ∧ bs = byteOf p.1 :: ys

/-- R179, R180: the body of a request, by its kind. -/
def Request.SpelledBy : Request → List Byte → Prop
  | .write t i fs, bs => ∃ ys, SpelledEach PairSpelledBy fs ys ∧ bs = [0, byteOf t] ++ be16 i ++ [byteOf fs.length] ++ ys
  | .read t i, bs => bs = [1, byteOf t] ++ be16 i
  | .clear t i, bs => bs = [2, byteOf t] ++ be16 i
  | .clearTable t, bs => bs = [3, byteOf t]
  | .adjustSteps k v c, bs => bs = [4, byteOf k] ++ be16 v ++ [byteOf c]
  | .holdString k, bs => bs = [5, byteOf k]
  | .freeString k, bs => bs = [6, byteOf k]
  | .retryDisplay d, bs => bs = 7 :: be16 d
  | .restart, bs => bs = [8]
  | .status, bs => bs = [9]
  | .displayStatus d, bs => bs = 10 :: be16 d
  | .identify, bs => bs = [11]
  | .malformed _, _ => False

/-- R179, R180: the body of a bulletin, by its kind. -/
def Bulletin.SpelledBy : Bulletin → List Byte → Prop
  | .time d m sec, bs => bs = 0 :: (be16 d ++ be16 m ++ [byteOf sec])
  | .phase p drill, bs => ∃ b, ReadsAs b drill ∧ bs = [1, byteOf p, b]
  | .closures f st, bs => bs = 2 :: byteOf f :: byteOf st.length :: st.map byteOf
  | .light l, bs => bs = [3, byteOf l]
  | .cabinMark ns, bs => bs = 4 :: byteOf ns.length :: ns.flatMap be16
  | .assistClear ns, bs => bs = 5 :: byteOf ns.length :: ns.flatMap be16
  | .other, _ => False

/-- R181: the bytes of a message or a reply on a string. -/
def stringLayout (tag code : Nat) (payload : List Byte) : List Byte :=
  let front := [byteOf tag, byteOf code] ++ be16 payload.length ++ payload
  front ++ be16 (crcValue front)

/-- R181: the code and the payload of a reply of one of the six codes. -/
def StringReply.layout : StringReply → Option (Nat × List Byte)
  | .ready c => some (129, [byteOf c])
  | .busy ms => some (130, be16 ms)
  | .ack => some (131, [])
  | .nak => some (132, [])
  | .refresh ms => some (133, be16 ms)
  | .events cs => some (134, byteOf cs.length :: cs.map byteOf)
  | .unknown _ => none

/-- The command of a bulletin that arrives. -/
def Bulletin.command (a : Arrival) : Bulletin → Option Instr
  | .time d m sec => some (.timeBulletin a d m sec)
  | .phase p dr => some (.phaseBulletin a p dr)
  | .closures f st => some (.closuresBulletin a f st)
  | .light l => some (.lightBulletin a l)
  | .cabinMark ns => some (.cabinMarkBulletin a ns)
  | .assistClear ns => some (.assistClearBulletin a ns)
  | .other => none

/-- The command of a reply that arrives on a string. -/
def StringReply.command (k : StringNo) (tag : Nat) : StringReply → Option Instr
  | .ready c => some (.ready k tag c)
  | .busy ms => some (.busy k tag ms)
  | .ack => some (.ack k tag)
  | .nak => some (.nak k tag)
  | .refresh ms => some (.refresh k tag ms)
  | .events cs => some (.events k tag cs)
  | .unknown _ => none

end Sys2Proof

namespace Sys2Proof.Machine

/-- R181: the bytes of a slot's value in the record: its kind and the value. That a set OVER mark is sent as 1 is the model's choice
(log entry 34). -/
def valueLayout : Value → List Byte
  | .blank => [0]
  | .text cs => 1 :: byteOf cs.length :: cs.flatMap be16
  | .glyph g => [2, byteOf g.code]
  | .number n ovr => 3 :: (be16 n ++ [if ovr then 1 else 0])
  | .time (some (h, m)) => [4, byteOf h, byteOf m]
  | .time none => [4, 255, 255]

/-- R180: the eleven bytes of a report: kind, class, subject and value, then the stamp. -/
def reportLayout (r : Report) : List Byte :=
  [byteOf r.kind.code, byteOf r.kind.cls] ++ be16 r.subject ++ be16 r.value ++
    [if r.stamp.valid then 0 else 1, byteOf r.stamp.day] ++ be16 r.stamp.minute ++ [byteOf r.stamp.second]

/-- R22, R31, R38, R40, R65, R105, R111, R115 to R118, R143, R159, R168, R179: the numbers that the enumerated values are sent as, each
list in the order of its table, and the class of each kind of report. -/
structure EnumerationCodes : Prop where
  phase : [Phase.normal, .alert, .muster, .standDown].map Phase.code = [0, 1, 2, 3]
  closure : [Closure.opened, .closed, .unknown].map Closure.code = [0, 1, 2]
  cls : [DisplayClass.musterPoint, .corridor, .lobby, .programme, .cabin, .liftLanding].map DisplayClass.code = [0, 1, 2, 3, 4, 5]
  clsRead : ∀ n c, DisplayClass.ofCode n = some c ↔ n = c.code
  urgency : [Urgency.safety, .service, .routine].map Urgency.code = [0, 1, 2]
  update : ∀ u, [UpdateState.clean, .queued u, .opened, .faulted].map UpdateState.code = [0, 1, 2, 3]
  fault : [FaultCause.noReply, .rejected, .mismatch].map FaultCause.code = [0, 1, 2]
  segment : [SegmentKind.corridor, .stair, .lift, .openDeck].map SegmentKind.code = [0, 1, 2, 3]
  segmentRead : ∀ n k, SegmentKind.ofCode n = some k ↔ n = k.code
  destination : [DestKind.venue, .musterStation, .servicePoint, .exit].map DestKind.code = [0, 1, 2, 3]
  destinationRead : ∀ n k, DestKind.ofCode n = some k ↔ n = k.code
  status : [DestStatus.pending, .solving, .suspended, .settled].map DestStatus.code = [0, 1, 2, 3]
  entry : [EntryStatus.scheduled, .running, .ended, .cancelled].map EntryStatus.code = [0, 1, 2, 3]
  grid : [Grid.large, .small].map Grid.code = [0, 1]
  mode : [ScreenMode.normal, .notice, .quiet, .alert, .muster, .standDown].map ScreenMode.code = [0, 1, 2, 3, 4, 5]
  source : [Source.text, .destName, .arrow, .distance, .minutes, .progTitle, .progVenue, .progTime, .progMark, .progArrow,
      .cabinNumber, .greeting, .musterName, .musterGroup, .musterArrow, .musterDistance, .musterMinutes, .noticeText, .clock,
      .deck, .serviceGlyphs, .phaseMark].map Source.code = List.range 22
  condition : [Condition.always, .alertOrMuster, .drill, .noticePresent, .dnd, .mur, .occupied, .assist, .swept, .routePending,
      .destUnreachable, .progPresent, .progCancelled, .quiet, .linkLost, .standDown].map Condition.code = List.range 16
  arrows : ∀ o : Fin 8, (Glyph.arrow o).code = o.val
  glyph : [Glyph.stairsUp, .stairsDown, .lift, .here, .noRoute, .routePending, .now, .next, .cancelled, .restricted, .dnd, .mur,
      .assist, .swept, .drill].map Glyph.code = [8, 9, 10, 11, 12, 13, 16, 17, 18, 19, 24, 25, 26, 27, 32]
  string : [StringState.idle, .opened, .holding, .held].map StringState.code = [0, 1, 2, 3]
  report : [ReportKind.assist, .musterRoute, .lineHeld, .serviceCall, .dndChange, .murChange, .displayFault,
      .displayRecovered].map (fun k => (k.code, k.cls)) =
    [(0, 3), (1, 2), (2, 2), (3, 1), (4, 1), (5, 1), (6, 0), (7, 0)]
  result : [ResultCode.done, .adjusted, .malformed, .noTable, .badIndex, .denied, .phase, .badField, .badRef, .conflict, .busy,
      .full, .closed].map ResultCode.code = List.range 13

/-- R140: a reply under the awaited tag that the awaiting step rejects: NAK, a reply of a kind that its message does not expect, or
one that passes its check under a code that is none of the six. -/
def Txn.Rejects (t : Txn) (k : StringNo) (i : Instr) : Prop :=
  (∃ r, r.command k t.tag = some i ∧ ¬t.step.Expects r ∧ ∀ cs, r = .events cs → cs.length ≤ 4) ∨
    ∃ (code : Nat) (payload : List Byte), t.tag < 256 ∧ code < 256 ∧ code ∉ replyCodes ∧ payload.length < 65536 ∧
      (∀ m, payloadLength code = some m → payload.length = m) ∧ i = .stringReplyDiscard k (stringBytes t.tag code payload)

end Sys2Proof.Machine
end

