-- ==== Sys2Proof/Certificates/Slice0/Obligations.lean ====
section
/-! DEFINITION. The statements for the provers. Each says what a command does to a state that meets hypotheses on the state and
the operands alone, or what every step keeps. A frame is written as an equation: the state after with the parts that may differ
put back is the state before. Where a clause rests on a choice of the model, the docstring names the log entry: entry 2 (a
timer's command brings the time base to the deadline, or leaves it where it is later), entry 3 (an event that cannot arise
changes nothing), entries 17 and 20 (a message carries the tag as it stands and is on the line at once). -/

open Sys2Proof Sys2Proof.Machine

/-! ### Steps -/

/-- A step runs the command at the front of the queue on the state with the queue's rest. -/
def Obligations.StepRunsFront : Prop :=
  ∀ (c : Instr) (rest : List Instr) (s : State), s.pending = c :: rest → step s = exec c { s with pending := rest }

/-- The model's choice (log entry 1): while no command waits, a step is one of the 820's own events that is due or under way (`Due` and
`UnderWay` name each with the time or the state that makes it so), or a millisecond of the time base, which does not pass while an
event is due. -/
def Obligations.IdleStep : Prop :=
  ∀ s t : State, s.pending = [] → step s = .next t →
    (∃ i, (s.Due i ∨ s.UnderWay i) ∧ exec i { s with draws := s.draws + 1 } = .next t) ∨
      ((∀ i, ¬s.Due i) ∧ { t with draws := s.draws } = { s with now := s.now + 1 })

/-! ### Reset and the pins -/

/-- The power-on values of every block, and the node address of R150. The pins' levels and what waits in the queue are the
outside's and stay (log entry 7). -/
def Obligations.PowerOnReset : Prop :=
  ∀ (straps : BitVec 8) (s : State), ∃ t, exec (.powerOnReset straps) s = .next t ∧
    (t.ship.day = 0 ∧ t.ship.minute = 0 ∧ t.ship.second = 0 ∧ t.ship.valid = false ∧ t.ship.subSecond = 0 ∧ t.now = 0 ∧
      t.ship.line = false ∧ t.ship.rawSince = 0 ∧ t.ship.phase = .normal ∧ t.ship.drill = false ∧ t.ship.hold = none ∧
      t.ship.holdRunOut = false ∧ t.ship.silence = some 10000 ∧ t.ship.linkLost = false ∧ (∀ c, t.closure c = .unknown) ∧
      t.ship.light = .day ∧ t.ship.quiet = false) ∧
    (t.node.holdTime = 120 ∧ t.node.silenceTime = 10 ∧ t.node.quietStart = 0 ∧ t.node.quietEnd = 0 ∧ t.node.walkRate = 720 ∧
      t.node.weights = [8, 20, 12, 4, 10] ∧ t.node.retention = 30 ∧ t.node.minRefresh = #v[0, 0, 0, 0, 20, 0] ∧
      t.node.quietMask = 0xFF#8 ∧ t.node.zoneGroup = none ∧ t.node.reportDest = 255 ∧ t.node.reportPort = .fore ∧
      t.node.txHop = 63) ∧
    (t.displays = [] ∧ t.nodes = [] ∧ t.segments = [] ∧ t.dests = [] ∧ t.lists = [] ∧ t.programme = [] ∧ t.lastEvaluation = none ∧ t.cabins = [] ∧
      t.lossReported = [] ∧ t.notices = [] ∧ t.templates = [] ∧ t.selection = [] ∧ t.texts = []) ∧
    (∀ i : Fin 8, t.regions[i] =
      { table := none, first := 0, last := 0, readContent := false, readMaintenance := false, readBridge := false,
        writeContent := false, writeMaintenance := false, writeBridge := false, lock := false }) ∧
    (∀ k : StringNo, (t.str k).enabled = true ∧ (t.str k).timeout = 8 ∧ (t.str k).pollPeriod = 1000 ∧
      (t.str k).state = .idle ∧ (t.str k).safety = [] ∧ (t.str k).service = [] ∧ (t.str k).routine = [] ∧
      (t.str k).counter = 0 ∧ (t.str k).run = 0 ∧ (t.str k).cursor = 0 ∧ (t.str k).tag = 0 ∧ (t.str k).txn = none) ∧
    t.quietCopy = false ∧
    (∀ p : Port, (t.port p).up = false ∧ (t.port p).queue = [] ∧ (t.port p).sending = none ∧
      (t.port p).signal = (s.port p).signal) ∧
    (t.address = if 1 ≤ straps.toNat ∧ straps.toNat ≤ 239 then some straps.toNat else none) ∧
    t.watermark = none ∧ t.replies = [] ∧ t.reports = [] ∧ t.reportArrival = 0 ∧ t.reportSeq = 0 ∧
    t.ship.raw = s.ship.raw ∧ t.straps = straps ∧ t.pending = s.pending

/-- R7, R10, R11, R13: the muster line's filter and what its changes do. A change of the raw level starts the 200 ms afresh; the
filter's completion on a low level DEASSERTS the line and changes nothing else; on a high level it ASSERTS the line, which enters ALERT
from NORMAL and STAND_DOWN, and in ALERT and MUSTER clears the drill flag, with the marks of R13. The model's choices: the completion
comes at the raw level's time plus 200 ms, or now where that is later (log entry 2); a level that repeats or agrees with the line
changes nothing (log entries 3 and 7). -/
def Obligations.MusterLine : Prop :=
  ∀ s : State,
    (∀ level, s.ship.raw ≠ level →
      exec (.musterInChange level) s = .next { s with ship := { s.ship with raw := level, rawSince := s.now } }) ∧
    (∀ level, s.ship.raw = level → exec (.musterInChange level) s = .next s) ∧
    (s.ship.raw = false → s.ship.line = true →
      exec .musterLineChange s =
        .next { s with now := max s.now (s.ship.rawSince + 200), ship := { s.ship with line := false } }) ∧
    (s.ship.raw = s.ship.line → exec .musterLineChange s = .next s) ∧
    (s.ship.raw = true → s.ship.line = false → ∃ t, exec .musterLineChange s = .next t ∧
      ((s.ship.phase = .normal ∨ s.ship.phase = .standDown) →
        ({ s with now := max s.now (s.ship.rawSince + 200), ship := { s.ship with line := true } } : State).Entered t .alert
          false) ∧
      ((s.ship.phase = .alert ∨ s.ship.phase = .muster) →
        { t with displays := s.displays, strings := s.strings } =
            { s with
              now := max s.now (s.ship.rawSince + 200)
              ship := { s.ship with line := true, drill := false } } ∧
          (s.Marks t fun _ _ u => s.ship.drill = true ∧ u = .safety) ∧
          (s.ship.drill = false → t.displays = s.displays ∧ t.strings = s.strings)))

/-! ### The ship's clock and timers -/

/-- R2, R3, R5: an INVALID clock does not advance; a second is carried into the minute and the day; on a minute every programme entry
moves by the clock and the outlived ones are removed (R72, R74), the notices whose end has come are removed and the others take their
current flag (R99), quiet hours are judged anew (R19), and the displays that R77, R78, R102, R125 and R35 name are marked, and no
others. That the advance comes at the sub-second position plus 1000 ms, or now where that is later, is the model's choice (log entry
2), and so is the order of the receivers (log entry 11). -/
def Obligations.ClockSecond : Prop :=
  ∀ s : State,
    (s.ship.valid = false → exec .clockSecondAdvance s = .next s) ∧
    (s.ship.valid = true → s.ship.second < 59 →
      exec .clockSecondAdvance s =
        .next { s with
          now := max s.now (s.ship.subSecond + 1000)
          ship := { s.ship with second := s.ship.second + 1, subSecond := s.ship.subSecond + 1000 } }) ∧
    (s.ship.valid = true → s.ship.second = 59 →
      ∃ t, exec .clockSecondAdvance s = .next t ∧ t.now = max s.now (s.ship.subSecond + 1000) ∧
        t.ship.second = 0 ∧ t.ship.minute = (if s.ship.minute < 1439 then s.ship.minute + 1 else 0) ∧
        t.ship.day =
          (if s.ship.minute < 1439 then s.ship.day else if s.ship.day < 255 then s.ship.day + 1 else 0) ∧
        t.ship.subSecond = s.ship.subSecond + 1000 ∧
        t.lastEvaluation = some (t.ship.day * 1440 + t.ship.minute) ∧
        (∀ e ∈ t.programme, e.status = .scheduled → t.ship.day * 1440 + t.ship.minute < e.day * 1440 + e.start) ∧
        (∀ e ∈ t.notices, ∀ b, e.2.stop = some b → t.ship.day * 1440 + t.ship.minute < b) ∧
        (s.TablesOk →
          s.ClockTaken t (t.ship.day * 1440 + t.ship.minute) True ∧
            s.ClockMarks t s.lastEvaluation (t.ship.day * 1440 + t.ship.minute) True) ∧
        t.QuietInForce ∧ (t.quietCopy = if t.ship.quiet = s.ship.quiet then s.quietCopy else t.ship.quiet) ∧
        { t.ship with day := s.ship.day, minute := s.ship.minute, second := s.ship.second, subSecond := s.ship.subSecond,
                      quiet := s.ship.quiet } = s.ship ∧
        { t with now := s.now, ship := s.ship, programme := s.programme, lastEvaluation := s.lastEvaluation,
                 notices := s.notices, displays := s.displays, strings := s.strings, quietCopy := s.quietCopy } = s)

/-- R12, R13, R91: the stand-down hold expires in STAND_DOWN, by LINK_LOST: the mark that it ran out, or the entry to NORMAL. That the
expiry comes at the hold's time, or now where that is later, is the model's choice (log entry 2). -/
def Obligations.HoldExpiry : Prop :=
  ∀ (s : State) (due : Nat), s.ship.phase = .standDown → s.ship.hold = some due →
    (s.ship.linkLost = true →
      exec .standDownHoldExpiry s =
        .next { s with now := max s.now due, ship := { s.ship with hold := none, holdRunOut := true } }) ∧
    (s.ship.linkLost = false →
      ∃ t, exec .standDownHoldExpiry s = .next t ∧ ({ s with now := max s.now due } : State).Entered t .normal false)

/-- R15, R16: the bridge-silence timer expires, and every display is marked; LINK_LOST ends by a bulletin that is ignored, and by a
taken PHASE bulletin in STAND_DOWN, applied first, and every display is marked; a hold that ran out then takes effect if the phase is
still STAND_DOWN. The model's choices: the expiry comes at the timer's time, or now where that is later (log entry 2), and changes
nothing while no timer runs (log entry 3). -/
def Obligations.BridgeSilence : Prop :=
  (∀ s : State,
    (∀ due, s.ship.silence = some due →
      ∃ t, exec .bridgeSilenceExpiry s = .next t ∧ t.now = max s.now due ∧
        t.ship = { s.ship with silence := none, linkLost := true } ∧
        (s.Marks t fun _ _ u => u = emergencyUrgency s.ship.phase) ∧
        { t with now := s.now, ship := s.ship, displays := s.displays, strings := s.strings } = s) ∧
    (s.ship.silence = none → exec .bridgeSilenceExpiry s = .next s)) ∧
  (∀ (a : Arrival) (b : Bulletin) (i : Instr) (s : State), b.command a = some i → s.Hears a → b.bytes.length ≤ 1024 →
    ¬s.Fresh a.seq →
    ∃ t m, exec i s = .next t ∧ m = { s.heard t a.seq with watermark := s.watermark } ∧ m.LinkRestored t s.ship.linkLost) ∧
  (∀ (a : Arrival) (p : Nat) (d : Bool) (s : State), s.Hears a → s.Fresh a.seq → s.ship.linkLost = true →
    s.ship.phase = .standDown → s.ship.line = false → s.ship.holdRunOut = true →
    ∃ t, exec (.phaseBulletin a p d) s = .next t ∧
      (p = 1 ∨ p = 2 → (s.heard t a.seq).Entered t (if p = 1 then .alert else .muster) d) ∧
      (p = 3 → ∃ m : State, ((s.heard t a.seq).Marks m fun _ _ u => d ≠ s.ship.drill ∧ u = .service) ∧
        { m with displays := s.displays, strings := s.strings } =
          { s.heard t a.seq with ship := { (s.heard t a.seq).ship with drill := d } } ∧
        m.Entered t .normal false) ∧
      (p = 0 ∨ 4 ≤ p → (s.heard t a.seq).Entered t .normal false))

/-! ### Ports and frames -/

/-- R148, R149: the line signal of a port, and the port's changes of state. The model's choices: a change comes at its time, or
now where that is later (log entry 2), and a level that repeats changes nothing (log entry 3). -/
def Obligations.LinkPorts : Prop :=
  ∀ (s : State) (p : Port),
    (∀ b, (s.port p).signal ≠ b →
      exec (.lineSignalChange p b) s = .next (s.setPort p { s.port p with signal := b, signalSince := s.now })) ∧
    (∀ b, (s.port p).signal = b → exec (.lineSignalChange p b) s = .next s) ∧
    ((s.port p).up = false → (s.port p).signal = true →
      exec (.portUp p) s =
        .next ({ s with now := max s.now ((s.port p).signalSince + 100) }.setPort p { s.port p with up := true })) ∧
    ((s.port p).up = true → (s.port p).signal = false →
      ∃ t, exec (.portDown p) s = .next t ∧ t.now = max s.now ((s.port p).signalSince + 10) ∧
        t.port p = { s.port p with up := false, queue := [], sending := none } ∧ t.port p.other = s.port p.other ∧
        (∀ r, r ∈ t.replies ↔ r ∈ s.replies ∧ r.port ≠ p) ∧
        { t with now := s.now, fore := s.fore, aft := s.aft, replies := s.replies } = s)

/-- R151 to R154, R179: the frames that are discarded without further action, by their bytes or by a port that is DOWN (R148); and
forwarding, by comparison with the same frame at hop limit 0, which is never forwarded (R152): that one leaves a state, and the
frame leaves the same but for the copy, with its hop limit lowered by one and its body as it came, at the tail of the other port's
forward queue, exactly where the frame is forwarded and that port is UP and has room as the frame's own effect leaves it. The two upper
bits of the hop byte, whatever they are, change nothing. A frame that does not concern the 820, and one that is neither a BULLETIN of
BRIDGE nor a REQUEST of one of the four origin classes, has no effect of its own, and none but a RESTART touches a port. That a RESTART
is carried out before it is forwarded, so that its copy survives its emptying of the queues, is the model's choice (log entry 5). -/
def Obligations.FramesArrive : Prop :=
  (∀ (s : State) (p : Port) (bs : List Byte),
    (s.port p).up = false ∨ bs.length < 11 ∨
        crcBytes (bs.take (bs.length - 2)) ≠ bs.drop (bs.length - 2) ∨
        1024 < num16 (bs.getD 7 0) (bs.getD 8 0) ∨ num16 (bs.getD 7 0) (bs.getD 8 0) ≠ bs.length - 11 ∨
        ((bs.getD 1 0).toNat = originController ∧ s.address = some (bs.getD 2 0).toNat) →
      exec (.frameReceive p bs) s = .next s) ∧
  (∀ (s : State) (p : Port) (f : Frame),
    f.kind < 256 → f.origin < 256 → f.node < 256 → f.dest < 256 → f.hop < 64 → f.seq < 65536 → f.body.length ≤ 1024 →
    (s.port p).up = true → ¬(f.origin = originController ∧ s.address = some f.node) →
    ∃ u t, exec (.frameReceive p ({ f with hop := 0 } : Frame).bytes) s = .next u ∧
      (∀ upper < 4, exec (.frameReceive p (f.received upper)) s = .next t) ∧
      ((1 ≤ f.hop ∧ s.address ≠ some f.dest ∧ (u.port p.other).up = true ∧ (u.port p.other).queue.length < 16) →
        t = u.setPort p.other
          { u.port p.other with queue := (u.port p.other).queue ++ [{ f with hop := f.hop - 1 }] }) ∧
      (¬(1 ≤ f.hop ∧ s.address ≠ some f.dest ∧ (u.port p.other).up = true ∧ (u.port p.other).queue.length < 16) →
        t = u) ∧
      (¬s.ConcernedBy f.dest → u = s) ∧ (¬((f.kind = 0 ∧ f.origin = 0) ∨ (f.kind = 1 ∧ f.origin ≤ 3)) → u = s) ∧
      (¬(f.kind = 1 ∧ f.body = [8]) → ∀ q, u.port q = s.port q))

/-- R122, R179 to R181: the bytes of a request frame, of a bulletin frame and of a string reply are its command: every operand of every
well-formed request, bulletin and reply comes through the layouts written out here (`SpelledBy`, `StringReply.layout`), and the
enumerations have the spec's codes. A flag byte of 1..255 reads as set, in a pair, a slot and a drill byte, and the two upper bits of
the hop byte are not read. (A frame that is forwarded goes on with its body as it came, which `FramesArrive` says; so where a body
spells a flag otherwise than the 820 would, the frame is compared with the command where it is not forwarded.) What the 820 sends
itself is laid out and checked in the same way. That it sends a set flag as 1 is the model's choice (log entry 34). -/
def Obligations.CommandBytes : Prop :=
  (∀ (a : Arrival) (r : Request) (i : Instr) (s : State) (body : List Byte), r.command a = some i → i.wf = true →
    r.SpelledBy body → (a.hop = 0 ∨ s.address = some a.dest ∨ body = r.bytes) → ∀ upper < 4,
    exec (.frameReceive a.port ((a.frame 1 body).received upper)) s = exec i s) ∧
  (∀ (a : Arrival) (b : Bulletin) (i : Instr) (s : State) (body : List Byte), b.command a = some i → i.wf = true →
    b.SpelledBy body → (a.hop = 0 ∨ s.address = some a.dest ∨ body = b.bytes) → ∀ upper < 4,
    exec (.frameReceive a.port ((a.frame 0 body).received upper)) s = exec i s) ∧
  (∀ (k : StringNo) (tag : Nat) (r : StringReply) (i : Instr) (s : State) (code : Nat) (payload : List Byte),
    r.command k tag = some i → i.wf = true → r.layout = some (code, payload) →
    exec (.stringReplyDiscard k (stringLayout tag code payload)) s = exec i s) ∧
  (∀ n, (byteOf n).toNat = n % 256 ∧ be16 n = [byteOf (n / 256), byteOf n] ∧
    be32 n = [byteOf (n / 16777216), byteOf (n / 65536), byteOf (n / 256), byteOf n]) ∧
  (∀ f : Frame, f.bytes = ({ f with hop := f.hop % 64 } : Frame).received 0) ∧
  (∀ tag code payload, stringBytes tag code payload = stringLayout tag code payload) ∧
  (∀ record, (digest record).toNat = crcValue record) ∧
  (∀ (a : Arrival) (r : Request) (i : Instr), r.command a = some i → r.SpelledBy r.bytes) ∧
  (∀ (a : Arrival) (b : Bulletin) (i : Instr), b.command a = some i → b.SpelledBy b.bytes) ∧
  (∀ (present : Bool) (pairs : FieldList), ∃ body, SpelledEach PairSpelledBy pairs body ∧
    dataBytes (present, pairs) = [if present then 0 else 1, byteOf pairs.length] ++ body) ∧
  EnumerationCodes

/-- R155, R15, R16, R179: the watermark, taken and ignored bulletins, and the watermark at resets. That a taken bulletin is applied and
an ignored one is not is said for a frame that is not forwarded, hop limit 0; of an ignored one that is forwarded, that it does no
more than its copy (`heard`) and the end of LINK_LOST. A body that is dropped whole (of no byte, of a kind above 5, or of a length that
is not its layout's: R179) is judged by the watermark all the same: taken, it changes no other state, and taken or ignored the
bridge-silence timer starts afresh and LINK_LOST ends. That a bulletin is applied before the bridge counts as alive, so that LINK_LOST
ends after it, is read from R16 (log entry 30). -/
def Obligations.Watermark : Prop :=
  (∀ (a : Arrival) (b : Bulletin) (i : Instr) (s : State), b.command a = some i → s.Hears a → b.bytes.length ≤ 1024 →
    ∃ t, exec i s = .next t ∧ t.ship.silence = some (s.now + s.node.silenceTime * 1000) ∧ t.ship.linkLost = false ∧
      (s.watermark = none → t.watermark = some a.seq) ∧
      (∀ w, s.watermark = some w →
        (1 ≤ (a.seq + 65536 - w) % 65536 ∧ (a.seq + 65536 - w) % 65536 ≤ 32767 → t.watermark = some a.seq) ∧
        ((a.seq + 65536 - w) % 65536 = 0 ∨ 32768 ≤ (a.seq + 65536 - w) % 65536 → t.watermark = some w)) ∧
      (a.hop = 0 →
        (s.Fresh a.seq → t = (({ s with watermark := some a.seq } : State).applyBulletin b).bridgeAlive) ∧
        (¬s.Fresh a.seq → t = s.bridgeAlive)) ∧
      (¬s.Fresh a.seq → ({ s.heard t a.seq with watermark := s.watermark } : State).LinkRestored t s.ship.linkLost)) ∧
  (∀ (p : Port) (f : Frame) (s : State), f.kind = kindBulletin → f.origin = originBridge → f.node < 256 → f.dest < 256 →
    f.hop < 64 → f.seq < 65536 → f.body.length ≤ 1024 → (s.port p).up = true → s.ConcernedBy f.dest → DroppedBody f.body →
    ∃ t, exec (.frameReceive p f.bytes) s = .next t ∧
      (s.Fresh f.seq → (s.heard t f.seq).LinkRestored t s.ship.linkLost) ∧
      (¬s.Fresh f.seq → ({ s.heard t f.seq with watermark := s.watermark } : State).LinkRestored t s.ship.linkLost) ∧
      (f.hop = 0 → t.fore = s.fore ∧ t.aft = s.aft)) ∧
  (∀ (straps : BitVec 8) (s : State), ∃ t, exec (.powerOnReset straps) s = .next t ∧ t.watermark = none) ∧
  (∀ (a : Arrival) (s : State), ∃ t, exec (.restart a) s = .next t ∧ t.watermark = s.watermark)

/-- R4, R5: a taken TIME bulletin sets the clock, or is dropped whole for a value out of range. The clock set, every programme entry
moves by it and the outlived ones are removed (R72, R74); where the minute moved or the clock was INVALID the notices are evaluated
(R99); quiet hours are judged anew (R19); and the displays that R77, R78, R102, R125 and R35 name are marked, and no others. What the
bulletin leaves is `m`; where LINK_LOST ends with it, R16 follows. The order of the receivers is the model's (log entry 11). -/
def Obligations.TimeBulletin : Prop :=
  ∀ (a : Arrival) (day minute second : Nat) (s : State), s.Hears a → s.Fresh a.seq →
    ∃ t m, exec (.timeBulletin a day minute second) s = .next t ∧ m.LinkRestored t s.ship.linkLost ∧
      (day ≤ 255 ∧ minute ≤ 1439 ∧ second ≤ 59 →
        m.ship =
            { (s.heard t a.seq).ship with
              day := day, minute := minute, second := second, valid := true, subSecond := s.now, quiet := m.ship.quiet } ∧
          m.lastEvaluation = some (day * 1440 + minute) ∧ m.QuietInForce ∧
          (m.quietCopy = if m.ship.quiet = s.ship.quiet then s.quietCopy else m.ship.quiet) ∧
          (∀ old boundary, old = (if s.ship.valid then s.lastEvaluation else none) →
            (boundary ↔ s.ship.valid = false ∨ day * 1440 + minute ≠ s.ship.day * 1440 + s.ship.minute) → s.TablesOk →
            s.ClockTaken m (day * 1440 + minute) boundary ∧ s.ClockMarks m old (day * 1440 + minute) boundary) ∧
          { m with ship := s.ship, programme := s.programme, lastEvaluation := s.lastEvaluation, notices := s.notices,
                   displays := s.displays, strings := s.strings, quietCopy := s.quietCopy } =
            { s.heard t a.seq with ship := s.ship }) ∧
      (¬(day ≤ 255 ∧ minute ≤ 1439 ∧ second ≤ 59) → m = s.heard t a.seq)

/-- R9, R10, R12, R14, R15, R159, R160: what a taken PHASE bulletin makes of the Ship State Unit and of the Report Queue while LINK_LOST
is false, by the table of R9; a phase value outside the four drops it. The bridge-silence timer starts afresh, and nothing else of
the unit changes than the cell says, but quiet hours on an entry. In the cells that R9 says cannot occur the model changes nothing
(log entry 12), and PhaseOk rules them out. -/
def Obligations.PhaseBulletin : Prop :=
  ∀ (a : Arrival) (p : Nat) (d : Bool) (s : State), s.Hears a → s.Fresh a.seq → s.PhaseOk → s.ship.linkLost = false →
    ∃ t, exec (.phaseBulletin a p d) s = .next t ∧ t.ship.silence = some (s.now + s.node.silenceTime * 1000) ∧
      (∀ q : Phase, q.code = p →
        match phaseCell s.ship.phase q s.ship.line with
        | .keep => t.ship = { s.ship with silence := t.ship.silence } ∧ t.reporting = s.reporting
        | .drill => t.ship = { s.ship with drill := d, silence := t.ship.silence } ∧ t.reporting = s.reporting
        | .enter r =>
          t.ship =
              { s.ship with
                phase := r
                drill := if r = .normal then false else d
                hold := if r = .standDown then some (s.now + s.node.holdTime * 1000) else none
                holdRunOut := false
                quiet := t.ship.quiet
                silence := t.ship.silence } ∧
            t.QuietInForce ∧ t.reporting = s.reporting
        | .held =>
          t.ship = { s.ship with silence := t.ship.silence } ∧
            Reported s.stamp .lineHeld (s.address.getD 0) p s.reporting t.reporting) ∧
      (4 ≤ p →
        t.ship = { s.ship with silence := t.ship.silence } ∧
          { t with ship := s.ship, watermark := s.watermark, fore := s.fore, aft := s.aft } = s) ∧
      { t with ship := s.ship, dests := s.dests, cabins := s.cabins, displays := s.displays, strings := s.strings,
               quietCopy := s.quietCopy, reports := s.reports, reportArrival := s.reportArrival, watermark := s.watermark,
               fore := s.fore, aft := s.aft } = s

/-- R10, R11, R13, R19, R53, R130: what an entry to ALERT or MUSTER from NORMAL or STAND_DOWN brings, by the muster line or by a PHASE
bulletin: quiet hours end, every destination is invalidated, every string is freed, every display is marked at SAFETY, and nothing
else changes. That the line changes at its filter's time, or now where that is later, is the model's choice (log entry 2). -/
def Obligations.AlarmEffects : Prop :=
  ∀ s : State, s.QuietOk → (s.ship.phase = .normal ∨ s.ship.phase = .standDown) → s.ship.line = false →
    (s.ship.raw = true →
      ∃ t, exec .musterLineChange s = .next t ∧ t.ship.quiet = false ∧ t.quietCopy = false ∧ s.InvalidatesAll t ∧
        (∀ k, (t.str k).state = freedState (s.str k).state) ∧
        (∀ d x, s.display d = some x → t.display d = some (x.markedAt .safety)) ∧
        ({ s with now := max s.now (s.ship.rawSince + 200), ship := { s.ship with line := true } } : State).Entered t .alert
          false) ∧
    (∀ (a : Arrival) (p : Nat) (d : Bool), s.Hears a → s.Fresh a.seq → p = 1 ∨ p = 2 →
      ∃ t, exec (.phaseBulletin a p d) s = .next t ∧ t.ship.quiet = false ∧ t.quietCopy = false ∧ s.InvalidatesAll t ∧
        (∀ k, (t.str k).state = freedState (s.str k).state) ∧
        (∀ d x, s.display d = some x → t.display d = some (x.markedAt .safety)) ∧
        (s.heard t a.seq).Entered t (if p = 1 then .alert else .muster) d)

/-- R9, R10, R13 to R16, R53, R91, R130: the effects of a taken PHASE bulletin, by the cell of R9's table: what an entered phase brings
(`State.Entered`), the marks of a change of the drill flag alone, and LINE_HELD; where LINK_LOST ends with it, R16 follows.
Nothing else changes but what taking a bulletin does (`State.heard`). A phase value outside the four drops it. In the cells that cannot
occur the model changes nothing (log entry 12), and PhaseOk rules them out. -/
def Obligations.PhaseEffects : Prop :=
  ∀ (a : Arrival) (p : Nat) (d : Bool) (s : State), s.Hears a → s.Fresh a.seq → s.PhaseOk →
    ∃ t, exec (.phaseBulletin a p d) s = .next t ∧
      (∀ q r : Phase, q.code = p → phaseCell s.ship.phase q s.ship.line = .enter r → (s.heard t a.seq).Entered t r d) ∧
      (∀ q : Phase, q.code = p → phaseCell s.ship.phase q s.ship.line = .drill →
        ∃ m : State,
          ((s.heard t a.seq).Marks m fun _ _ u => d ≠ s.ship.drill ∧
            u = if s.ship.phase = .alert ∨ s.ship.phase = .muster then .safety else .service) ∧
          (d = s.ship.drill → m.displays = s.displays ∧ m.strings = s.strings) ∧
          { m with displays := s.displays, strings := s.strings } =
            { s.heard t a.seq with ship := { (s.heard t a.seq).ship with drill := d } } ∧
          m.LinkRestored t s.ship.linkLost) ∧
      (4 ≤ p ∨ (∃ q : Phase, q.code = p ∧
          (phaseCell s.ship.phase q s.ship.line = .keep ∨ phaseCell s.ship.phase q s.ship.line = .held)) →
        ∃ m : State,
          ((∃ q : Phase, q.code = p ∧ phaseCell s.ship.phase q s.ship.line = .held) →
            Reported s.stamp .lineHeld (s.address.getD 0) p s.reporting m.reporting) ∧
          ((∀ q : Phase, q.code = p → phaseCell s.ship.phase q s.ship.line ≠ .held) → m.reporting = s.reporting) ∧
          { m with reports := s.reports, reportArrival := s.reportArrival } = s.heard t a.seq ∧
          m.LinkRestored t s.ship.linkLost)

/-- R17: a taken CLOSURES bulletin; R52: every destination is invalidated where some closure changes passability. It marks no
display: what it leaves, `m`, differs in nothing but the closures, the destinations and what taking a bulletin changes; where LINK_LOST
ends with it, R16 follows. -/
def Obligations.ClosuresBulletin : Prop :=
  ∀ (a : Arrival) (first : Nat) (states : List Nat) (s : State), s.Hears a → s.Fresh a.seq → states.length ≤ 1021 →
    ∃ t m, exec (.closuresBulletin a first states) s = .next t ∧ m.LinkRestored t s.ship.linkLost ∧
      (first ≤ 127 ∧ 1 ≤ states.length ∧ states.length ≤ 32 →
        ∀ c, m.closure c =
          if first ≤ c ∧ c < first + states.length ∧ c < 128 then
            (match states.getD (c - first) 3 with
              | 0 => .opened
              | 1 => .closed
              | 2 => .unknown
              | _ => s.closure c)
          else s.closure c) ∧
      (¬(first ≤ 127 ∧ 1 ≤ states.length ∧ states.length ≤ 32) → m.ship.closures = s.ship.closures) ∧
      ((∃ c < 128, (m.closure c = .closed ∧ s.closure c ≠ .closed) ∨ (s.closure c = .closed ∧ m.closure c ≠ .closed)) →
        s.InvalidatesAll m) ∧
      ((∀ c < 128, m.closure c = .closed ↔ s.closure c = .closed) → m.dests = s.dests) ∧
      { m with ship := { m.ship with closures := s.ship.closures }, dests := s.dests } = s.heard t a.seq

/-- R18, R35: a taken LIGHT bulletin: the level, and a mark for the displays, and no others, whose effective brightness differs; where
LINK_LOST ends with it, R16 follows. -/
def Obligations.LightBulletin : Prop :=
  ∀ (a : Arrival) (level : Nat) (s : State), s.Hears a → s.Fresh a.seq → s.TablesOk →
    ∃ t m, exec (.lightBulletin a level) s = .next t ∧ m.LinkRestored t s.ship.linkLost ∧
      m.ship.light = (match level with
        | 0 => .day
        | 1 => .night
        | _ => s.ship.light) ∧
      (m.ship.light = s.ship.light → m.displays = s.displays ∧ m.strings = s.strings) ∧
      (s.Marks m fun _ x u => m.brightness x.cfg ≠ s.brightness x.cfg ∧ u = emergencyUrgency s.ship.phase) ∧
      { m with ship := { m.ship with light := s.ship.light }, displays := s.displays, strings := s.strings } =
        s.heard t a.seq

/-- R84, R89, R90: the two bulletins to the cabins: the flags that they set or clear, and a mark for the displays, and no others, of the
linked cabins whose flag changes; where LINK_LOST ends with one, R16 follows. -/
def Obligations.CabinBulletins : Prop :=
  ∀ (a : Arrival) (ns : List Nat) (s : State), s.Hears a → s.Fresh a.seq → ns.length ≤ 511 →
    (∃ t m, exec (.cabinMarkBulletin a ns) s = .next t ∧ m.LinkRestored t s.ship.linkLost ∧
      m.cabins =
        (if 1 ≤ ns.length ∧ ns.length ≤ 32 ∧ (s.ship.phase = .alert ∨ s.ship.phase = .muster) then
          s.cabins.map fun e => (e.1, { e.2 with swept := e.2.swept || ns.contains e.2.number })
        else s.cabins) ∧
      (s.TablesOk → s.Marks m fun d x u =>
        (1 ≤ ns.length ∧ ns.length ≤ 32 ∧ (s.ship.phase = .alert ∨ s.ship.phase = .muster)) ∧ x.cfg.cls = .cabin ∧
          (∃ e ∈ s.cabins, e.2.display = d ∧ e.2.number ∈ ns ∧ e.2.swept = false) ∧ u = .safety) ∧
      { m with cabins := s.cabins, displays := s.displays, strings := s.strings } = s.heard t a.seq) ∧
    (∃ t m, exec (.assistClearBulletin a ns) s = .next t ∧ m.LinkRestored t s.ship.linkLost ∧
      m.cabins =
        (if 1 ≤ ns.length ∧ ns.length ≤ 32 then
          s.cabins.map fun e => (e.1, { e.2 with assist := e.2.assist && !ns.contains e.2.number })
        else s.cabins) ∧
      (s.TablesOk → s.Marks m fun d x u =>
        (1 ≤ ns.length ∧ ns.length ≤ 32) ∧ x.cfg.cls = .cabin ∧
          (∃ e ∈ s.cabins, e.2.display = d ∧ e.2.number ∈ ns ∧ e.2.assist = true) ∧
          u = if s.ship.phase = .alert ∨ s.ship.phase = .muster then .safety else .service) ∧
      { m with cabins := s.cabins, displays := s.displays, strings := s.strings } = s.heard t a.seq)

/-! ### Requests -/

/-- R156: a request that concerns the 820 and is not answered: a node-addressed one that finds four replies waiting is
discarded; a zone-cast or all-cast one, here one that is not forwarded, is carried out as the Responder carries it out and owes
no reply: it leaves what the same request addressed to the 820 leaves, less the reply. -/
def Obligations.RequestUnanswered : Prop :=
  ∀ (a : Arrival) (r : Request) (i : Instr) (s : State), r.command a = some i → s.Receives a → a.origin ≤ originController →
    r.bytes.length ≤ 1024 →
    (s.address = some a.dest → 4 ≤ s.replies.length → exec i s = .next s) ∧
    (s.address ≠ some a.dest → s.ConcernedBy a.dest → a.hop = 0 →
      ∃ t, exec i s = .next t ∧ t = (s.respond a.origin r).state ∧ (r ≠ .restart → t.replies = s.replies) ∧
        ∀ n j, s.address = some n → s.replies.length < 4 → r.command { a with dest := n } = some j →
          ∃ code data, exec j s = .next (t.answered { a with dest := n } code (r.kindCode.getD 0) data))

/-- R156, R157, R163, R164, R165, R168, R169: a node-addressed request that finds room is carried out by the Responder, and its reply
goes to the tail of the reply queue, owed on the arrival port, with the result code, the request kind and the data (R180). A request
refused by any check makes no change, and its reply carries the code alone. In good form, a table id above 15 is answered NO_TABLE and
an index or argument outside its range BAD_INDEX. Of an entry in range that access and phase let pass, a WRITE with a field number that
its table does not have is answered BAD_FIELD, and one with no field is DONE and changes nothing where the entry is a present one of
DISPLAYS, PROGRAMME, CABINS, NOTICES or TEMPLATES (NODE, STRINGS and REGIONS are in `ConfigurationWrites`, NODES and SEGMENTS in
`WalkingGraph`, DESTINATIONS in `DestinationsAndLists`, the tables that require field 1 in `MalformedRequest`). -/
def Obligations.RequestAnswered : Prop :=
  ∀ (a : Arrival) (r : Request) (i : Instr) (s : State), r.command a = some i → s.Asked a → r.bytes.length ≤ 1024 →
    exec i s =
        .next ((s.respond a.origin r).state.answered a (s.respond a.origin r).code.code (r.kindCode.getD 0)
          (s.respond a.origin r).data) ∧
      (2 ≤ (s.respond a.origin r).code.code →
        exec i s = .next (s.answered a (s.respond a.origin r).code.code (r.kindCode.getD 0) [])) ∧
      ((∀ t j fs, r = .write t j fs → ¬s.OutOfForm t j fs) →
        (r.TableRefused → exec i s = .next (s.answered a 3 (r.kindCode.getD 0) [])) ∧
          (r.IndexRefused → exec i s = .next (s.answered a 4 (r.kindCode.getD 0) []))) ∧
      (∀ t j, r = .write t j [] → j < tableRanges.getD t 0 → (t = 7 → 1 ≤ j) → s.WriteAccess a.origin t j →
        (s.ship.phase = .alert ∨ s.ship.phase = .muster → a.origin ≠ originBridge → t ≠ 1 ∧ t ≠ 11) →
        ((t = 1 ∧ (s.display j).isSome = true) ∨ (t = 7 ∧ ∃ e ∈ s.programme, e.id = j) ∨
          (t = 8 ∧ (Tab.fetch s.cabins j).isSome = true) ∨ (t = 9 ∧ (Tab.fetch s.notices j).isSome = true) ∨
          (t = 11 ∧ (Tab.fetch s.templates j).isSome = true)) →
        exec i s = .next (s.answered a 0 0 [])) ∧
      ∀ t j fs, r = .write t j fs → ¬s.OutOfForm t j fs → t ≤ 13 → j < tableRanges.getD t 0 → (t = 7 → 1 ≤ j) →
        s.WriteAccess a.origin t j →
        (s.ship.phase = .alert ∨ s.ship.phase = .muster → a.origin ≠ originBridge →
          t ∉ [1, 2, 3, 4, 5, 11, 12] ∧ (t = 8 → 2 ∉ fs.map (·.1) ∧ 3 ∉ fs.map (·.1))) →
        (∃ p ∈ fs, p.1 = 0 ∨ tableFields.getD t 0 < p.1) →
        exec i s = .next (s.answered a 7 0 [])

/-- R170: every request of origin CONTROLLER that would change something is refused at the access check or before it, and
changes nothing. For an ADJUST_STEPS whose target cannot be read, which R169 says that checks 4 and 5 pass, the model takes R170's
word for CONTROLLER and refuses it at check 4 (log entry 28). -/
def Obligations.ControllerChangesNothing : Prop :=
  ∀ (a : Arrival) (r : Request) (i : Instr) (s : State), r.command a = some i → r.changes = true → s.Asked a →
    r.bytes.length ≤ 1024 → a.origin = originController →
    ∃ code, 2 ≤ code ∧ code ≤ 5 ∧ exec i s = .next (s.answered a code (r.kindCode.getD 0) [])

/-- R174: what the phase check keeps out, by origin and phase, changes nothing: the code is PHASE or that of an earlier check,
but for an ADJUST_STEPS whose target cannot be read, which the phase check passes (R169). Where the earlier checks pass, by
whatever access, it is PHASE: a WRITE, a CLEAR and a CLEAR_TABLE of a gated table and an ADJUST_STEPS (HOLD_STRING is in
`HoldAndFree`, RESTART in `Restart`). -/
def Obligations.PhaseGate : Prop :=
  ∀ (a : Arrival) (s : State), s.Asked a →
    (∀ (r : Request) (i : Instr), r.command a = some i → r.bytes.length ≤ 1024 →
      ((s.ship.phase = .alert ∨ s.ship.phase = .muster) ∧
          ((a.origin ≠ originBridge ∧
              ((∃ t j fs, r = .write t j fs ∧ (t ∈ [1, 2, 3, 4, 5, 11, 12] ∨ (t = 8 ∧ (2 ∈ fs.map (·.1) ∨ 3 ∈ fs.map (·.1))))) ∨
                (∃ t j, r = .clear t j ∧ t ∈ [1, 2, 3, 4, 5, 8, 11, 12]) ∨
                (∃ t, r = .clearTable t ∧ t ∈ [1, 2, 3, 4, 5, 8, 11, 12]) ∨ (∃ k v c, r = .adjustSteps k v c))) ∨
            ∃ k, r = .holdString k)) ∨
        (s.ship.phase ≠ .normal ∧ r = .restart) →
      ∃ code, 2 ≤ code ∧
        (code ≤ 6 ∨ (code = 7 ∧ ∃ k v c, r = .adjustSteps k v c ∧ (3 ≤ k ∨ (k = 1 ∧ 6 ≤ v)))) ∧
        exec i s = .next (s.answered a code (r.kindCode.getD 0) [])) ∧
    ((s.ship.phase = .alert ∨ s.ship.phase = .muster) → a.origin ≠ originBridge →
      (∀ t j, j < tableRanges.getD t 0 → s.WriteAccess a.origin t j →
        (∀ fs, fieldsWf fs = true → ¬s.OutOfForm t j fs →
          t ∈ [1, 2, 3, 4, 5, 11, 12] ∨ (t = 8 ∧ (2 ∈ fs.map (·.1) ∨ 3 ∈ fs.map (·.1))) →
          exec (.write a t j fs) s = .next (s.answered a 6 0 [])) ∧
        (t ∈ [1, 2, 3, 4, 5, 8, 11, 12] → exec (.clear a t j) s = .next (s.answered a 6 2 []))) ∧
      (∀ t ∈ [1, 2, 3, 4, 5, 8, 11, 12], (∀ j, s.ClearReaches t j → s.WriteAccess a.origin t j) →
        exec (.clearTable a t) s = .next (s.answered a 6 3 [])) ∧
      (∀ k v c, k = 0 ∨ (k = 1 ∧ v ≤ 5) ∨ k = 2 → (k = 0 → v < 512) → a.origin ≠ originController →
        (∀ d x, s.display d = some x → (k = 0 ∧ d = v ∨ k = 1 ∧ x.cfg.cls.code = v ∨ k = 2) → s.WriteAccess a.origin 1 d) →
        exec (.adjustSteps a k v c) s = .next (s.answered a 6 4 [])))

/-- R165, R169: the malformed requests. A body of no byte, of an unknown kind, or shorter or longer than its kind's layout gives;
a WRITE with a field number twice, with a value of a kind that the field cannot hold, or that creates an entry and lacks a
required field; a WRITE of LISTS, TEXTS or SELECTION without field 1. That a value's kind is checked before the index, for every
index of the tables 0..15, is read from the spec (log entry 14). For a body of no byte the kind byte of the reply is a free value
(log entry 16): the statement holds for every value of it. -/
def Obligations.MalformedRequest : Prop :=
  ∀ (a : Arrival) (s : State), s.Asked a →
    (a.wf = true →
      (∀ (k : Byte) (rest : List Byte), rest.length ≤ 1023 →
        (12 ≤ k.toNat ∨ (k.toNat ∈ [1, 2] ∧ rest.length ≠ 3) ∨ (k.toNat ∈ [3, 5, 6] ∧ rest.length ≠ 1) ∨
            (k.toNat = 4 ∧ rest.length ≠ 4) ∨ (k.toNat ∈ [7, 10] ∧ rest.length ≠ 2) ∨
            (k.toNat ∈ [8, 9, 11] ∧ rest.length ≠ 0) ∨ (k.toNat = 0 ∧ rest.length < 4)) →
        exec (.frameReceive a.port ({ a.requestFrame .restart with body := k :: rest } : Frame).bytes) s =
          .next (s.answered a 2 k.toNat [])) ∧
      (∀ (k : Byte), k.toNat = 0 → ∀ t i1 i0 : Byte, ∀ extra : List Byte, extra ≠ [] → extra.length ≤ 1019 →
        exec (.frameReceive a.port ({ a.requestFrame .restart with body := k :: t :: i1 :: i0 :: 0 :: extra } : Frame).bytes) s =
          .next (s.answered a 2 0 [])) ∧
      ∃ (b : Byte) (t : State),
        exec (.frameReceive a.port ({ a.requestFrame .restart with body := [] } : Frame).bytes) s = .next t ∧
          { t with draws := s.draws } = s.answered a 2 b.toNat []) ∧
    (∀ t i fs, fieldsWf fs = true → s.OutOfForm t i fs →
      exec (.write a t i fs) s = .next (s.answered a 2 0 []))

/-- R168 to R173: who may read and who may write each entry, by the lowest-numbered region that matches it and, where none does, by
default access. An unlocked region never bars the BRIDGE, a locked one gives it exactly its bits; CONTROLLER reads every entry and
writes none; CLOSURES and ROUTES, the fixed templates and the entry of a locked region are written by nobody. A READ, WRITE or CLEAR
that access lets pass is not answered DENIED, and one that it bars is; the requests that R173 judges as one of these go the same way,
an ADJUST_STEPS by every display that its target reaches. What a READ that passes returns is in `ReadAnswers`. -/
def Obligations.AccessRegions : Prop :=
  ∀ (a : Arrival) (t i : Nat) (s : State), s.Asked a → t ≤ 15 → i < tableRanges.getD t 0 →
    (s.ReadAccess a.origin t i → exec (.read a t i) s = .next (s.answered a 0 1 (dataBytes (s.readEntry t i)))) ∧
    (¬s.ReadAccess a.origin t i →
      exec (.read a t i) s = .next (s.answered a 5 1 []) ∧
        (t = 1 → exec (.displayStatus a i) s = .next (s.answered a 5 10 []))) ∧
    ((t = 7 → 1 ≤ i) →
      (s.WriteAccess a.origin t i →
        (∃ code u, code ≤ 12 ∧ code ≠ 5 ∧ exec (.clear a t i) s = .next (State.answered u a code 2 [])) ∧
          (∀ fs, fieldsWf fs = true →
            ∃ code u, code ≤ 12 ∧ code ≠ 5 ∧ exec (.write a t i fs) s = .next (State.answered u a code 0 [])) ∧
          (t = 2 →
            (∃ code u, code ≤ 12 ∧ code ≠ 5 ∧ exec (.holdString a i) s = .next (State.answered u a code 5 [])) ∧
              ∃ code u, code ≤ 12 ∧ code ≠ 5 ∧ exec (.freeString a i) s = .next (State.answered u a code 6 [])) ∧
          (t = 1 → ∃ code u, code ≤ 12 ∧ code ≠ 5 ∧ exec (.retryDisplay a i) s = .next (State.answered u a code 7 []))) ∧
      (¬s.WriteAccess a.origin t i →
        exec (.clear a t i) s = .next (s.answered a 5 2 []) ∧
          (∀ fs, fieldsWf fs = true → ¬s.OutOfForm t i fs →
            exec (.write a t i fs) s = .next (s.answered a 5 0 [])) ∧
          ((t = 7 → ∃ e ∈ s.programme, e.id = i) → (t = 11 → 16 ≤ i) →
            exec (.clearTable a t) s = .next (s.answered a 5 3 [])) ∧
          (t = 2 →
            exec (.holdString a i) s = .next (s.answered a 5 5 []) ∧
              exec (.freeString a i) s = .next (s.answered a 5 6 [])) ∧
          (t = 1 →
            exec (.retryDisplay a i) s = .next (s.answered a 5 7 []) ∧
              ∀ x kind value code, s.display i = some x →
                (kind = 0 ∧ value = i) ∨ (kind = 1 ∧ value = x.cfg.cls.code) ∨ kind = 2 →
                exec (.adjustSteps a kind value code) s = .next (s.answered a 5 4 [])))) ∧
    ((t ≤ 13 ∧ t ≠ 7 ∧ ∀ j < tableRanges.getD t 0, (t = 11 → 16 ≤ j) → s.WriteAccess a.origin t j) ∨
        (t = 7 ∧ a.origin ≠ originController ∧ ∀ e ∈ s.programme, s.WriteAccess a.origin 7 e.id) →
      ∃ code u, code ≤ 12 ∧ code ≠ 5 ∧ exec (.clearTable a t) s = .next (State.answered u a code 3 [])) ∧
    (a.origin ≠ originController → (∀ d x, s.display d = some x → s.WriteAccess a.origin 1 d) →
      ∀ kind value code, ∃ c u, c ≤ 12 ∧ c ≠ 5 ∧ exec (.adjustSteps a kind value code) s = .next (State.answered u a c 4 []))

/-- R12, R15, R19, R42, R46, R127, R157, R161, R165, R167, R171, R172: WRITE and CLEAR of NODE, STRINGS and REGIONS where access
lets them, each WRITE with any fields in any order, or none. NODE: each value clamped, and what its reader does with a change: nothing at
once for the fields that no rule acts on, whose running timers go on; quiet hours judged again for their start and end; every display
marked for the walk rate; every destination invalidated for a weight; a CLEAR as a WRITE of every default. STRINGS: taken while the
string is HELD, else BUSY. REGIONS: BAD_FIELD for a table above 15 or a first index above the last, DENIED for every origin where the
region itself is locked. Read from the spec: that the quiet service mask and a REGIONS index past its range are clamped as every
number is (log entry 15); that a value that stays sets nothing off, that the times are read at the next start of their timers, and
that a CLEAR of NODE acts as a WRITE of the defaults (log entry 32). -/
def Obligations.ConfigurationWrites : Prop :=
  ∀ (a : Arrival) (s : State), s.Asked a →
    (s.WriteAccess a.origin 0 0 →
      (∀ (w : NodeWrite) (fs : FieldList), fs.Perm w.pairs →
        ∃ (code : Nat) (t : State), exec (.write a 0 0 fs) s = .next (t.answered a code 0 []) ∧ code ≤ 1 ∧
          (code = 1 ↔ w.Adjusted) ∧ t.node = w.leaves s.node ∧ s.NodeTaken t) ∧
      ∃ t : State, exec (.clear a 0 0) s = .next (t.answered a 0 2 []) ∧ t.node = State.reset.node ∧ s.NodeTaken t) ∧
    (∀ k : StringNo, s.MayChange a 2 k.val →
      (∀ (w : StringWrite) (fs : FieldList), fs.Perm w.pairs →
        ((s.str k).state ≠ .held → exec (.write a 2 k.val fs) s = .next (s.answered a 10 0 [])) ∧
        ((s.str k).state = .held →
          ∃ code, exec (.write a 2 k.val fs) s = .next ((s.setStr k (w.leaves (s.str k))).answered a code 0 []) ∧ code ≤ 1 ∧
            (code = 1 ↔ w.Adjusted))) ∧
        exec (.clear a 2 k.val) s =
          .next (if (s.str k).state = .held then
              (s.setStr k { s.str k with enabled := true, timeout := 8, pollPeriod := 1000 }).answered a 0 2 []
            else s.answered a 10 2 [])) ∧
    (∀ j : Fin 8, s.WriteAccess a.origin 13 j.val →
      exec (.write a 13 j.val []) s = .next (s.answered a 0 0 []) ∧
        (∀ (w : RegionWrite) (fs : FieldList), fs.Perm w.pairs → fs ≠ [] →
          (w.Refused (s.regions[j]) → exec (.write a 13 j.val fs) s = .next (s.answered a 7 0 [])) ∧
          (¬w.Refused (s.regions[j]) →
            ∃ code, code ≤ 1 ∧ (code = 1 ↔ ∃ v, (w.first = some v ∨ w.last = some v) ∧ 65535 < v) ∧
              exec (.write a 13 j.val fs) s =
                .next (({ s with regions := s.regions.set j (w.leaves (s.regions[j])) } : State).answered a code 0 []))) ∧
        exec (.clear a 13 j.val) s =
          .next (({ s with
            regions := s.regions.set j
              { table := none, first := 0, last := 0, readContent := false, readMaintenance := false, readBridge := false,
                writeContent := false, writeMaintenance := false, writeBridge := false, lock := false } } : State).answered a
            0 2 [])) ∧
    (∀ j : Fin 8, (s.regions[j]).lock = true →
      (∀ (w : RegionWrite) (fs : FieldList), fs.Perm w.pairs → exec (.write a 13 j.val fs) s = .next (s.answered a 5 0 [])) ∧
        exec (.clear a 13 j.val) s = .next (s.answered a 5 2 []) ∧
        exec (.clearTable a 13) s = .next (s.answered a 5 3 []))

/-- R107, R111, R113, R123, R124: WRITE of a text variant, a selection entry and a template, where access and phase let it. A text is
cut at 40 characters and marks every display; a selection entry marks the displays of its class and mode; a template takes the grid and
the slots given, either or both, its sizes and arguments clamped and its boxes clipped to the grid it then has, ADJUSTED where one
was, and marks the displays that use it before or after; no slot or more than 12, a code out of its list or a grid that is none is
refused with BAD_FIELD; the fixed templates are refused to every origin. -/
def Obligations.ComposerStores : Prop :=
  ∀ (a : Arrival) (s : State), s.Asked a →
    (∀ (i : Nat) (cs : List Nat), i < 4096 → s.WriteAccess a.origin 10 i → cs.length ≤ 255 →
      ∃ t : State, exec (.write a 10 i [(1, .string cs)]) s = .next (t.answered a (if 40 < cs.length then 1 else 0) 0 []) ∧
        (∀ j, Tab.fetchD t.texts j [] = if j = i then cs.take 40 else Tab.fetchD s.texts j []) ∧
        (s.Marks t fun _ _ u => u = if a.origin = originBridge then emergencyUrgency s.ship.phase else .routine) ∧
        { t with texts := s.texts, displays := s.displays, strings := s.strings } = s) ∧
    (∀ (i : Nat) (v : Option Nat), s.TablesOk → i < 36 → s.MayChange a 12 i →
      ∃ t : State,
        exec (.write a 12 i [(1, match v with | some n => .number n | none => .absent)]) s =
          .next (t.answered a (if 63 < v.getD 0 then 1 else 0) 0 []) ∧
        (∀ j, Tab.fetch t.selection j = if j = i then v.map (min 63) else Tab.fetch s.selection j) ∧
        (s.Marks t fun _ x u => x.cfg.cls.code * 6 + (s.screenMode x.cfg).code = i ∧ u = emergencyUrgency s.ship.phase) ∧
        { t with selection := s.selection, displays := s.displays, strings := s.strings } = s) ∧
    (∀ (i : Nat) (grid : Option Grid) (xs : Option (List RawSlot)) (g : Grid) (old : List Slot) (fs : FieldList),
      s.TablesOk → i < 64 → s.MayChange a 11 i →
      (Tab.fetch s.templates i = none → grid = some g ∧ xs.isSome = true) →
      (∀ t, Tab.fetch s.templates i = some t → g = grid.getD t.grid ∧ old = t.slots ∧ (grid.isSome = true ∨ xs.isSome = true)) →
      fs.Perm ((grid.map fun c => (1, FieldValue.number c.code)).toList ++ (xs.map fun l => (2, FieldValue.slots l)).toList) →
      (∀ l, xs = some l → l.length ≤ 80) →
      ((∃ l, xs = some l ∧ (l = [] ∨ 12 < l.length ∨ ∃ x ∈ l, SlotRefused x)) →
        exec (.write a 11 i fs) s = .next (s.answered a 7 0 [])) ∧
      ((∀ l, xs = some l → 1 ≤ l.length ∧ l.length ≤ 12 ∧ ∀ x ∈ l, ¬SlotRefused x) →
        ∃ (t : State) (ys : List Slot) (adjusted : Bool),
          exec (.write a 11 i fs) s = .next (t.answered a (if adjusted then 1 else 0) 0 []) ∧
          (∀ l, xs = some l → SlotsTaken g l ys ∧
            (adjusted = true ↔ ∃ (k : Nat) (x : RawSlot) (y : Slot), l[k]? = some x ∧ ys[k]? = some y ∧ SlotAdjusted x y)) ∧
          (xs = none → ys = old.map (fun y => { y with box := y.box.fit g }) ∧
            (adjusted = true ↔ ∃ y ∈ old, y.box.fit g ≠ y.box)) ∧
          (∀ j, Tab.fetch t.templates j =
            if j = i then some { grid := g, slots := ys, timeDependent := ys.any fun y => timeSources.contains y.source }
            else Tab.fetch s.templates j) ∧
          (s.Marks t fun _ y u => (s.templateInUse y.cfg.cls (s.screenMode y.cfg) = i ∨
            t.templateInUse y.cfg.cls (t.screenMode y.cfg) = i) ∧ u = emergencyUrgency s.ship.phase) ∧
          { t with templates := s.templates, displays := s.displays, strings := s.strings } = s)) ∧
    (∀ (i v : Nat) (l : List RawSlot), i < 64 → s.MayChange a 11 i → 1 < v → l.length ≤ 80 →
      exec (.write a 11 i [(1, .number v), (2, .slots l)]) s = .next (s.answered a 7 0 [])) ∧
    (∀ (i : Nat) (g : Grid) (x : RawSlot), i < 16 →
      exec (.write a 11 i [(1, .number g.code), (2, .slots [x])]) s = .next (s.answered a 5 0 []) ∧
        exec (.clear a 11 i) s = .next (s.answered a 5 2 []))

/-- R37 to R39, R52: WRITE and CLEAR of NODES and SEGMENTS where access and phase let it. A WRITE of any fields to a present segment, or that
creates one with its required fields, goes through the checks of R39 in their order; taken, it changes the supplied fields, clamped.
Every destination is invalidated by every taken WRITE, an empty field list to a present entry among them (R165, log entry 13), and by
a CLEAR of a present entry. -/
def Obligations.WalkingGraph : Prop :=
  ∀ (a : Arrival) (i : Nat) (s : State), s.Asked a →
    (i < 256 → s.MayChange a 3 i →
      (∀ v, ∃ t : State, exec (.write a 3 i [(1, .number v)]) s = .next (t.answered a (if v ≤ 15 then 0 else 1) 0 []) ∧
        (∀ j, Tab.fetch t.nodes j = if j = i then some (min 15 v) else Tab.fetch s.nodes j) ∧
        s.InvalidatesAll t ∧ { t with nodes := s.nodes, dests := s.dests } = s) ∧
      (Tab.fetch s.nodes i = none →
        ∃ t : State, exec (.write a 3 i []) s = .next (t.answered a 0 0 []) ∧
          (∀ j, Tab.fetch t.nodes j = if j = i then some 0 else Tab.fetch s.nodes j) ∧
          s.InvalidatesAll t ∧ { t with nodes := s.nodes, dests := s.dests } = s) ∧
      ((Tab.fetch s.nodes i).isSome = true →
        (∃ t : State, exec (.write a 3 i []) s = .next (t.answered a 0 0 []) ∧
          s.InvalidatesAll t ∧ { t with dests := s.dests } = s) ∧
        ∃ t : State, exec (.clear a 3 i) s = .next (t.answered a 0 2 []) ∧
          (∀ j, Tab.fetch t.nodes j = if j = i then none else Tab.fetch s.nodes j) ∧
          s.InvalidatesAll t ∧ { t with nodes := s.nodes, dests := s.dests } = s)) ∧
    (i < 1024 → s.MayChange a 4 i →
      (∀ (w : SegmentWrite) (fs : FieldList) (g : Segment), fs.Perm w.pairs → fs ≠ [] →
        (Tab.fetch s.segments i = some g ∨
          (Tab.fetch s.segments i = none ∧ w.a ≠ none ∧ w.b ≠ none ∧ w.kind ≠ none ∧ w.length ≠ none ∧
            g = { g with heading := 0, oneWay := false, closure := none, musterOnly := false, enabled := true })) →
        (w.ValueRefused → exec (.write a 4 i fs) s = .next (s.answered a 7 0 [])) ∧
        (¬w.ValueRefused → w.EndRefused s → exec (.write a 4 i fs) s = .next (s.answered a 8 0 [])) ∧
        (¬w.ValueRefused → ¬w.EndRefused s → w.ShapeRefused s g → exec (.write a 4 i fs) s = .next (s.answered a 7 0 [])) ∧
        (¬w.ValueRefused → ¬w.EndRefused s → ¬w.ShapeRefused s g →
          ∃ (code : Nat) (t : State), exec (.write a 4 i fs) s = .next (t.answered a code 0 []) ∧ code ≤ 1 ∧
            (code = 1 ↔ w.Adjusted) ∧
            (∀ j, Tab.fetch t.segments j = if j = i then some (w.leaves g) else Tab.fetch s.segments j) ∧
            s.InvalidatesAll t ∧ { t with segments := s.segments, dests := s.dests } = s)) ∧
      ((Tab.fetch s.segments i).isSome = true →
        (∃ t : State, exec (.write a 4 i []) s = .next (t.answered a 0 0 []) ∧
          s.InvalidatesAll t ∧ { t with dests := s.dests } = s) ∧
        ∃ t : State, exec (.clear a 4 i) s = .next (t.answered a 0 2 []) ∧
          (∀ j, Tab.fetch t.segments j = if j = i then none else Tab.fetch s.segments j) ∧
          s.InvalidatesAll t ∧
          { t with segments := s.segments, dests := s.dests } = s))

/-- R28, R40, R41, R52, R54: WRITE of DESTINATIONS and LISTS where access and phase let it. A WRITE of any fields to a present destination,
an empty field list among them (R165, log entry 13), or that creates one with its required fields: its kind is one of the four, its
targets are 1..4 distinct present nodes; taken, it leaves what it supplies, the name clamped, PENDING with sweep count 0, and marks
nothing. A list holds at most eight numbers 0..31; the displays that name it, and no others, lose the held values at positions 0..7 and
are marked. -/
def Obligations.DestinationsAndLists : Prop :=
  ∀ (a : Arrival) (i : Nat) (s : State), s.Asked a →
    (i < 32 → s.MayChange a 5 i →
      ∀ (w : DestWrite) (fs : FieldList) (e : Dest), fs.Perm w.pairs → (∀ ns, w.targets = some ns → ns.length ≤ 255) →
        (Tab.fetch s.dests i = some e ∨
          (Tab.fetch s.dests i = none ∧ w.kind ≠ none ∧ w.targets ≠ none ∧
            e = { e with name := none, status := .pending, cells := [] })) →
        (w.ValueRefused → exec (.write a 5 i fs) s = .next (s.answered a 7 0 [])) ∧
        (¬w.ValueRefused → w.TargetRefused s → exec (.write a 5 i fs) s = .next (s.answered a 8 0 [])) ∧
        (¬w.ValueRefused → ¬w.TargetRefused s →
          ∃ (code : Nat) (t : State) (v : Dest), exec (.write a 5 i fs) s = .next (t.answered a code 0 []) ∧ code ≤ 1 ∧
            (code = 1 ↔ ∃ n, w.name = some (some n) ∧ 1023 < n) ∧
            v = { w.leaves e with cells := v.cells } ∧ (e.status ≠ .suspended → v.cells = e.cells) ∧
            (∀ j, Tab.fetch t.dests j = if j = i then some v else Tab.fetch s.dests j) ∧ { t with dests := s.dests } = s)) ∧
    (i < 64 → s.WriteAccess a.origin 6 i →
      ∀ ns : List Nat, ns.length ≤ 255 →
        (¬(ns.length ≤ 8 ∧ ∀ n ∈ ns, n ≤ 31) →
          exec (.write a 6 i [(1, .list ns)]) s = .next (s.answered a 7 0 [])) ∧
        (ns.length ≤ 8 → (∀ n ∈ ns, n ≤ 31) → s.TablesOk →
          ∃ t m : State, exec (.write a 6 i [(1, .list ns)]) s = .next (t.answered a 0 0 []) ∧
            (∀ j, Tab.fetchD t.lists j [] = if j = i then ns else Tab.fetchD s.lists j []) ∧
            (s.HeldCleared m fun _ x p => x.cfg.list = some i ∧ p < 8) ∧
            (m.Marks t fun _ y u => y.cfg.list = some i ∧ u = emergencyUrgency s.ship.phase) ∧
            { t with lists := s.lists, displays := s.displays, strings := s.strings } = s))

/-- R65 to R69, R77: a WRITE of any fields to a present entry, or that creates one with its required fields, where access lets it.
A status other than SCHEDULED and CANCELLED is BAD_FIELD; a creation at 256 entries is FULL; a status for an ENDED entry, or SCHEDULED
for a CANCELLED one, is CLOSED. Taken, it leaves what it supplies, clamped, with the status set at once against a VALID clock; where
anything changes, the boards in whose window the entry was or is, and no other displays, are marked, at SERVICE for a cancellation
outside ALERT and MUSTER. -/
def Obligations.WriteProgramme : Prop :=
  ∀ (a : Arrival) (id : Nat) (w : ProgrammeWrite) (fs : FieldList) (e : ProgEntry) (s : State), s.Asked a →
    1 ≤ id → id < 65536 → s.WriteAccess a.origin 7 id → fs.Perm w.pairs → fs ≠ [] →
    (findEntry id s.programme = some e ∨
      (findEntry id s.programme = none ∧ w.day ≠ none ∧ w.start ≠ none ∧ w.title ≠ none ∧
        e = { e with id := id, duration := 60, venue := none, category := 0, deck := 0, status := .scheduled })) →
    (w.StatusRefused → exec (.write a 7 id fs) s = .next (s.answered a 7 0 [])) ∧
    (¬w.StatusRefused → findEntry id s.programme = none → 256 ≤ s.programme.length →
      exec (.write a 7 id fs) s = .next (s.answered a 11 0 [])) ∧
    (¬w.StatusRefused → findEntry id s.programme = some e → w.Closed e →
      exec (.write a 7 id fs) s = .next (s.answered a 12 0 [])) ∧
    (¬w.StatusRefused → (findEntry id s.programme = none → s.programme.length < 256) →
      (findEntry id s.programme = some e → ¬w.Closed e) →
      ∃ (code : Nat) (t : State) (f : ProgEntry), exec (.write a 7 id fs) s = .next (t.answered a code 0 []) ∧ code ≤ 1 ∧
        (code = 1 ↔ w.Adjusted) ∧ f = (w.leaves e).clocked s.nowMinute ∧
        (∀ j, findEntry j t.programme = if j = id then some f else findEntry j s.programme) ∧
        (findEntry id s.programme = some f → t.displays = s.displays ∧ t.strings = s.strings) ∧
        (s.TablesOk → s.Marks t fun _ x u => findEntry id s.programme ≠ some f ∧ x.cfg.cls.isBoard = true ∧
          (∃ g, (g = f ∨ findEntry id s.programme = some g) ∧ inWindow x.cfg s.nowMinute g = true) ∧
          u = programmeUrgencyAt s.ship.phase (findEntry id s.programme) f) ∧
        { t with programme := s.programme, displays := s.displays, strings := s.strings } = s)

/-- R96 to R98, R102: a WRITE of any fields to a present notice, or that creates one with its required fields, where access lets it:
CONTENT's priority is held to 11, an end that is not above the start is BAD_FIELD, the current flag is set by the clock, and the
displays are marked, and no others, that are in its scope as it stood where it counted, or in its scope as it stands where it counts,
at the urgency of the higher priority. Where the slot stays as it was, nothing is marked. That a deck mask above 65535 is clamped
is read from the spec (log entry 15). -/
def Obligations.WriteNotice : Prop :=
  ∀ (a : Arrival) (i : Nat) (w : NoticeWrite) (fs : FieldList) (n : Notice) (s : State), s.Asked a →
    i < 64 → s.WriteAccess a.origin 9 i → fs.Perm w.pairs → fs ≠ [] →
    (Tab.fetch s.notices i = some n ∨
      (Tab.fetch s.notices i = none ∧ w.priority ≠ none ∧ w.text ≠ none ∧
        n = { n with classMask := 0x3F#6, deckMask := 0xFFFF#16, start := none, stop := none })) →
    ((w.leaves a.origin n).BoundsRefused → exec (.write a 9 i fs) s = .next (s.answered a 7 0 [])) ∧
    (¬(w.leaves a.origin n).BoundsRefused →
      ∃ (code : Nat) (t : State) (x : Notice), exec (.write a 9 i fs) s = .next (t.answered a code 0 []) ∧ code ≤ 1 ∧
        (code = 1 ↔ w.Adjusted a.origin) ∧ x = { w.leaves a.origin n with current := x.current } ∧
        (x.current = true ↔ s.CurrentNow x) ∧
        (∀ j, Tab.fetch t.notices j = if j = i then some x else Tab.fetch s.notices j) ∧
        (Tab.fetch s.notices i = some x → t.displays = s.displays ∧ t.strings = s.strings) ∧
        (s.TablesOk → s.Marks t fun _ y u => Tab.fetch s.notices i ≠ some x ∧
          (∃ o, (o = x ∨ Tab.fetch s.notices i = some o) ∧ o.CountsFor s.ship.phase y.cfg) ∧
          ∃ q, (q = x ∨ Tab.fetch s.notices i = some q) ∧ q.current = true ∧ q.AboveFloor s.ship.phase ∧
            u = noticeUrgencyAt s.ship.phase q.priority) ∧
        { t with notices := s.notices, displays := s.displays, strings := s.strings } = s)

/-- R22 to R24, R30, R31, R84, R93: a WRITE that creates a display, with its required fields and any others: BAD_FIELD for a class
or a location node outside its values, CONFLICT where another display stands at its place; else its configuration, clamped and with
the defaults of R22, its fresh runtime record, QUEUED at the write urgency under a fresh stamp on its string; the muster station of
the cabin that names it is recounted. No other display and no other string changes. -/
def Obligations.DisplayCreated : Prop :=
  ∀ (a : Arrival) (d : Nat) (w : DisplayWrite) (fs : FieldList) (c : DisplayConfig) (s : State), s.Asked a →
    d < 512 → s.MayChange a 1 d → s.display d = none → fs.Perm w.pairs →
    w.string ≠ none → w.position ≠ none → w.cls ≠ none → w.node ≠ none →
    c = { c with
      deck := 0, facing := 0, language := 0, list := none, categoryMask := 0xFFFF#16, deckMask := 0xFFFF#16, horizon := 180
      dayStep := 12, nightStep := 4 } →
    (w.ValueRefused → exec (.write a 1 d fs) s = .next (s.answered a 7 0 [])) ∧
    (¬w.ValueRefused → s.PlaceTaken d (w.leaves c) → exec (.write a 1 d fs) s = .next (s.answered a 9 0 [])) ∧
    (¬w.ValueRefused → ¬s.PlaceTaken d (w.leaves c) →
      ∃ (code : Nat) (t : State) (k : StringNo), exec (.write a 1 d fs) s = .next (t.answered a code 0 []) ∧ code ≤ 1 ∧
        (code = 1 ↔ w.Adjusted) ∧ k = (w.leaves c).string ∧
        (∀ j, t.display j =
          if j = d then
            some
              { cfg := w.leaves c
                rt :=
                  { state := .queued (emergencyUrgency s.ship.phase), stale := none, digest := none, lastCommit := none
                    busyUntil := 0, failures := 0, fault := none, lastFail := none, lastPoll := none, held := [] } }
          else s.display j) ∧
        ({ display := d, stamp := (s.str k).counter } : QEntry) ∈ (t.str k).queue (emergencyUrgency s.ship.phase) ∧
        (t.str k).counter = (s.str k).counter + 1 ∧ (∀ j, j ≠ k → t.str j = s.str j) ∧ (s.str k).PlacesOf d (t.str k) ∧
        t.RecountsStation s.stamp ((s.cabinNaming d).bind fun e => e.2.station) s.losses t.losses ∧
        { t with displays := s.displays, strings := s.strings, lossReported := s.lossReported, reports := s.reports,
                 reportArrival := s.reportArrival } = s)

/-- R22, R23, R25 to R28, R30, R93: a WRITE of any fields to a present display where access and phase let it. It goes through the checks in
their order: BAD_FIELD for a class or a location node outside its values, CONFLICT where another display stands at the place it would
have, BUSY for a placement change of an OPEN display. Taken, it leaves what it supplies, clamped; a placement change, a change of the
node, the facing or the list, and a class change away from CABIN act on the runtime record; a change marks the display at the write
urgency (of the steps alone, only where the effective brightness changes), and its place in the queues follows; a change of the node
or the class recounts the muster station of the cabin that names it. No other display changes, and no string but the display's own,
before and after. A WRITE that changes no value changes nothing. That a class change keeps the entry stamp in the SAFETY queue is
read from the spec (log entry 18). -/
def Obligations.DisplayChanged : Prop :=
  ∀ (a : Arrival) (d : Nat) (w : DisplayWrite) (fs : FieldList) (x : Display) (b : DisplayConfig) (s : State), s.Asked a →
    d < 512 → s.MayChange a 1 d → s.display d = some x → s.TablesOk → s.StringsOk →
    fs.Perm w.pairs → fs ≠ [] → b = w.leaves x.cfg →
    (w.ValueRefused → exec (.write a 1 d fs) s = .next (s.answered a 7 0 [])) ∧
    (¬w.ValueRefused → s.PlaceTaken d b → exec (.write a 1 d fs) s = .next (s.answered a 9 0 [])) ∧
    (¬w.ValueRefused → ¬s.PlaceTaken d b → x.rt.state = .opened → x.cfg.Moved b →
      exec (.write a 1 d fs) s = .next (s.answered a 10 0 [])) ∧
    (¬w.ValueRefused → ¬s.PlaceTaken d b → (x.rt.state = .opened → ¬x.cfg.Moved b) →
      ∃ (code : Nat) (t : State) (y : Display), exec (.write a 1 d fs) s = .next (t.answered a code 0 []) ∧ code ≤ 1 ∧
        (code = 1 ↔ w.Adjusted) ∧ (b = x.cfg → t = s) ∧ t.display d = some y ∧ y.cfg = b ∧
        { y.rt with state := x.rt.state, stale := x.rt.stale } = x.rt.rewritten x.cfg b ∧
        s.Requeued t d x y (emergencyUrgency s.ship.phase) (s.Remarks x.cfg b) ∧
        (∀ j, j ≠ d → t.display j = s.display j) ∧ (∀ j, j ≠ b.string → j ≠ x.cfg.string → t.str j = s.str j) ∧
        (∀ k, (s.str k).PlacesOf d (t.str k)) ∧
        (b.node ≠ x.cfg.node ∨ b.cls ≠ x.cfg.cls →
          t.RecountsStation s.stamp ((s.cabinNaming d).bind fun e => e.2.station) s.losses t.losses) ∧
        (b.node = x.cfg.node → b.cls = x.cfg.cls → t.losses = s.losses) ∧
        { t with displays := s.displays, strings := s.strings, lossReported := s.lossReported, reports := s.reports,
                 reportArrival := s.reportArrival } = s)

/-- R80 to R82, R92, R93: a WRITE of any fields to a present cabin, or that creates one with its required fields, where access
lets it. Outside NORMAL and STAND_DOWN the display and the muster station are the BRIDGE's alone. It goes through the checks of R81 in
their order; taken, it changes the supplied fields, clamped, and DND and MUR go with the occupancy. Where the muster station or the
display changes, or the cabin is created, held value 8 is cleared at the display, and at the one named before, and the muster station
before the write is recounted and then the one after it, once where they are the same. Where anything changes, the cabin's display,
and the one named before, are marked, and no other display. That a cabin number above 65535 is BAD_FIELD and a display index above 511
is BAD_REF is read from the spec (log entry 31). -/
def Obligations.CabinWritten : Prop :=
  ∀ (a : Arrival) (i : Nat) (w : CabinWrite) (fs : FieldList) (c : Cabin) (s : State), s.Asked a →
    i < 384 → s.WriteAccess a.origin 8 i → fs.Perm w.pairs → fs ≠ [] →
    (Tab.fetch s.cabins i = some c ∨
      (Tab.fetch s.cabins i = none ∧ w.number ≠ none ∧ w.display ≠ none ∧
        c = { c with station := none, group := none, occupied := false, language := none, greeting := none, dnd := false,
                     mur := false, assist := false, swept := false })) →
    ((s.ship.phase = .alert ∨ s.ship.phase = .muster) → a.origin ≠ originBridge → w.display ≠ none ∨ w.station ≠ none →
      exec (.write a 8 i fs) s = .next (s.answered a 6 0 [])) ∧
    ((s.ship.phase = .normal ∨ s.ship.phase = .standDown ∨ a.origin = originBridge ∨ (w.display = none ∧ w.station = none)) →
      (w.ValueRefused → exec (.write a 8 i fs) s = .next (s.answered a 7 0 [])) ∧
      (¬w.ValueRefused → w.DisplayRefused s → exec (.write a 8 i fs) s = .next (s.answered a 8 0 [])) ∧
      ∀ c', w.Leaves c c' → ¬w.ValueRefused → ¬w.DisplayRefused s →
        ((∃ e ∈ s.cabins, e.1 ≠ i ∧ (e.2.number = c'.number ∨ e.2.display = c'.display)) →
          exec (.write a 8 i fs) s = .next (s.answered a 9 0 [])) ∧
        ((∀ e ∈ s.cabins, e.1 ≠ i → e.2.number ≠ c'.number ∧ e.2.display ≠ c'.display) →
          ∃ (code : Nat) (t m : State) (mid : Tab Nat × (List Report × Nat)),
            exec (.write a 8 i fs) s = .next (t.answered a code 0 []) ∧ code ≤ 1 ∧ (code = 1 ↔ w.Adjusted) ∧
            (∀ j, Tab.fetch t.cabins j = if j = i then some c' else Tab.fetch s.cabins j) ∧
            (∀ d,
              (c'.MovesFrom (Tab.fetch s.cabins i) ∧ c'.Names (Tab.fetch s.cabins i) d →
                m.display d = (s.display d).map fun x =>
                  { x with rt := { x.rt with held := x.rt.held.filter fun h => h.1 != 8 } }) ∧
              (¬(c'.MovesFrom (Tab.fetch s.cabins i) ∧ c'.Names (Tab.fetch s.cabins i) d) → m.display d = s.display d)) ∧
            { m with displays := s.displays } = s ∧
            (m.Marks t fun d _ u => Tab.fetch s.cabins i ≠ some c' ∧ c'.Names (Tab.fetch s.cabins i) d ∧
              u = emergencyUrgency s.ship.phase) ∧
            (Tab.fetch s.cabins i = some c' → t.displays = s.displays ∧ t.strings = s.strings) ∧
            (∀ o, Tab.fetch s.cabins i = some o → o.station ≠ c'.station →
              t.RecountsStation s.stamp o.station s.losses mid) ∧
            ((∀ o, Tab.fetch s.cabins i = some o → o.station = c'.station) → mid = s.losses) ∧
            (c'.MovesFrom (Tab.fetch s.cabins i) → t.RecountsStation s.stamp c'.station mid t.losses) ∧
            (¬c'.MovesFrom (Tab.fetch s.cabins i) → t.losses = s.losses) ∧
            { t with cabins := s.cabins, displays := s.displays, strings := s.strings, lossReported := s.lossReported,
                     reports := s.reports, reportArrival := s.reportArrival } = s))

/-- R166, R176 to R178: READ, STATUS, DISPLAY_STATUS and IDENTIFY change nothing but the reply queue, and are answered DONE with
data or refused with the code alone. STATUS has its nineteen parts, DISPLAY_STATUS the thirty-five of a present display or ABSENT,
IDENTIFY its five; an IDENTIFY that is cast, or that reaches an 820 without a node address, is carried out without a reply. Which
parts are FLAG and which NUMBER values is read from the spec (log entry 25); that a set flag is sent as 1 and that the parts stand in
increasing number are the model's choices (log entries 34 and 35). -/
def Obligations.Queries : Prop :=
  ∀ (a : Arrival) (s : State),
    (s.Asked a →
      (∀ t i, ∃ code data, (code = 0 ∨ (3 ≤ code ∧ code ≤ 5 ∧ data = [])) ∧
        exec (.read a t i) s = .next (s.answered a code 1 data)) ∧
      exec (.status a) s =
        .next (s.answered a 0 9 (dataBytes (true,
          [(1, .number s.ship.phase.code), (2, .flag s.ship.drill), (3, .number (if s.ship.line then 1 else 0)),
           (4, .flag s.ship.linkLost), (5, .flag s.ship.quiet),
           (6, .number (if s.ship.valid then s.ship.day else 0)), (7, .number (if s.ship.valid then s.ship.minute else 0)),
           (8, .number (if s.ship.valid then s.ship.second else 0)), (9, .number (if s.ship.valid then 0 else 1)),
           (10, .number (if s.fore.up then 1 else 0)), (11, .number (if s.aft.up then 1 else 0)),
           (12, .list ((List.range 32).map fun d =>
             match Tab.fetch s.dests d with
             | some t => t.status.code
             | none => 4)),
           (13, .list (s.strings.toList.map fun c => if c.enabled then 1 else 0)),
           (14, .list (s.strings.toList.map fun c => c.state.code)),
           (15, .list (s.strings.toList.map fun c => c.safety.length)),
           (16, .list (s.strings.toList.map fun c => c.service.length)),
           (17, .list (s.strings.toList.map fun c => c.routine.length)), (18, .number s.reports.length),
           (19, .number s.replies.length)]))) ∧
      (∀ d, ∃ code data, (code = 0 ∨ (4 ≤ code ∧ code ≤ 5 ∧ data = [])) ∧
        exec (.displayStatus a d) s = .next (s.answered a code 10 data)) ∧
      (∀ d < 512, s.ReadAccess a.origin 1 d →
        (s.display d = none → exec (.displayStatus a d) s = .next (s.answered a 0 10 [1, 0])) ∧
        (∀ x, s.display d = some x →
          exec (.displayStatus a d) s =
            .next (s.answered a 0 10 (dataBytes (true,
              [(1, .number x.cfg.string.val), (2, .number x.cfg.position), (3, .number x.cfg.cls.code),
                (4, .number x.cfg.deck), (5, .number x.cfg.node), (6, .number x.cfg.facing), (7, .number x.cfg.language),
                (8, optValue x.cfg.list), (9, .number x.cfg.categoryMask.toNat), (10, .number x.cfg.deckMask.toNat),
                (11, .number x.cfg.horizon), (12, .number x.cfg.dayStep), (13, .number x.cfg.nightStep)] ++
                [(14, .number x.rt.state.code),
                 (15, match x.rt.state with
                   | .queued u => .number u.code
                   | _ => .absent),
                 (16, match x.rt.state with
                   | .queued u =>
                     optValue ((((s.str x.cfg.string).queue u).findIdx? fun e => e.display == d).map fun n => n + 1)
                   | _ => .absent),
                 (17, .flag x.rt.stale.isSome), (18, optValue (x.rt.stale.map (·.code))),
                 (19, optValue (x.rt.digest.map (·.toNat))), (20, .number x.rt.failures),
                 (21, optValue (x.rt.fault.map (·.code))),
                 (22, .flag (x.cfg.cls == .cabin && x.rt.state != .faulted && x.rt.fault.isNone))] ++
                ((List.range 9).map fun p =>
                  (23 + p, match Tab.fetch x.rt.held p with
                    | some v =>
                      match v.minutes with
                      | some m => .list [v.glyph.code, v.distance.getD 65535, m.1, if m.2 then 1 else 0]
                      | none => .list [v.glyph.code, v.distance.getD 65535, 65535, 0]
                    | none => .absent)) ++
                [(32, optValue (x.rt.lastCommit.map fun c => min 4294967295 (s.now - c))),
                 (33, optValue (x.rt.lastFail.map fun c => min 4294967295 (s.now - c))),
                 (34, optValue (x.rt.lastPoll.map fun c => min 4294967295 (s.now - c))),
                 (35, .number (x.rt.busyUntil - s.now))]))))) ∧
      exec (.identify a) s =
        .next (s.answered a 0 11
          ([0, 5] ++ ([1, 0] ++ be32 5601) ++ ([2, 0] ++ be32 820) ++ ([3, 0] ++ be32 1) ++
            (match s.address with
              | some n => [4, 0] ++ be32 n
              | none => [4, 2]) ++
            (match s.node.zoneGroup with
              | some g => [5, 0] ++ be32 g
              | none => [5, 2])))) ∧
    (s.address = none → ∃ t, exec (.identify a) s = .next t ∧ t.replies = s.replies) ∧
    (s.address ≠ some a.dest → s.Receives a → s.ConcernedBy a.dest → a.hop = 0 → exec (.identify a) s = .next s)

/-- R38, R40, R41, R43, R65, R71, R80, R83, R96, R108, R110, R111, R113, R127, R166, R167, R171, R17: what a READ of each table answers
where access lets it: the fields and the runtime parts of a present entry, ABSENT and no pair for an absent one; and the fixed
templates, slot by slot, grid and time-dependent flag, by the table of R110 (`fixedTable`; an argument or a size that R110 does not
give is free: log entry 27). Which parts are FLAG and which NUMBER values is read from the spec (log entry 25); that a set flag is sent
as 1 and that the configuration fields, and the runtime parts after them, stand in increasing number are the model's choices (log
entries 34 and 35). -/
def Obligations.ReadAnswers : Prop :=
  (∀ (s : State) (n : Nat),
    (∀ f, (n, f) ∈ fixedTable → ∃ t, s.template n = some t ∧ t.IsFixed f) ∧
      (n = 8 ∨ n = 9 → s.template n = s.template 6) ∧ (n = 11 → s.template n = s.template 7) ∧
      (16 ≤ n → s.template n = Tab.fetch s.templates n)) ∧
  ∀ (a : Arrival) (i : Nat) (s : State), s.Asked a →
    (s.ReadAccess a.origin 0 0 →
      exec (.read a 0 0) s =
        .next (s.answered a 0 1 (dataBytes (true,
          ([(1, .number s.node.holdTime), (2, .number s.node.silenceTime), (3, .number s.node.quietStart),
            (4, .number s.node.quietEnd), (5, .number s.node.walkRate), (6, .number s.node.wCorridor),
            (7, .number s.node.wStairUp), (8, .number s.node.wStairDown), (9, .number s.node.wLift),
            (10, .number s.node.wOpenDeck), (11, .number s.node.retention)] : FieldList) ++
            ((List.range 6).map fun c => (12 + c, FieldValue.number (s.node.minRefresh.toList.getD c 0))) ++
            ([(18, .number s.node.quietMask.toNat), (19, optValue s.node.zoneGroup), (20, .number s.node.reportDest),
              (21, .number (if s.node.reportPort = .fore then 0 else 1)), (22, .number s.node.txHop)] : FieldList))))) ∧
    (i < 512 → s.ReadAccess a.origin 1 i →
      (s.display i = none → exec (.read a 1 i) s = .next (s.answered a 0 1 [1, 0])) ∧
      ∀ x, s.display i = some x →
        exec (.read a 1 i) s =
          .next (s.answered a 0 1 (dataBytes (true,
            [(1, .number x.cfg.string.val), (2, .number x.cfg.position), (3, .number x.cfg.cls.code),
             (4, .number x.cfg.deck), (5, .number x.cfg.node), (6, .number x.cfg.facing), (7, .number x.cfg.language),
             (8, optValue x.cfg.list), (9, .number x.cfg.categoryMask.toNat), (10, .number x.cfg.deckMask.toNat),
             (11, .number x.cfg.horizon), (12, .number x.cfg.dayStep), (13, .number x.cfg.nightStep)])))) ∧
    (∀ k : StringNo, s.ReadAccess a.origin 2 k.val →
      exec (.read a 2 k.val) s =
        .next (s.answered a 0 1 (dataBytes (true,
          [(1, .flag (s.str k).enabled), (2, .number (s.str k).timeout), (3, .number (s.str k).pollPeriod),
           (32, .number (s.str k).state.code), (33, .number (s.str k).safety.length),
           (34, .number (s.str k).service.length), (35, .number (s.str k).routine.length)])))) ∧
    (i < 256 → s.ReadAccess a.origin 3 i →
      exec (.read a 3 i) s =
        .next (s.answered a 0 1 (match Tab.fetch s.nodes i with
          | some deck => [0, 1, 1, 0] ++ be32 deck
          | none => [1, 0]))) ∧
    (i < 1024 → s.ReadAccess a.origin 4 i →
      (Tab.fetch s.segments i = none → exec (.read a 4 i) s = .next (s.answered a 0 1 [1, 0])) ∧
      ∀ g, Tab.fetch s.segments i = some g →
        exec (.read a 4 i) s =
          .next (s.answered a 0 1 (dataBytes (true,
            [(1, .number g.a), (2, .number g.b), (3, .number g.kind.code), (4, .number g.length), (5, .number g.heading),
             (6, .number (if g.oneWay then 1 else 0)), (7, optValue g.closure), (8, .flag g.musterOnly),
             (9, .flag g.enabled)])))) ∧
    (i < 32 → s.ReadAccess a.origin 5 i →
      (Tab.fetch s.dests i = none → exec (.read a 5 i) s = .next (s.answered a 0 1 [1, 0])) ∧
      ∀ e, Tab.fetch s.dests i = some e →
        exec (.read a 5 i) s =
          .next (s.answered a 0 1 (dataBytes (true,
            [(1, optValue e.name), (2, .number e.kind.code), (3, .list e.targets), (32, .number e.status.code),
             (33, .number e.sweeps)])))) ∧
    (i < 64 → s.ReadAccess a.origin 6 i →
      exec (.read a 6 i) s = .next (s.answered a 0 1 (dataBytes (true, [(1, .list (Tab.fetchD s.lists i []))])))) ∧
    (i < 65536 → s.ReadAccess a.origin 7 i →
      (findEntry i s.programme = none →
        exec (.read a 7 i) s =
          .next (s.answered a 0 1 (dataBytes (false,
            [(34, if i = 0 then optValue (s.programme.head?.map (·.id)) else .absent)])))) ∧
      ∀ pre e post, s.programme = pre ++ e :: post → e.id = i → (∀ f ∈ pre, f.id ≠ i) →
        exec (.read a 7 i) s =
          .next (s.answered a 0 1 (dataBytes (true,
            [(1, .number e.day), (2, .number e.start), (3, .number e.duration), (4, optValue e.venue),
             (5, .number e.category), (6, .number e.deck), (7, .number e.title), (8, .number e.status.code),
             (32, .number (e.day * 1440 + e.start)), (33, .number (e.day * 1440 + e.start + e.duration)),
             (34, optValue (post.head?.map (·.id)))])))) ∧
    (i < 384 → s.ReadAccess a.origin 8 i →
      (Tab.fetch s.cabins i = none → exec (.read a 8 i) s = .next (s.answered a 0 1 [1, 0])) ∧
      ∀ c, Tab.fetch s.cabins i = some c →
        exec (.read a 8 i) s =
          .next (s.answered a 0 1 (dataBytes (true,
            [(1, .number c.number), (2, .number c.display), (3, optValue c.station), (4, optValue c.group),
             (5, .number (if c.occupied then 1 else 0)), (6, optValue c.language), (7, optValue c.greeting),
             (32, .flag c.dnd), (33, .flag c.mur), (34, .flag c.assist), (35, .flag c.swept),
             (36, .flag (match s.display c.display with
               | some x => decide (x.cfg.cls = .cabin)
               | none => false))])))) ∧
    (i < 64 → s.ReadAccess a.origin 9 i →
      (Tab.fetch s.notices i = none → exec (.read a 9 i) s = .next (s.answered a 0 1 [1, 0])) ∧
      ∀ n, Tab.fetch s.notices i = some n →
        exec (.read a 9 i) s =
          .next (s.answered a 0 1 (dataBytes (true,
            [(1, .number n.priority), (2, .number n.classMask.toNat), (3, .number n.deckMask.toNat), (4, .number n.text),
             (5, optValue n.start), (6, optValue n.stop), (32, .flag n.current)])))) ∧
    (i < 4096 → s.ReadAccess a.origin 10 i →
      exec (.read a 10 i) s = .next (s.answered a 0 1 (dataBytes (true, [(1, .string (Tab.fetchD s.texts i []))])))) ∧
    (i < 64 → s.ReadAccess a.origin 11 i →
      (s.template i = none → exec (.read a 11 i) s = .next (s.answered a 0 1 [1, 0])) ∧
      ∀ m, s.template i = some m →
        exec (.read a 11 i) s =
          .next (s.answered a 0 1 (dataBytes (true,
            [(1, .number m.grid.code), (2, .slots (m.slots.map fun y =>
               { column := y.box.column, row := y.box.row, width := y.box.width, height := y.box.height, size := y.size,
                 emphasis := y.emphasis, source := y.source.code, argument := y.argument, language := y.language.getD 4,
                 condition := y.condition.code, polarity := if y.showWhenTrue then 0 else 1 })),
             (32, .flag (decide (i < 16))), (33, .flag m.timeDependent)])))) ∧
    (∀ (c : DisplayClass) (m : ScreenMode), i = c.code * 6 + m.code → s.ReadAccess a.origin 12 i →
      exec (.read a 12 i) s =
        .next (s.answered a 0 1 (dataBytes (true,
          [(1, optValue (Tab.fetch s.selection i)), (32, .number (s.templateInUse c m))])))) ∧
    (∀ j : Fin 8, s.ReadAccess a.origin 13 j.val →
      exec (.read a 13 j.val) s =
        .next (s.answered a 0 1 (dataBytes (true,
          [(1, optValue (s.regions[j]).table), (2, .number (s.regions[j]).first), (3, .number (s.regions[j]).last),
           (4, .flag (s.regions[j]).readContent), (5, .flag (s.regions[j]).readMaintenance),
           (6, .flag (s.regions[j]).readBridge), (7, .flag (s.regions[j]).writeContent),
           (8, .flag (s.regions[j]).writeMaintenance), (9, .flag (s.regions[j]).writeBridge),
           (10, .flag (s.regions[j]).lock)])))) ∧
    (i < 128 → s.ReadAccess a.origin 14 i →
      exec (.read a 14 i) s = .next (s.answered a 0 1 (dataBytes (true, [(32, .number (s.closure i).code)])))) ∧
    (∀ d n, d < 32 → n < 256 → s.ReadAccess a.origin 15 (d * 256 + n) →
      exec (.read a 15 (d * 256 + n)) s =
        .next (s.answered a 0 1 (dataBytes (true, match Tab.fetch s.dests d with
          | none => [(32, .number 4)]
          | some e =>
            if e.status = .settled then
              [(32, .number 3), (33, optValue (cellAt e.cells n).effort),
               (34, match (cellAt e.cells n).effort with
                 | some _ => .number (cellAt e.cells n).length
                 | none => .absent),
               (35, optValue ((cellAt e.cells n).hop.map fun h => h.segment * 2 + if h.back then 1 else 0))]
            else [(32, .number e.status.code)]))))

/-- R29, R37, R54, R57, R70, R83, R93, R94, R102, R108, R111, R113, R164, R166, R167: CLEAR where access and phase let it, table
by table: of an absent entry DONE and nothing changed; of a present one, its removal and what its block does with it, the held values
that DESTINATIONS, LISTS and CABINS clear and no others, the displays it marks and no others (a marked display keeps all else, and so
does its string), and the recount or the MUSTER_ROUTE report that follows; refused with BUSY for an OPEN display. NODES and
SEGMENTS are in `WalkingGraph`, STRINGS and REGIONS in `ConfigurationWrites`, the fixed templates in `ComposerStores`. That
a CLEAR of NODE acts as a WRITE of the defaults is read from the spec (log entry 32). -/
def Obligations.ClearEntry : Prop :=
  ∀ (a : Arrival) (t i : Nat) (s : State), s.Asked a → s.MayClear a t i → s.TablesOk →
    (i < tableRanges.getD t 0 → (t = 7 → 1 ≤ i) → s.AbsentAt t i → exec (.clear a t i) s = .next (s.answered a 0 2 [])) ∧
    (t = 0 → i = 0 → ∃ u : State, exec (.clear a t i) s = .next (u.answered a 0 2 []) ∧ u.node = State.reset.node ∧
      s.NodeTaken u) ∧
    (t = 1 → i < 512 → ∀ x, s.display i = some x →
      (x.rt.state = .opened → exec (.clear a t i) s = .next (s.answered a 10 2 [])) ∧
      (x.rt.state ≠ .opened → ∃ u : State, exec (.clear a t i) s = .next (u.answered a 0 2 []) ∧
        (∀ j, u.display j = if j = i then none else s.display j) ∧
        (∀ v, x.rt.state = .queued v → ∀ e ∈ (u.str x.cfg.string).queue v, e.display ≠ i) ∧
        ((∀ v, x.rt.state ≠ .queued v) → u.strings = s.strings) ∧
        (∀ j, j ≠ x.cfg.string → u.str j = s.str j) ∧ (s.str x.cfg.string).PlacesOf i (u.str x.cfg.string) ∧
        u.RecountsStation s.stamp ((s.cabinNaming i).bind fun e => e.2.station) s.losses u.losses ∧
        { u with displays := s.displays, strings := s.strings, lossReported := s.lossReported, reports := s.reports,
                 reportArrival := s.reportArrival } = s)) ∧
    (t = 5 → i < 32 → ∀ e, Tab.fetch s.dests i = some e →
      ∃ u m : State, exec (.clear a t i) s = .next (u.answered a 0 2 []) ∧
        (∀ j, Tab.fetch u.dests j = if j = i then none else Tab.fetch s.dests j) ∧
        (s.HeldCleared m fun d x p => s.RoutePosition d x p i) ∧
        (m.Marks u fun d y v => ((∃ p, s.RoutePosition d y p i) ∨ ∃ f ∈ s.itemList y.cfg, f.venue = some i) ∧
          v = emergencyUrgency s.ship.phase) ∧
        (e.kind = .musterStation →
          (∀ j, Tab.fetchD u.lossReported j 0 = if j = i then 0 else Tab.fetchD s.lossReported j 0) ∧
            (Tab.fetchD s.lossReported i 0 ≠ 0 → Reported s.stamp .musterRoute i 0 s.reporting u.reporting) ∧
            (Tab.fetchD s.lossReported i 0 = 0 → u.losses = s.losses)) ∧
        (e.kind ≠ .musterStation → u.losses = s.losses) ∧
        { u with dests := s.dests, displays := s.displays, strings := s.strings, lossReported := s.lossReported,
                 reports := s.reports, reportArrival := s.reportArrival } = s) ∧
    (t = 6 → i < 64 → ∃ u m : State, exec (.clear a t i) s = .next (u.answered a 0 2 []) ∧
      (∀ j, Tab.fetchD u.lists j [] = if j = i then [] else Tab.fetchD s.lists j []) ∧
      (s.HeldCleared m fun _ x p => x.cfg.list = some i ∧ p < 8) ∧
      (m.Marks u fun _ y v => y.cfg.list = some i ∧ v = emergencyUrgency s.ship.phase) ∧
      { u with lists := s.lists, displays := s.displays, strings := s.strings } = s) ∧
    (t = 7 → 1 ≤ i → i < 65536 → ∀ e, findEntry i s.programme = some e →
      ∃ u : State, exec (.clear a t i) s = .next (u.answered a 0 2 []) ∧
        u.programme = s.programme.filter (fun f => f.id != i) ∧
        (s.Marks u fun _ x v => x.cfg.cls.isBoard = true ∧ inWindow x.cfg s.nowMinute e = true ∧
          v = emergencyUrgency s.ship.phase) ∧
        { u with programme := s.programme, displays := s.displays, strings := s.strings } = s) ∧
    (t = 8 → i < 384 → ∀ c, Tab.fetch s.cabins i = some c →
      ∃ u m : State, exec (.clear a t i) s = .next (u.answered a 0 2 []) ∧
        (∀ j, Tab.fetch u.cabins j = if j = i then none else Tab.fetch s.cabins j) ∧
        (s.HeldCleared m fun d _ p => d = c.display ∧ p = 8) ∧
        (m.Marks u fun d _ v => d = c.display ∧ v = emergencyUrgency s.ship.phase) ∧
        u.RecountsStation s.stamp c.station s.losses u.losses ∧
        { u with cabins := s.cabins, displays := s.displays, strings := s.strings, lossReported := s.lossReported,
                 reports := s.reports, reportArrival := s.reportArrival } = s) ∧
    (t = 9 → i < 64 → ∀ n, Tab.fetch s.notices i = some n →
      ∃ u : State, exec (.clear a t i) s = .next (u.answered a 0 2 []) ∧
        (∀ j, Tab.fetch u.notices j = if j = i then none else Tab.fetch s.notices j) ∧
        (s.Marks u fun _ x v => n.CountsFor s.ship.phase x.cfg ∧ v = noticeUrgencyAt s.ship.phase n.priority) ∧
        { u with notices := s.notices, displays := s.displays, strings := s.strings } = s) ∧
    (t = 10 → i < 4096 → ∃ u : State, exec (.clear a t i) s = .next (u.answered a 0 2 []) ∧
      (∀ j, Tab.fetchD u.texts j [] = if j = i then [] else Tab.fetchD s.texts j []) ∧
      (s.Marks u fun _ _ v => v = if a.origin = originBridge then emergencyUrgency s.ship.phase else .routine) ∧
      { u with texts := s.texts, displays := s.displays, strings := s.strings } = s) ∧
    (t = 11 → 16 ≤ i → i < 64 → (Tab.fetch s.templates i).isSome = true →
      ∃ u : State, exec (.clear a t i) s = .next (u.answered a 0 2 []) ∧
        (∀ j, Tab.fetch u.templates j = if j = i then none else Tab.fetch s.templates j) ∧
        (s.Marks u fun _ x v => s.templateInUse x.cfg.cls (s.screenMode x.cfg) = i ∧ v = emergencyUrgency s.ship.phase) ∧
        { u with templates := s.templates, displays := s.displays, strings := s.strings } = s) ∧
    (t = 12 → i < 36 → ∃ u : State, exec (.clear a t i) s = .next (u.answered a 0 2 []) ∧
      (∀ j, Tab.fetch u.selection j = if j = i then none else Tab.fetch s.selection j) ∧
      (s.Marks u fun _ x v => x.cfg.cls.code * 6 + (s.screenMode x.cfg).code = i ∧ v = emergencyUrgency s.ship.phase) ∧
      { u with selection := s.selection, displays := s.displays, strings := s.strings } = s)

/-- R29, R41, R57, R70, R83, R94, R102, R108, R111, R113, R123, R124, R127, R166, R172: CLEAR_TABLE where access and phase let
it at every index it reaches: the table is empty, and what its blocks do with that: the held values that DESTINATIONS, LISTS and CABINS clear, the displays
that a clear marks with the urgency, and the reports of DESTINATIONS and CABINS; every other display, string and place stays. DISPLAYS
is refused whole while a display is OPEN, STRINGS unless every string is HELD, REGIONS while one is locked. SELECTION
marks every display, at the entry of its class and screen mode. That NODE acts as a WRITE of the defaults is read from the spec (log
entry 32); that CABINS recounts each muster station once, in increasing order, is the model's order (log entry 26). -/
def Obligations.ClearTable : Prop :=
  ∀ (a : Arrival) (t : Nat) (s : State), s.Asked a →
    (t = 13 → (∃ j : Fin 8, (s.regions[j]).lock = true) → exec (.clearTable a t) s = .next (s.answered a 5 3 [])) ∧
    (t ≤ 13 → a.origin ≠ originController → (∀ i, s.ClearReaches t i → s.MayClear a t i) →
      (t = 1 → (∃ e ∈ s.displays, e.2.rt.state = .opened) → exec (.clearTable a t) s = .next (s.answered a 10 3 [])) ∧
      (t = 2 → (∃ k, (s.str k).state ≠ .held) → exec (.clearTable a t) s = .next (s.answered a 10 3 [])) ∧
      ((t = 1 → ∀ e ∈ s.displays, e.2.rt.state ≠ .opened) → (t = 2 → ∀ k, (s.str k).state = .held) →
      ∃ u : State, exec (.clearTable a t) s = .next (u.answered a 0 3 []) ∧
        (t = 0 → u.node = State.reset.node ∧ s.NodeTaken u) ∧
        (t = 1 → u.displays = [] ∧
          (s.TablesOk → s.StringsOk → ∀ k, u.str k = { s.str k with safety := [], service := [], routine := [] }) ∧
          (s.TablesOk → s.RecountsRemoved s.stamp s.displays s.losses u.losses) ∧
          { u with displays := s.displays, strings := s.strings, lossReported := s.lossReported, reports := s.reports,
                   reportArrival := s.reportArrival } = s) ∧
        (t = 2 → (∀ k, u.str k = { s.str k with enabled := true, timeout := 8, pollPeriod := 1000 }) ∧
          { u with strings := s.strings } = s) ∧
        (t = 3 → u.nodes = [] ∧ { u with nodes := s.nodes, dests := s.dests } = s ∧
          (s.nodes ≠ [] → s.InvalidatesAll u)) ∧
        (t = 4 → u.segments = [] ∧ { u with segments := s.segments, dests := s.dests } = s ∧
          (s.segments ≠ [] → s.InvalidatesAll u)) ∧
        (t = 5 → u.dests = [] ∧
          (s.TablesOk → ∃ m : State,
            (s.HeldCleared m fun d x p => ∃ n, s.RoutePosition d x p n ∧ (Tab.fetch s.dests n).isSome = true) ∧
            (m.MarksEach u (s.dests.map fun e d y v =>
              ((∃ p, s.RoutePosition d y p e.1) ∨ ∃ f ∈ s.itemList y.cfg, f.venue = some e.1) ∧
                v = emergencyUrgency s.ship.phase)) ∧
            (∀ i, Tab.fetchD u.lossReported i 0 =
              if (Tab.fetch s.dests i).any fun e => e.kind == .musterStation then 0 else Tab.fetchD s.lossReported i 0) ∧
            ReportedEach s.stamp .musterRoute 0
              ((s.dests.filter fun e => e.2.kind = .musterStation ∧ Tab.fetchD s.lossReported e.1 0 ≠ 0).map (·.1))
              s.reporting u.reporting) ∧
          { u with dests := s.dests, displays := s.displays, strings := s.strings, lossReported := s.lossReported,
                   reports := s.reports, reportArrival := s.reportArrival } = s) ∧
        (t = 6 → (∀ j < 64, Tab.fetch u.lists j = none) ∧
          (s.TablesOk → ∃ m : State, (s.HeldCleared m fun _ x p => (∃ l < 64, x.cfg.list = some l) ∧ p < 8) ∧
            m.MarksEach u ((List.range 64).map fun l _ y v => y.cfg.list = some l ∧ v = emergencyUrgency s.ship.phase)) ∧
          { u with lists := s.lists, displays := s.displays, strings := s.strings } = s) ∧
        (t = 7 → u.programme = [] ∧
          (s.TablesOk → s.ProgrammeOk → ∀ es : List ProgEntry, es.Perm s.programme → es.Pairwise (fun e f => e.id < f.id) →
            s.MarksEach u (es.map fun e _ x v => x.cfg.cls.isBoard = true ∧ inWindow x.cfg s.nowMinute e = true ∧
              v = emergencyUrgency s.ship.phase)) ∧
          { u with programme := s.programme, displays := s.displays, strings := s.strings } = s) ∧
        (t = 8 → u.cabins = [] ∧
          (s.TablesOk → ∃ m : State, (s.HeldCleared m fun d _ p => (∃ e ∈ s.cabins, e.2.display = d) ∧ p = 8) ∧
            (m.MarksEach u (s.cabins.map fun e d _ v => d = e.2.display ∧ v = emergencyUrgency s.ship.phase)) ∧
            ∀ stations : List Nat,
              stations = (List.range 32).filter (fun n =>
                (s.cabins.any fun e => e.2.station == some n) &&
                  (Tab.fetch s.dests n).any fun e => e.kind == .musterStation && e.status == .settled) →
              (∀ i, Tab.fetchD u.lossReported i 0 = if i ∈ stations then 0 else Tab.fetchD s.lossReported i 0) ∧
                ReportedEach s.stamp .musterRoute 0 (stations.filter fun n => Tab.fetchD s.lossReported n 0 ≠ 0)
                  s.reporting u.reporting) ∧
          { u with cabins := s.cabins, displays := s.displays, strings := s.strings, lossReported := s.lossReported,
                   reports := s.reports, reportArrival := s.reportArrival } = s) ∧
        (t = 9 → u.notices = [] ∧
          (s.TablesOk → s.MarksEach u (s.notices.map fun e _ x v => e.2.CountsFor s.ship.phase x.cfg ∧
            v = noticeUrgencyAt s.ship.phase e.2.priority)) ∧
          { u with notices := s.notices, displays := s.displays, strings := s.strings } = s) ∧
        (t = 10 → u.texts = [] ∧ (s.Marks u fun _ _ v => v = if a.origin = originBridge then emergencyUrgency s.ship.phase else .routine) ∧
          { u with texts := s.texts, displays := s.displays, strings := s.strings } = s) ∧
        (t = 11 → u.templates = [] ∧
          (s.TablesOk → s.MarksEach u (s.templates.map fun e _ x v =>
            s.templateInUse x.cfg.cls (s.screenMode x.cfg) = e.1 ∧ v = emergencyUrgency s.ship.phase)) ∧
          { u with templates := s.templates, displays := s.displays, strings := s.strings } = s) ∧
        (t = 12 → (∀ j < 36, Tab.fetch u.selection j = none) ∧
          (s.TablesOk → s.MarksEach u ((List.range 36).map fun i _ x v =>
            x.cfg.cls.code * 6 + (s.screenMode x.cfg).code = i ∧ v = emergencyUrgency s.ship.phase)) ∧
          { u with selection := s.selection, displays := s.displays, strings := s.strings } = s) ∧
        (t = 13 → (∀ j : Fin 8, u.regions[j] =
            { table := none, first := 0, last := 0, readContent := false, readMaintenance := false, readBridge := false,
              writeContent := false, writeMaintenance := false, writeBridge := false, lock := false }) ∧
          { u with regions := s.regions } = s)))

/-- R36, R137, R169, R173: ADJUST_STEPS and RETRY_DISPLAY: where access and phase let it, the code on the day and night step of every display
its target reaches, and a ROUTINE mark where the effective brightness changes; BAD_FIELD for a target kind, a class or a code that is
none, BAD_REF for a DISPLAY target that is absent; a probe made due at once for a FAULTED display, and nothing for another. That
CONTROLLER is refused at the access check even with a target that cannot be read is in `ControllerChangesNothing` (log entry
28). -/
def Obligations.StepsAndRetry : Prop :=
  (∀ (a : Arrival) (kind value code : Nat) (s : State), s.Asked a → a.origin ≠ originController →
    (s.ship.phase = .alert ∨ s.ship.phase = .muster → a.origin = originBridge) →
    (∀ d x, s.display d = some x → (kind = 0 ∧ d = value ∨ kind = 1 ∧ x.cfg.cls.code = value ∨ kind = 2) →
      s.WriteAccess a.origin 1 d) →
    code ≤ 7 → (kind = 0 ∧ value < 512 ∧ (s.display value).isSome = true ∨ kind = 1 ∧ value ≤ 5 ∨ kind = 2) →
    ∃ t m : State, exec (.adjustSteps a kind value code) s = .next (t.answered a 0 4 []) ∧
      (∀ d, m.display d = (s.display d).map fun x =>
        if kind = 0 ∧ d = value ∨ kind = 1 ∧ x.cfg.cls.code = value ∨ kind = 2 then
          { x with
            cfg := { x.cfg with
              dayStep :=
                if code ∈ [0, 4, 6] then (if x.cfg.dayStep < 15 then x.cfg.dayStep + 1 else x.cfg.dayStep)
                else if code ∈ [1, 5, 7] then x.cfg.dayStep - 1 else x.cfg.dayStep
              nightStep :=
                if code ∈ [2, 4, 7] then (if x.cfg.nightStep < 15 then x.cfg.nightStep + 1 else x.cfg.nightStep)
                else if code ∈ [3, 5, 6] then x.cfg.nightStep - 1 else x.cfg.nightStep } }
        else x) ∧
      { m with displays := s.displays } = s ∧
      (s.TablesOk → m.Marks t fun d y u =>
        (∃ x, s.display d = some x ∧ s.brightness y.cfg ≠ s.brightness x.cfg) ∧ u = .routine) ∧
      (∀ d y, m.display d = some y → ∃ z, t.display d = some z ∧ z.cfg = y.cfg) ∧
      { t with displays := s.displays, strings := s.strings } = s) ∧
  (∀ (a : Arrival) (kind value code : Nat) (s : State), s.Asked a → a.origin ≠ originController →
    (3 ≤ kind ∨ (kind = 1 ∧ 5 < value) → exec (.adjustSteps a kind value code) s = .next (s.answered a 7 4 [])) ∧
    (((kind = 0 ∧ value < 512) ∨ (kind = 1 ∧ value ≤ 5) ∨ kind = 2) →
      (s.ship.phase = .alert ∨ s.ship.phase = .muster → a.origin = originBridge) →
      (∀ d x, s.display d = some x → (kind = 0 ∧ d = value ∨ kind = 1 ∧ x.cfg.cls.code = value ∨ kind = 2) →
        s.WriteAccess a.origin 1 d) →
      (7 < code → exec (.adjustSteps a kind value code) s = .next (s.answered a 7 4 [])) ∧
        (code ≤ 7 → kind = 0 → s.display value = none →
          exec (.adjustSteps a kind value code) s = .next (s.answered a 8 4 [])))) ∧
  (∀ (a : Arrival) (d : Nat) (s : State), s.Asked a → d < 512 → s.WriteAccess a.origin 1 d →
    (s.display d = none → exec (.retryDisplay a d) s = .next (s.answered a 8 7 [])) ∧
    (∀ x, s.display d = some x →
      ∃ t : State, exec (.retryDisplay a d) s = .next (t.answered a 0 7 []) ∧
        (∀ j, t.display j =
          if j = d ∧ x.rt.state = .faulted then some { x with rt := { x.rt with lastFail := none } } else s.display j) ∧
        { t with displays := s.displays } = s))

/-- R129, R130: HOLD_STRING and FREE_STRING where access lets them; every change of phase, by whatever command but a power-on
reset: an entry to ALERT or MUSTER frees every string and cuts no transaction short, and any other change leaves the strings'
states as they are. -/
def Obligations.HoldAndFree : Prop :=
  (∀ (a : Arrival) (k : StringNo) (s : State), s.Asked a → s.WriteAccess a.origin 2 k.val →
    exec (.holdString a k.val) s =
        .next (if s.ship.phase = .alert ∨ s.ship.phase = .muster then s.answered a 6 5 []
          else (s.setStr k { s.str k with
              state := match (s.str k).state with
                | .idle => .held
                | .opened => .holding
                | x => x }).answered a 0 5 []) ∧
      exec (.freeString a k.val) s =
        .next ((s.setStr k { s.str k with
            state := match (s.str k).state with
              | .held => .idle
              | .holding => .opened
              | x => x }).answered a 0 6 [])) ∧
  (∀ (i : Instr) (s t : State), (∀ straps, i ≠ .powerOnReset straps) → exec i s = .next t → t.ship.phase ≠ s.ship.phase →
    ∀ k, (t.str k).txn = (s.str k).txn ∧
      (t.str k).state =
        if t.ship.phase = .alert ∨ t.ship.phase = .muster then
          match (s.str k).state with
          | .held => .idle
          | .holding => .opened
          | x => x
        else (s.str k).state)

/-- R32, R63, R95, R146, R162, R175: RESTART in NORMAL, node-addressed and cast; its refusals. A cast one is carried out without a
reply (R156). That it is carried out before it is forwarded, so that its copy stands in the emptied forward queue, is the model's
choice (log entry 5). -/
def Obligations.Restart : Prop :=
  ∀ (a : Arrival) (s : State),
    (s.Asked a →
      ((a.origin = originBridge ∨ a.origin = originMaintenance) → s.ship.phase = .normal →
        ∃ t : State, exec (.restart a) s = .next (t.answered a 0 8 []) ∧ t.replies = [] ∧ s.Restarted t) ∧
      ((a.origin = originContent ∨ a.origin = originController) → exec (.restart a) s = .next (s.answered a 5 8 [])) ∧
      ((a.origin = originBridge ∨ a.origin = originMaintenance) → s.ship.phase ≠ .normal →
        exec (.restart a) s = .next (s.answered a 6 8 []))) ∧
    (s.Receives a → s.address ≠ some a.dest → s.ConcernedBy a.dest →
      (a.origin = originBridge ∨ a.origin = originMaintenance) → s.ship.phase = .normal →
      ∃ t : State, t.replies = [] ∧ s.Restarted t ∧
        exec (.restart a) s =
          .next (if 1 ≤ a.hop ∧ (s.port a.port.other).up = true then
              t.setPort a.port.other
                { t.port a.port.other with queue := [{ a.requestFrame .restart with hop := a.hop - 1 }] }
            else t))

/-! ### The transmit arbiters -/

/-- R157 to R159, R161, R180: the four levels of an UP port that is not transmitting, a report's frame with its body and stamp; the end of
a transmission. That a choice with nothing to send, and the end of a transmission on a port that sends nothing, change nothing is the
model's choice (log entry 3). -/
def Obligations.TransmitOrder : Prop :=
  ∀ (s : State) (p : Port),
    ((s.port p).up = true → (s.port p).sending = none →
      (∀ f, (s.port p).queue.find? (fun g => g.origin == originBridge) = some f →
        exec (.transmitBegin p) s =
          .next (s.setPort p { s.port p with
            queue := (s.port p).queue.eraseP fun g => g.origin == originBridge
            sending := some f.bytes })) ∧
      ((∀ f ∈ (s.port p).queue, f.origin ≠ originBridge) →
        (∀ r, s.replies.find? (fun q => q.port == p) = some r →
          exec (.transmitBegin p) s =
            .next ({ s with replies := s.replies.eraseP fun q => q.port == p }.setPort p { s.port p with
              sending := some (Frame.bytes
                { kind := kindReply, origin := originController, node := s.address.getD 0, dest := r.dest,
                  hop := s.node.txHop, seq := r.seq, body := r.body }) })) ∧
        ((∀ r ∈ s.replies, r.port ≠ p) →
          (∀ r rest, s.reports = r :: rest →
            (s.node.reportPort = p ∨ (s.node.reportPort = p.other ∧ (s.port p.other).up = false)) →
            exec (.transmitBegin p) s =
              .next ({ s with reports := rest, reportSeq := (s.reportSeq + 1) % 65536 }.setPort p { s.port p with
                sending := some (Frame.bytes
                  { kind := kindReport, origin := originController, node := s.address.getD 0, dest := s.node.reportDest,
                    hop := s.node.txHop, seq := s.reportSeq, body := reportLayout r }) })) ∧
          ((s.reports = [] ∨ (s.node.reportPort = p.other ∧ (s.port p.other).up = true)) →
            (∀ f q, (s.port p).queue = f :: q →
              exec (.transmitBegin p) s = .next (s.setPort p { s.port p with queue := q, sending := some f.bytes })) ∧
            ((s.port p).queue = [] → exec (.transmitBegin p) s = .next s))))) ∧
    exec (.transmitEnd p) s = .next (s.setPort p { s.port p with sending := none }) ∧
    s.stamp =
      (if s.ship.valid then { valid := true, day := s.ship.day, minute := s.ship.minute, second := s.ship.second }
       else { valid := false, day := 0, minute := 0, second := 0 })

/-! ### Display strings -/

/-- R133 to R137: what selection offers on an IDLE, enabled string, and that it offers nothing only where nothing can be taken. A
dispatch is the first display in queue order that can be taken; a poll the first due past the cursor, else the first due from the
start of the ring; a probe the one due at the lowest position. -/
def Obligations.SelectionOrder : Prop :=
  ∀ (s : State) (k : StringNo), s.TablesOk →
    (∀ o, s.offer k = some o → (s.str k).state = .idle ∧ (s.str k).enabled = true ∧
      (match o with
        | .dispatch d u stamp =>
          (∃ pre post, (s.str k).queue u = pre ++ { display := d, stamp := stamp } :: post ∧ s.Takeable u d ∧
              ∀ e ∈ pre, ¬s.Takeable u e.display) ∧
            (4 ≤ (s.str k).run ∨ u ≠ .safety → ∀ j x, s.display j = some x → ¬s.PollDue k x ∧ ¬s.ProbeDue k x) ∧
            (u ≠ .safety → ∀ e ∈ (s.str k).safety, ¬s.Takeable .safety e.display) ∧
            (u = .routine →
              (s.quietCopy = false ∨ s.node.quietMask.getLsbD k.val = true) ∧
                ∀ e ∈ (s.str k).service, ¬s.Takeable .service e.display)
        | .poll d =>
          (∃ x, s.display d = some x ∧ s.PollDue k x ∧
              ∀ j y, s.display j = some y → s.PollDue k y →
                (if (s.str k).cursor < x.cfg.position then
                  y.cfg.position ≤ (s.str k).cursor ∨ x.cfg.position ≤ y.cfg.position
                else y.cfg.position ≤ (s.str k).cursor ∧ x.cfg.position ≤ y.cfg.position)) ∧
            ((s.str k).run < 4 → ∀ e ∈ (s.str k).safety, ¬s.Takeable .safety e.display)
        | .probe d =>
          (∃ x, s.display d = some x ∧ s.ProbeDue k x ∧
              ∀ j y, s.display j = some y → s.ProbeDue k y → x.cfg.position ≤ y.cfg.position) ∧
            (∀ j y, s.display j = some y → ¬s.PollDue k y) ∧
            ((s.str k).run < 4 → ∀ e ∈ (s.str k).safety, ¬s.Takeable .safety e.display))) ∧
    ((s.str k).state = .idle → (s.str k).enabled = true → s.offer k = none →
      (∀ j x, s.display j = some x → ¬s.PollDue k x ∧ ¬s.ProbeDue k x) ∧
        (∀ u, u ≠ .routine → ∀ e ∈ (s.str k).queue u, ¬s.Takeable u e.display) ∧
        (s.quietCopy = false ∨ s.node.quietMask.getLsbD k.val = true →
          ∀ e ∈ (s.str k).routine, ¬s.Takeable .routine e.display))

/-- R62, R131, R136 to R140: what a display taken does. For a dispatch it leaves its queue, its held values are written, and it
becomes CLEAN where the composed digest is the delivered one, or a dispatch opens with SELECT. For a poll the cursor moves to its
position and POLL goes out; a QUEUED one leaves its queue and keeps its place. For a probe SELECT goes out. The model's choices:
the message carries the tag as it stands, which goes up after it (log entry 17), and is on the line, its try begun, at once (log
entry 20). -/
def Obligations.Takes : Prop :=
  ∀ (s : State) (k : StringNo) (d : Nat) (x : Display), s.display d = some x → x.cfg.string = k →
    (∀ (u : Urgency) (stamp : Nat), s.offer k = some (.dispatch d u stamp) → x.rt.state = .queued u →
      ∃ t, exec (.dispatchTake k) s = .next t ∧
        (x.rt.digest = some (digest (s.record d x)) →
          t.display d = some { x with rt := { x.rt with state := .clean, held := s.composedHeld d x } } ∧
            t.str k =
              { (s.str k).setQueue u (((s.str k).queue u).filter fun e => e.display != d) with
                run := if u = .safety then (s.str k).run else 0 }) ∧
        (x.rt.digest ≠ some (digest (s.record d x)) →
          t.display d = some { x with rt := { x.rt with state := .opened, stale := none, held := s.composedHeld d x } } ∧
            t.str k =
              { (s.str k).setQueue u (((s.str k).queue u).filter fun e => e.display != d) with
                state := .opened
                run := if u = .safety then (s.str k).run + 1 else 0
                txn := some
                  { kind := .dispatch (s.record d x) (digest (s.record d x)), display := d, step := .select, tries := 1,
                    place := some (u, stamp), tag := (s.str k).tag, sentAt := s.now }
                tag := ((s.str k).tag + 1) % 256
                lineOut := stringBytes (s.str k).tag 1 [byteOf x.cfg.position] }) ∧
        (∀ j, j ≠ d → t.display j = s.display j) ∧ (∀ j, j ≠ k → t.str j = s.str j) ∧
        { t with displays := s.displays, strings := s.strings } = s) ∧
    (s.offer k = some (.poll d) → ∀ (c : StringCtl) (place : Option (Urgency × Nat)),
      (x.rt.state = .clean ∧ c = s.str k ∧ place = none) ∨
        (∃ u stamp, x.rt.state = .queued u ∧
          ((s.str k).queue u).find? (fun e => e.display == d) = some { display := d, stamp := stamp } ∧
          c = (s.str k).setQueue u (((s.str k).queue u).filter fun e => e.display != d) ∧ place = some (u, stamp)) →
      ∃ t, exec (.pollTake k) s = .next t ∧
        t.str k =
          { c with
            state := .opened
            run := 0
            cursor := x.cfg.position
            txn := some
              { kind := .poll, display := d, step := .poll, tries := 1, place := place, tag := (s.str k).tag,
                sentAt := s.now }
            tag := ((s.str k).tag + 1) % 256
            lineOut := stringBytes (s.str k).tag 5 [byteOf x.cfg.position] } ∧
        t.display d = some { x with rt := { x.rt with state := .opened, stale := none } } ∧
        (∀ j, j ≠ d → t.display j = s.display j) ∧ (∀ j, j ≠ k → t.str j = s.str j) ∧
        { t with displays := s.displays, strings := s.strings } = s) ∧
    (s.offer k = some (.probe d) → x.rt.state = .faulted →
      ∃ t, exec (.probeTake k) s = .next t ∧
        t.str k =
          { s.str k with
            state := .opened
            run := 0
            txn := some
              { kind := .probe, display := d, step := .select, tries := 1, place := none, tag := (s.str k).tag,
                sentAt := s.now }
            tag := ((s.str k).tag + 1) % 256
            lineOut := stringBytes (s.str k).tag 1 [byteOf x.cfg.position] } ∧
        t.display d = some { x with rt := { x.rt with state := .opened, stale := none } } ∧
        (∀ j, j ≠ d → t.display j = s.display j) ∧ (∀ j, j ≠ k → t.str j = s.str j) ∧
        { t with displays := s.displays, strings := s.strings } = s)

/-- R33, R34, R58 to R62, R75, R106, R111, R112, R114 to R117, R119 to R121: what a composition yields; `Takes` says that a dispatch writes
these held values and sends this record. What it reads, by the tables of the rules: the screen mode (`InMode`), the brightness
(`LitAt`), the template in use with its fallbacks (`InUse`), the window and the first eight entries of a board. The route value of a
position: blank, and nothing held anew, without a present destination; while the destination is not SETTLED the held value, or else
ROUTE_PENDING; once SETTLED the one its cells give, which is then held. The record: template in use, brightness, language and slot
count; then the slots of the template, cut to the display's grid, each with its box, size, emphasis and its value as R181 lays it out:
its source's where its condition, with its polarity, shows it (`Meets` has the 16 conditions, `SourceGives` the 22 sources), else
BLANK. The contents of the fixed templates are in `ReadAnswers`. That a set emphasis or OVER mark is sent as 1 is the model's choice
(log entry 34). -/
def Obligations.Composition : Prop :=
  (∀ (s : State) (c : DisplayConfig),
    s.InMode c (s.screenMode c) ∧ s.LitAt c (s.brightness c) ∧ (∀ m, s.InUse c.cls m (s.templateInUse c.cls m)) ∧
      (s.ship.valid = true → s.nowMinute = some (s.ship.day * 1440 + s.ship.minute)) ∧
      (s.ship.valid = false → s.nowMinute = none) ∧
      (∀ now e, inWindow c now e = true ↔ ∃ m, now = some m ∧ e.InWindow c m) ∧
      (c.cls = .programme ∨ c.cls = .lobby → s.itemList c = (s.programme.filter (inWindow c s.nowMinute)).take 8) ∧
      (c.cls ≠ .programme → c.cls ≠ .lobby → s.itemList c = [])) ∧
  (∀ c : DisplayClass, (c.grid = .large ↔ c = .musterPoint ∨ c = .lobby ∨ c = .programme) ∧
    (c.isBoard = true ↔ c = .programme ∨ c = .lobby)) ∧
  (Grid.large.columns = 40 ∧ Grid.large.rows = 16 ∧ Grid.small.columns = 20 ∧ Grid.small.rows = 8) ∧
  (∀ (s : State) (d i : Nat) (c : Cabin), s.cabinNaming d = some (i, c) ↔
    ∃ pre post, s.cabins = pre ++ (i, c) :: post ∧ c.display = d ∧ ∀ e ∈ pre, e.2.display ≠ d) ∧
  ∀ (s : State) (d : Nat) (x : Display), s.display d = some x →
    (∀ p, (∀ n, s.RoutePosition d x p n → Tab.fetch s.dests n = none) →
      s.positionValue d x p = none ∧ Tab.fetch (s.composedHeld d x) p = Tab.fetch x.rt.held p) ∧
    (∀ p n e, s.RoutePosition d x p n → Tab.fetch s.dests n = some e →
      (e.status ≠ .settled →
        s.positionValue d x p =
            some ((Tab.fetch x.rt.held p).getD { glyph := .routePending, distance := none, minutes := none }) ∧
          Tab.fetch (s.composedHeld d x) p = Tab.fetch x.rt.held p) ∧
      (e.status = .settled →
        ∃ v, s.positionValue d x p = some v ∧ Tab.fetch (s.composedHeld d x) p = some v ∧
          (x.cfg.node ∈ e.targets → v = { glyph := .here, distance := some 0, minutes := some (0, false) }) ∧
          (x.cfg.node ∉ e.targets →
            ((cellAt e.cells x.cfg.node).effort = none → v = { glyph := .noRoute, distance := none, minutes := none }) ∧
            (∀ effort h g m, (cellAt e.cells x.cfg.node).effort = some effort → (cellAt e.cells x.cfg.node).hop = some h →
              Tab.fetch s.segments h.segment = some g → m = (effort + s.node.walkRate - 1) / s.node.walkRate →
              v = { glyph := hopSign g h.back x.cfg.facing
                    distance := some (min 9999 (((cellAt e.cells x.cfg.node).length + 5) / 10))
                    minutes := some (if 99 < m then (99, true) else (m, false)) })))) ∧
    ∃ (slots : List (Slot × Value)) (t : Template) (template brightness language : Nat),
      (∀ m, s.InMode x.cfg m → s.InUse x.cfg.cls m template) ∧ s.LitAt x.cfg brightness ∧
      ((∀ c, ¬s.LinkedTo d x c) → language = x.cfg.language) ∧
      (∀ c, s.LinkedTo d x c → language = c.language.getD x.cfg.language) ∧
      s.record d x =
        [byteOf template, byteOf brightness, byteOf language, byteOf slots.length] ++
          slots.flatMap (fun q =>
            [byteOf q.1.box.column, byteOf q.1.box.row, byteOf q.1.box.width, byteOf q.1.box.height, byteOf q.1.size,
              byteOf (if q.1.emphasis then 1 else 0)] ++ valueLayout q.2) ∧
      s.template template = some t ∧ (t.grid = x.cfg.cls.grid → slots.map (·.1) = t.slots) ∧
      (t.grid ≠ x.cfg.cls.grid →
        slots.map (·.1) =
          (t.slots.filter fun q => q.box.column < x.cfg.cls.grid.columns ∧ q.box.row < x.cfg.cls.grid.rows).map fun q =>
            { q with
              box := { q.box with
                width := min q.box.width (x.cfg.cls.grid.columns - q.box.column)
                height := min q.box.height (x.cfg.cls.grid.rows - q.box.row) } }) ∧
      ∀ q ∈ slots,
        ((s.Meets d x q.1.condition ↔ q.1.showWhenTrue = true) →
          s.SourceGives d x (q.1.language.getD language) q.1.argument q.2 q.1.source) ∧
        (¬(s.Meets d x q.1.condition ↔ q.1.showWhenTrue = true) → q.2 = .blank)

/-- R129, R132, R140, R141, R143, R159, R160: the replies to a dispatch. READY and ACK carry it on to the next message; READY with
another class faults the display, with its report; REFRESH completes the delivery, a stale mark then applied; BUSY puts the display
back to its place, raised by a stale mark. No other display changes, and of the strings none but the transaction's and, by places of
the display, its own. The model's choices: a message carries the tag as it stands (log entry 17), and is on the line, its try begun,
at once, RELEASE too, with which the transaction is over (log entry 20). -/
def Obligations.DispatchReplies : Prop :=
  ∀ (s : State) (k : StringNo) (t : Txn) (record : List Byte) (dg : Word16) (x : Display),
    (s.str k).txn = some t → t.kind = .dispatch record dg → s.display t.display = some x →
    (t.step = .select →
      exec (.ready k t.tag x.cfg.cls.code) s =
        .next (s.setStr k { s.str k with
          txn := some { t with step := .screen, tries := 1, tag := (s.str k).tag, sentAt := s.now }
          tag := ((s.str k).tag + 1) % 256
          lineOut := stringBytes (s.str k).tag 2 record })) ∧
    (t.step = .screen →
      exec (.ack k t.tag) s =
        .next (s.setStr k { s.str k with
          txn := some { t with step := .commit, tries := 1, tag := (s.str k).tag, sentAt := s.now }
          tag := ((s.str k).tag + 1) % 256
          lineOut := stringBytes (s.str k).tag 3 [] })) ∧
    (t.step = .select → ∀ cls, cls ≠ x.cfg.cls.code →
      ∃ u, exec (.ready k t.tag cls) s = .next u ∧
        u.display t.display =
          some { x with
            rt := { x.rt with
              state := .faulted, fault := some .mismatch, failures := 3, stale := none, lastFail := some s.now } } ∧
        (∀ j, j ≠ t.display → u.display j = s.display j) ∧
        (∀ j, u.str j = if j = k then (s.str k).over true else s.str j) ∧
        Reported s.stamp .displayFault t.display 2 s.reporting u.reporting ∧
        { u with displays := s.displays, strings := s.strings, reports := s.reports, reportArrival := s.reportArrival } = s) ∧
    (∀ ms, t.step = .commit →
      ∃ u, exec (.refresh k t.tag ms) s = .next u ∧
        u.display t.display =
          some { x with
            rt := { x.rt with
              digest := some dg, lastCommit := some s.now, busyUntil := s.now + min ms 10000, failures := 0, stale := none,
              state := stateBack none x.rt.stale } } ∧
        s.EndsTxn u k ((s.str k).over true) t.display x.cfg.string ∧
        (x.rt.stale = none → u.str k = (s.str k).over true) ∧
        s.PutBack u t.display x.cfg.string none (stateBack none x.rt.stale) ∧
        { u with displays := s.displays, strings := s.strings } = s) ∧
    (∀ ms, t.step = .select →
      ∃ u, exec (.busy k t.tag ms) s = .next u ∧
        u.display t.display =
          some { x with
            rt := { x.rt with
              busyUntil := s.now + min ms 10000, stale := none, state := stateBack t.place x.rt.stale } } ∧
        s.EndsTxn u k ((s.str k).over false) t.display x.cfg.string ∧
        s.PutBack u t.display x.cfg.string t.place (stateBack t.place x.rt.stale) ∧
        { u with displays := s.displays, strings := s.strings } = s)

/-- R140, R142 to R144, R159, R160: a try that fails, rejected by NAK, by a reply of a kind that its message does not expect or by
one of an unknown code, or unanswered, is repeated under a new tag with the same content below the third; the third failure of a
dispatch's step ends it with RELEASE, that of a poll without one, and counts; below the third counted failure the display goes back
to its place, raised by a stale mark, and at it the display is faulted, with its report. No other display changes, and of the strings
none but the transaction's and, by places of the display, its own. The model's choices: the timeout comes at its time, or now where
that is later (log entry 2), a message carries the tag as it stands (log entry 17) and is on the line, its try begun, at once (log
entry 20). -/
def Obligations.TriesFail : Prop :=
  ∀ (s : State) (k : StringNo) (t : Txn) (i : Instr) (cause : FaultCause) (n : Nat), (s.str k).txn = some t →
    (t.Rejects k i ∧ cause = .rejected ∧ n = s.now) ∨
      (i = .replyTimeout k ∧ cause = .noReply ∧ n = max s.now (t.sentAt + (s.str k).timeout)) →
    (∀ code payload, s.Message t code payload → s.message t = (code, payload)) ∧
    (t.tries < 3 →
      exec i s =
        .next ({ s with now := n }.setStr k { s.str k with
          txn := some { t with tries := t.tries + 1, tag := (s.str k).tag, sentAt := n }
          tag := ((s.str k).tag + 1) % 256
          lineOut := stringBytes (s.str k).tag (s.message t).1 (s.message t).2 })) ∧
    (∀ x, t.tries = 3 → t.kind ≠ .probe → s.display t.display = some x →
      ∃ u, exec i s = .next u ∧ u.now = n ∧
        s.EndsTxn u k ((s.str k).over (t.kind ≠ .poll)) t.display x.cfg.string ∧
        (x.rt.failures < 2 →
          u.display t.display =
            some { x with
              rt := { x.rt with
                failures := x.rt.failures + 1, lastFail := some n, stale := none
                state := stateBack t.place x.rt.stale } } ∧
          s.PutBack u t.display x.cfg.string t.place (stateBack t.place x.rt.stale) ∧
          u.reporting = s.reporting) ∧
        (2 ≤ x.rt.failures →
          u.display t.display =
            some { x with
              rt := { x.rt with
                state := .faulted, fault := some cause, failures := 3, stale := none, lastFail := some n } } ∧
          u.str k = (s.str k).over (t.kind ≠ .poll) ∧
          Reported s.stamp .displayFault t.display cause.code s.reporting u.reporting) ∧
        { u with now := s.now, displays := s.displays, strings := s.strings, reports := s.reports,
                 reportArrival := s.reportArrival } = s)

/-- R141, R145, R159, R160: the outcomes of a probe. READY with the display's class: RELEASE, the display recovered, reported and
marked at the write urgency together with a stale mark. READY with another class, BUSY, and the third try failed: the display stays
FAULTED, with the cause that the outcome gives (BUSY keeps it), the time of failure moved and no report. No other display changes, and
of the strings none but the transaction's and, by places of the display, its own. The model's choices: the timeout's time (log entry
2), the tag as it stands (log entry 17), RELEASE on the line at once (log entry 20). -/
def Obligations.ProbeOutcomes : Prop :=
  ∀ (s : State) (k : StringNo) (t : Txn) (x : Display), (s.str k).txn = some t → t.kind = .probe → t.step = .select →
    s.display t.display = some x → x.rt.state = .opened →
    (∃ u, exec (.ready k t.tag x.cfg.cls.code) s = .next u ∧
      u.display t.display =
        some { x with
          rt := { x.rt with
            digest := none, failures := 0, fault := none, stale := none
            state := stateBack (some (emergencyUrgency s.ship.phase, 0)) x.rt.stale } } ∧
      s.EndsTxn u k ((s.str k).over true) t.display x.cfg.string ∧
      s.PutBack u t.display x.cfg.string none (stateBack (some (emergencyUrgency s.ship.phase, 0)) x.rt.stale) ∧
      Reported s.stamp .displayRecovered t.display x.cfg.cls.code s.reporting u.reporting ∧
      { u with displays := s.displays, strings := s.strings, reports := s.reports, reportArrival := s.reportArrival } = s) ∧
    (∀ cls, cls ≠ x.cfg.cls.code →
      ∃ u, exec (.ready k t.tag cls) s = .next u ∧
        u.display t.display =
          some { x with
            rt := { x.rt with
              state := .faulted, fault := some .mismatch, failures := 3, stale := none, lastFail := some s.now } } ∧
        (∀ j, j ≠ t.display → u.display j = s.display j) ∧
        (∀ j, u.str j = if j = k then (s.str k).over true else s.str j) ∧
        { u with displays := s.displays, strings := s.strings } = s) ∧
    (∀ ms, ∃ u, exec (.busy k t.tag ms) s = .next u ∧
      u.display t.display =
        some { x with
          rt := { x.rt with
            state := .faulted, stale := none, busyUntil := s.now + min ms 10000, lastFail := some s.now } } ∧
      (∀ j, j ≠ t.display → u.display j = s.display j) ∧
      (∀ j, u.str j = if j = k then (s.str k).over false else s.str j) ∧
      { u with displays := s.displays, strings := s.strings } = s) ∧
    (∀ (i : Instr) (cause : FaultCause) (n : Nat), t.tries = 3 →
      (t.Rejects k i ∧ cause = .rejected ∧ n = s.now) ∨
        (i = .replyTimeout k ∧ cause = .noReply ∧ n = max s.now (t.sentAt + (s.str k).timeout)) →
      ∃ u, exec i s = .next u ∧ u.now = n ∧
        u.display t.display =
          some { x with
            rt := { x.rt with
              state := .faulted, fault := some cause, failures := 3, stale := none, lastFail := some n } } ∧
        (∀ j, j ≠ t.display → u.display j = s.display j) ∧
        (∀ j, u.str j = if j = k then (s.str k).over true else s.str j) ∧
        { u with now := s.now, displays := s.displays, strings := s.strings } = s)

/-- R86 to R88, R144, R159, R160: EVENTS puts the display back, a stale mark then applied, and hands its presses to the Cabin Unit: in
ALERT and MUSTER an assistance call for each press, else at an OCCUPIED cabin the presses one after another, with the reports of each
and a SERVICE mark. No other display changes, and of the strings none but the transaction's and, by places of the display, its own. -/
def Obligations.EventsTaken : Prop :=
  ∀ (s : State) (k : StringNo) (t : Txn) (x : Display) (codes : List Nat), (s.str k).txn = some t → t.kind = .poll →
    t.step = .poll → s.display t.display = some x → codes.length ≤ 4 →
    ∃ u y, exec (.events k t.tag codes) s = .next u ∧ u.display t.display = some y ∧
      s.EndsTxn u k ((s.str k).over false) t.display x.cfg.string ∧
      y.cfg = x.cfg ∧ { y.rt with state := x.rt.state } =
        { x.rt with lastPoll := some s.now, failures := 0, stale := none } ∧
      s.PutBack u t.display x.cfg.string t.place y.rt.state ∧
      (s.cabinNaming t.display = none ∨ (∀ b ∈ codes, 3 ≤ b) →
        u.cabins = s.cabins ∧ u.reporting = s.reporting ∧ y.rt.state = stateBack t.place x.rt.stale) ∧
      (∀ i c, s.cabinNaming t.display = some (i, c) → Tab.fetch s.cabins i = some c →
        ((s.ship.phase = .alert ∨ s.ship.phase = .muster) → (∃ b ∈ codes, b < 3) →
          (∀ j, Tab.fetch u.cabins j = if j = i then some { c with assist := true } else Tab.fetch s.cabins j) ∧
            y.rt.state = (stateBack t.place x.rt.stale).raised .safety ∧
            ReportedAll s.stamp c.number
              ((codes.filter (fun b => b < 3)).map fun _ => (.assist, if c.occupied then 1 else 0)) s.reporting u.reporting) ∧
        ((s.ship.phase = .normal ∨ s.ship.phase = .standDown) →
          (c.occupied = false →
            u.cabins = s.cabins ∧ u.reporting = s.reporting ∧ y.rt.state = stateBack t.place x.rt.stale) ∧
            (c.occupied = true → (∃ b ∈ codes, b < 3) →
              (∀ j, Tab.fetch u.cabins j =
                if j = i then
                  some { c with
                    dnd := (codes.foldl pressed (c.dnd, c.mur)).1
                    mur := (codes.foldl pressed (c.dnd, c.mur)).2 }
                else Tab.fetch s.cabins j) ∧
                y.rt.state = (stateBack t.place x.rt.stale).raised .service ∧
                ReportedAll s.stamp c.number (pressesReports (c.dnd, c.mur) codes) s.reporting u.reporting))) ∧
      { u with displays := s.displays, strings := s.strings, cabins := s.cabins, reports := s.reports,
               reportArrival := s.reportArrival } = s

/-- R140, R181: a reply that carries another tag, or comes while none is awaited, is discarded, whatever its code and payload; so is,
under whatever tag, a complete reply that fails its check: by its CRC, by a payload length that is not its code's, or for EVENTS by its
count. That a timeout while no transaction is in flight changes nothing is the model's choice (log entry 3). -/
def Obligations.ReplyNotAwaited : Prop :=
  ∀ (s : State) (k : StringNo) (tag : Nat),
    ((∀ t, (s.str k).txn = some t → t.tag ≠ tag) →
      (∀ (r : StringReply) (i : Instr), r.command k tag = some i → exec i s = .next s) ∧
        (tag < 256 → ∀ code payload, code < 256 → payload.length < 65536 →
          exec (.stringReplyDiscard k (stringBytes tag code payload)) s = .next s)) ∧
    (∀ bs, crcBytes (bs.take (bs.length - 2)) ≠ bs.drop (bs.length - 2) →
      exec (.stringReplyDiscard k bs) s = .next s) ∧
    (∀ (code : Nat) (payload : List Byte), code < 256 → payload.length < 65536 →
      (∃ m, payloadLength code = some m ∧ payload.length ≠ m) ∨
        (code = 134 ∧ ∀ (e : Byte) (es : List Byte), payload = e :: es → ¬(e.toNat = es.length ∧ es.length ≤ 4)) →
      exec (.stringReplyDiscard k (stringBytes tag code payload)) s = .next s) ∧
    (∀ codes, 4 < codes.length → exec (.events k tag codes) s = .next s) ∧
    ((s.str k).txn = none → exec (.replyTimeout k) s = .next s)

/-- The model's choice (log entry 2): the command of a time that makes work takeable (R133, R135 to R137 say which times) brings the
time base to that time, or leaves it where it is later, and does nothing else; what is then takeable follows from the state. -/
def Obligations.Deadlines : Prop :=
  ∀ (s : State) (d : Nat) (x : Display), s.display d = some x →
    exec (.refreshBusyReached d) s = .next { s with now := max s.now x.rt.busyUntil } ∧
      (∀ c, x.rt.lastCommit = some c →
        exec (.minRefreshExpiry d) s = .next { s with now := max s.now (c + 1000 * s.node.minRefresh.toList.getD x.cfg.cls.code 0) }) ∧
      (∀ p, x.rt.lastPoll = some p → x.cfg.cls = .cabin → x.rt.state ≠ .faulted → x.rt.fault = none →
        exec (.pollDue d) s = .next { s with now := max s.now (p + (s.str x.cfg.string).pollPeriod) }) ∧
      (∀ f, x.rt.lastFail = some f → x.rt.state = .faulted →
        exec (.probeDue d) s = .next { s with now := max s.now (f + 30000) })

/-! ### The Route Solver -/

/-- R47, R49, R51: the destination that the solver takes, and what taking it does. That taking while a solve is in flight, or with
nothing to take, changes nothing is the model's choice (log entry 3). -/
def Obligations.SolverTake : Prop :=
  ∀ s : State, s.TablesOk →
    ((∃ e ∈ s.dests, e.2.status = .solving) → exec .solverTake s = .next s) ∧
    ((∀ e ∈ s.dests, solverRank s.ship.phase e.2 = none) → exec .solverTake s = .next s) ∧
    (∀ d t r, Tab.fetch s.dests d = some t → solverRank s.ship.phase t = some r →
      (∀ e ∈ s.dests, e.2.status ≠ .solving) →
      (∀ e ∈ s.dests, ∀ q, solverRank s.ship.phase e.2 = some q → r < q ∨ (r = q ∧ d ≤ e.1)) →
      ∃ u v, exec .solverTake s = .next u ∧ Tab.fetch u.dests d = some v ∧ (∀ j, j ≠ d → Tab.fetch u.dests j = Tab.fetch s.dests j) ∧
        (t.status = .suspended → v = { t with status := .solving }) ∧
        (t.status = .pending →
          v.status = .solving ∧ v.sweeps = 0 ∧ v.name = t.name ∧ v.kind = t.kind ∧ v.targets = t.targets ∧
            ∀ n, (cellAt v.cells n).hop = none ∧
              (n ∈ t.targets → (cellAt v.cells n).effort = some 0 ∧ (cellAt v.cells n).length = 0) ∧
              (n ∉ t.targets →
                (cellAt v.cells n).effort = none ∧ (cellAt v.cells n).length = (cellAt t.cells n).length)) ∧
        { u with dests := s.dests } = s)

/-- R45 to R48, R50, R55, R56, R92, R93: the end of a sweep of the destination that is SOLVING. `Swept` is the sweep as R47 has it: the
traversals in index order, a to b and then b to a, each read over the cells as the ones before it left them; one that is passable and
whose candidate is at most 65534 and less than the effort that stands there is taken, and any other, an equal one among them, passed.
Where the sweep changed cells the new cells are those; where it changed none the destination is SETTLED, no passable traversal betters
any cell, the displays that show it in their list, as their cabin's muster station or as the venue of an item are marked, and no
others, and a muster station is recounted: its loss count, the report where it differs, and the last reported count. -/
def Obligations.SweepEnd : Prop :=
  ∀ (s : State) (d : Nat) (t : Dest), s.TablesOk → Tab.fetch s.dests d = some t → t.status = .solving →
    (∀ e ∈ s.dests, e.2.status = .solving → e.1 = d) →
    ∃ u v swept n, s.Swept (traversals s.segments) (cellAt t.cells) swept n ∧ exec .sweepEnd s = .next u ∧ Tab.fetch u.dests d = some v ∧
      (∀ j, j ≠ d → Tab.fetch u.dests j = Tab.fetch s.dests j) ∧
      v.sweeps = t.sweeps + 1 ∧ v.name = t.name ∧ v.kind = t.kind ∧ v.targets = t.targets ∧
      (n ≠ 0 →
        (∀ j, cellAt v.cells j = swept j) ∧
          v.status =
            (if (s.ship.phase = .alert ∨ s.ship.phase = .muster) ∧ t.kind ≠ .musterStation ∧
                (∃ e ∈ s.dests, e.2.kind = .musterStation ∧ e.2.status = .pending) then .suspended
              else .solving) ∧
          u.displays = s.displays ∧ u.strings = s.strings ∧ u.losses = s.losses) ∧
      (n = 0 →
        v.cells = t.cells ∧ v.status = .settled ∧
          (∀ h x y c l far, s.Offers h x y c l → (cellAt t.cells y).effort = some far → c + far ≤ 65534 →
            ∃ own, (cellAt t.cells x).effort = some own ∧ own ≤ c + far) ∧
          (s.Marks u fun j x v => ((∃ p, s.RoutePosition j x p d) ∨ ∃ f ∈ s.itemList x.cfg, f.venue = some d) ∧
            v = emergencyUrgency s.ship.phase) ∧
          (t.kind = .musterStation → u.Recounts s.stamp d s.losses u.losses) ∧
          (t.kind ≠ .musterStation → u.losses = s.losses)) ∧
      { u with dests := s.dests, displays := s.displays, strings := s.strings, lossReported := s.lossReported,
               reports := s.reports, reportArrival := s.reportArrival } = s

/-! ### What every step keeps -/

/-- R153, R156, R159: the forward queues, the reply queue and the Report Queue keep their bounds, and the Report Queue its order
and its one report for each kind and subject. -/
def Obligations.QueuesKept : Prop :=
  ∀ s t : State, s.ReportsOk → s.LinkOk → step s = .next t → t.ReportsOk ∧ t.LinkOk

/-- R8, R10, R12, R128: the phase, the muster line, the drill flag and the hold stay in accord, and the string controllers' copy
with quiet hours. R19: quiet hours stay in force exactly while the phase, the clock and their window say so. R80, R85, R91: every cabin
number stays in 1..65535, no step sets DND and MUR together, and in NORMAL no cabin has ASSIST or SWEPT. -/
def Obligations.PhaseKept : Prop :=
  ∀ s t : State, step s = .next t → (s.PhaseOk → s.QuietOk → t.PhaseOk ∧ t.QuietOk) ∧
    (s.QuietInForce → t.QuietInForce) ∧ (s.CabinsOk → t.CabinsOk)

/-- R64: the programme table keeps its order, its ids and its bound; no entry leaves ENDED or CANCELLED in a step, though it may
be pruned or removed (and a removed id written again); the table is empty after power-on reset, and a warm restart keeps it. -/
def Obligations.ProgrammeKept : Prop :=
  (∀ s t : State, s.ProgrammeOk → step s = .next t → t.ProgrammeOk ∧
    ∀ e ∈ s.programme, e.status = .ended ∨ e.status = .cancelled → ∀ f ∈ t.programme, f.id = e.id → f.status = e.status) ∧
  (∀ (straps : BitVec 8) (s : State), ∃ t, exec (.powerOnReset straps) s = .next t ∧ t.programme = []) ∧
  (∀ (a : Arrival) (s : State), ∃ t, exec (.restart a) s = .next t ∧ t.programme = s.programme)

/-- R44, R47 to R50: at most one destination is SOLVING and at most one SUSPENDED, which is no muster station; the cells of a solve
in flight or suspended keep their form through every sweep, and those of a SETTLED destination their properties: effort 0 at its
targets, the effort and the length that the next hop gives, passable in the closures and phase as they stand, and no passable
traversal that betters them. After k sweeps of a solve every node has an effort no greater than that of any path of at most k
traversals, so a solve that is not over has taken at most 255 sweeps and no solve takes more than 256. That a SUSPENDED destination is found in ALERT and MUSTER alone follows from the model taking a PHASE
notification in the step that sends it (log entry 10). -/
def Obligations.SolverKept : Prop :=
  ∀ s t : State, s.TablesOk → s.SolverOk → step s = .next t → t.SolverOk

/-- R21, R129, R131: the strings, their queues and the displays stay in accord: a string is OPEN or HOLDING exactly while a
transaction is in flight with the one OPEN display of its own; a display is in exactly one queue, of its urgency on its string,
while it is QUEUED, and in none otherwise; the queues keep their order and their stamps differ. -/
def Obligations.StringsKept : Prop :=
  ∀ s t : State, s.TablesOk → s.StringsOk → step s = .next t → t.StringsOk

/-- The tables keep their canonical form, with no entry listed that reads as an unlisted one does, so that equal contents are equal
data (the model's own form, log entry 8). -/
def Obligations.TablesKept : Prop :=
  ∀ s t : State, s.TablesOk → step s = .next t → t.TablesOk

/-- R172: a locked access region stays locked, with unchanged fields, through every step but a power-on reset. -/
def Obligations.LockedRegionKept : Prop :=
  ∀ (s t : State) (i : Fin 8) (r : Region), s.lockedAt i r → step s = .next t →
    (∀ straps rest, s.pending ≠ .powerOnReset straps :: rest) → t.lockedAt i r

/-- What every step keeps holds right after power-on reset. -/
def Obligations.ResetMeetsInvariants : Prop :=
  State.reset.ReportsOk ∧ State.reset.LinkOk ∧ State.reset.PhaseOk ∧ State.reset.QuietOk ∧ State.reset.QuietInForce ∧
    State.reset.ProgrammeOk ∧ State.reset.SolverOk ∧ State.reset.CabinsOk ∧ State.reset.StringsOk ∧ State.reset.TablesOk
end

