-- ==== Sys2Proof/Laws/Access.lean ====
section
/-! SUPPORT. Access (R170 to R172): what the checks of the Responder compute is what the statements say of regions and default
access. -/

namespace Sys2Proof.Machine

theorem Region.covers_iff (r : Region) (t i : Nat) : r.covers t i = true ↔ r.Matches t i := by
  simp [Region.covers, Region.Matches, and_assoc]

/-- R171: no region decides an entry that none matches. -/
theorem State.regionFor_none_iff (s : State) (t i : Nat) :
    s.regionFor t i = none ↔ ∀ n : Fin 8, ¬(s.regions[n]).Matches t i := by
  simp only [State.regionFor, List.find?_eq_none, ← Region.covers_iff]
  constructor
  · intro h n
    exact h _ (by simp)
  · intro h r hr
    obtain ⟨k, hk, rfl⟩ := List.getElem_of_mem hr
    simpa using h ⟨k, by simpa using hk⟩

/-- R171: the region that decides is the lowest-numbered one that matches. -/
theorem State.regionFor_some_iff (s : State) (t i : Nat) (r : Region) :
    s.regionFor t i = some r ↔ ∃ n : Fin 8, s.DecidedBy n t i ∧ s.regions[n] = r := by
  simp only [State.regionFor, List.find?_eq_some_iff_getElem, State.DecidedBy, ← Region.covers_iff]
  constructor
  · rintro ⟨h, k, hk, rfl, hl⟩
    refine ⟨⟨k, by simpa using hk⟩, ⟨by simpa using h, fun m hm => ?_⟩, by simp⟩
    simpa using hl m.val hm
  · rintro ⟨n, ⟨h, hl⟩, rfl⟩
    refine ⟨h, n.val, by simp, by simp, fun j hj => ?_⟩
    simpa using hl ⟨j, by omega⟩ hj

/-- R171: one region at most decides. -/
theorem State.DecidedBy.unique {s : State} {n m : Fin 8} {t i : Nat} (hn : s.DecidedBy n t i) (hm : s.DecidedBy m t i) : m = n := by
  rcases lt_trichotomy m n with h | h | h
  · exact absurd hm.1 (hn.2 m h)
  · exact h
  · exact absurd hn.1 (hm.2 n h)

/-- R171: what a region decides. -/
theorem Region.allows_iff (r : Region) (o : Nat) (c m b : Bool) : r.allows o c m b = true ↔ r.Lets o c m b := by
  unfold Region.allows Region.Lets
  split_ifs with h0 h1 h2
  · cases r.lock <;> cases b <;> simp [h0, originBridge, originContent, originMaintenance]
  · simp [h1, originBridge, originContent, originMaintenance]
  · simp [h2, originBridge, originContent, originMaintenance]
  · simp [h0, h1, h2]

/-- R171: a property of the region that decides an entry, or of default access where none does. -/
theorem State.regionFor_cases (s : State) (t i : Nat) (p : Option Region → Prop) :
    p (s.regionFor t i) ↔
      ((∀ n : Fin 8, ¬(s.regions[n]).Matches t i) ∧ p none) ∨ ∃ n : Fin 8, s.DecidedBy n t i ∧ p (some s.regions[n]) := by
  cases h : s.regionFor t i with
  | none =>
    have h0 := (s.regionFor_none_iff t i).1 h
    exact ⟨fun hp => Or.inl ⟨h0, hp⟩, fun hp => hp.elim (·.2) fun ⟨n, hd, _⟩ => absurd hd.1 (h0 n)⟩
  | some r =>
    obtain ⟨n, hd, rfl⟩ := (s.regionFor_some_iff t i r).1 h
    exact ⟨fun hp => Or.inr ⟨n, hd, hp⟩,
      fun hp => hp.elim (fun h0 => absurd hd.1 (h0.1 n)) fun ⟨m, hm, hp⟩ => hd.unique hm ▸ hp⟩

/-- R170, R171: the access check of a READ. -/
theorem State.mayRead_iff (s : State) (o t i : Nat) : s.mayRead o t i = true ↔ s.ReadAccess o t i := by
  unfold State.mayRead State.ReadAccess
  by_cases h : o = originController
  · simp [h]
  · rw [if_neg h]
    refine (s.regionFor_cases t i fun q => (match q with
      | some r => r.allows o r.readContent r.readMaintenance r.readBridge
      | none => true) = true).trans ?_
    simp [h, Region.allows_iff]

/-- R170: default access to write, where the table is not read-only. -/
theorem defaultWrite_iff (o t : Nat) (ht : t ≤ 13) :
    defaultWrite o t = true ↔ o = originBridge ∨ o = originMaintenance ∨ (o = originContent ∧ t ∈ [7, 8, 9, 10]) := by
  unfold defaultWrite
  split_ifs with h0 h1
  · rw [decide_eq_true_iff]
    exact ⟨fun _ => by tauto, fun _ => Nat.lt_succ_of_le ht⟩
  · simp [h1, tblProgramme, tblCabins, tblNotices, tblTexts, originContent, originBridge, originMaintenance, or_assoc]
  · simp only [not_or] at h0
    simp [h0, h1]

/-- R170 to R172: the access check of a WRITE or a CLEAR. -/
theorem State.mayWrite_iff (s : State) (o t i : Nat) (hi : i < tableSize t) : s.mayWrite o t i = true ↔ s.WriteAccess o t i := by
  have hr := s.regionFor_cases t i fun q => (match q with
    | some r => r.allows o r.writeContent r.writeMaintenance r.writeBridge
    | none => defaultWrite o t) = true
  have h13 : t = 13 → s.regions.toList.getD i Region.reset = s.region i := by
    rintro rfl
    have h8 : i < 8 := hi
    simp [State.region, Fin.ofNat, Nat.mod_eq_of_lt h8, List.getD_eq_getElem?_getD, h8]
  have hb : (!s.writeBarred o t i) = true ↔
      o ≠ originController ∧ t ≤ 13 ∧ (t = 11 → 16 ≤ i) ∧ (t = 13 → (s.region i).lock = false) := by
    have hc : decide (tblClosures ≤ t) = !decide (t ≤ 13) := by
      change decide (14 ≤ t) = _
      by_cases h : t ≤ 13
      · simp only [h, decide_true, Bool.not_true, decide_eq_false_iff_not]
        omega
      · simp only [h, decide_false, Bool.not_false, decide_eq_true_iff]
        omega
    unfold State.writeBarred
    rw [hc]
    by_cases h : t = 13
    · rw [h13 h]
      simp [tblTemplates, tblRegions, h]
    · simp [tblTemplates, tblRegions, Config.fixedTemplateCount, h, and_assoc, imp_iff_not_or]
  refine (Bool.and_eq_true _ _).to_iff.trans ((and_congr hb hr).trans ?_)
  unfold State.WriteAccess
  constructor
  · rintro ⟨⟨_, ht, h1, h2⟩, h⟩
    exact ⟨ht, h1, h2, by simpa [defaultWrite_iff o t ht, Region.allows_iff] using h⟩
  · rintro ⟨ht, h1, h2, h⟩
    refine ⟨⟨?_, ht, h1, h2⟩, by simpa [defaultWrite_iff o t ht, Region.allows_iff] using h⟩
    rintro rfl
    simp [originController, originBridge, originMaintenance, originContent, Region.Lets] at h

/-- R174: the phase check of a WRITE, but for the fields of CABINS that it gates. -/
theorem State.mayChange_iff (s : State) (a : Arrival) (t i : Nat) (hi : i < tableSize t) :
    (s.mayWrite a.origin t i && s.phasePassesWrite a.origin t []) = true ↔ s.MayChange a t i := by
  rw [Bool.and_eq_true, s.mayWrite_iff a.origin t i hi]
  refine and_congr_right fun _ => ?_
  cases h : s.ship.phase <;>
    simp [State.phasePassesWrite, Phase.emergency, gatedTable, supplies, h, tblNodes, tblSegments, tblDestinations, tblDisplays,
      tblStrings, tblTemplates, tblSelection] <;> tauto

/-- R174: the phase check of a CLEAR. -/
theorem State.mayClear_iff (s : State) (a : Arrival) (t i : Nat) (hi : i < tableSize t) :
    (s.mayWrite a.origin t i && s.phasePassesClear a.origin t) = true ↔ s.MayClear a t i := by
  rw [Bool.and_eq_true, s.mayWrite_iff a.origin t i hi]
  refine and_congr_right fun _ => ?_
  cases h : s.ship.phase <;>
    simp [State.phasePassesClear, Phase.emergency, gatedTable, h, tblNodes, tblSegments, tblDestinations, tblDisplays,
      tblStrings, tblTemplates, tblSelection, tblCabins] <;> tauto

end Sys2Proof.Machine
end

