-- ==== Sys2Proof/Laws/State.lean ====
section
/-! SUPPORT. What each plain update of State leaves alone: one lemma per field, and what it sets. -/

namespace Sys2Proof.Machine

/-! ### setStr -/

@[simp] theorem setStr_pending (s : State) (k : StringNo) (c : StringCtl) : (s.setStr k c).pending = s.pending := rfl
@[simp] theorem setStr_now (s : State) (k : StringNo) (c : StringCtl) : (s.setStr k c).now = s.now := rfl
@[simp] theorem setStr_straps (s : State) (k : StringNo) (c : StringCtl) : (s.setStr k c).straps = s.straps := rfl
@[simp] theorem setStr_ship (s : State) (k : StringNo) (c : StringCtl) : (s.setStr k c).ship = s.ship := rfl
@[simp] theorem setStr_node (s : State) (k : StringNo) (c : StringCtl) : (s.setStr k c).node = s.node := rfl
@[simp] theorem setStr_displays (s : State) (k : StringNo) (c : StringCtl) : (s.setStr k c).displays = s.displays := rfl
@[simp] theorem setStr_nodes (s : State) (k : StringNo) (c : StringCtl) : (s.setStr k c).nodes = s.nodes := rfl
@[simp] theorem setStr_segments (s : State) (k : StringNo) (c : StringCtl) : (s.setStr k c).segments = s.segments := rfl
@[simp] theorem setStr_dests (s : State) (k : StringNo) (c : StringCtl) : (s.setStr k c).dests = s.dests := rfl
@[simp] theorem setStr_lists (s : State) (k : StringNo) (c : StringCtl) : (s.setStr k c).lists = s.lists := rfl
@[simp] theorem setStr_programme (s : State) (k : StringNo) (c : StringCtl) : (s.setStr k c).programme = s.programme := rfl
@[simp] theorem setStr_lastEvaluation (s : State) (k : StringNo) (c : StringCtl) : (s.setStr k c).lastEvaluation = s.lastEvaluation := rfl
@[simp] theorem setStr_cabins (s : State) (k : StringNo) (c : StringCtl) : (s.setStr k c).cabins = s.cabins := rfl
@[simp] theorem setStr_lossReported (s : State) (k : StringNo) (c : StringCtl) : (s.setStr k c).lossReported = s.lossReported := rfl
@[simp] theorem setStr_notices (s : State) (k : StringNo) (c : StringCtl) : (s.setStr k c).notices = s.notices := rfl
@[simp] theorem setStr_templates (s : State) (k : StringNo) (c : StringCtl) : (s.setStr k c).templates = s.templates := rfl
@[simp] theorem setStr_selection (s : State) (k : StringNo) (c : StringCtl) : (s.setStr k c).selection = s.selection := rfl
@[simp] theorem setStr_texts (s : State) (k : StringNo) (c : StringCtl) : (s.setStr k c).texts = s.texts := rfl
@[simp] theorem setStr_regions (s : State) (k : StringNo) (c : StringCtl) : (s.setStr k c).regions = s.regions := rfl
@[simp] theorem setStr_quietCopy (s : State) (k : StringNo) (c : StringCtl) : (s.setStr k c).quietCopy = s.quietCopy := rfl
@[simp] theorem setStr_fore (s : State) (k : StringNo) (c : StringCtl) : (s.setStr k c).fore = s.fore := rfl
@[simp] theorem setStr_aft (s : State) (k : StringNo) (c : StringCtl) : (s.setStr k c).aft = s.aft := rfl
@[simp] theorem setStr_address (s : State) (k : StringNo) (c : StringCtl) : (s.setStr k c).address = s.address := rfl
@[simp] theorem setStr_watermark (s : State) (k : StringNo) (c : StringCtl) : (s.setStr k c).watermark = s.watermark := rfl
@[simp] theorem setStr_replies (s : State) (k : StringNo) (c : StringCtl) : (s.setStr k c).replies = s.replies := rfl
@[simp] theorem setStr_reports (s : State) (k : StringNo) (c : StringCtl) : (s.setStr k c).reports = s.reports := rfl
@[simp] theorem setStr_reportArrival (s : State) (k : StringNo) (c : StringCtl) : (s.setStr k c).reportArrival = s.reportArrival := rfl
@[simp] theorem setStr_reportSeq (s : State) (k : StringNo) (c : StringCtl) : (s.setStr k c).reportSeq = s.reportSeq := rfl
@[simp] theorem setStr_draws (s : State) (k : StringNo) (c : StringCtl) : (s.setStr k c).draws = s.draws := rfl

/-! ### setPort -/

@[simp] theorem setPort_pending (s : State) (p : Port) (l : LinkPort) : (s.setPort p l).pending = s.pending := by cases p <;> rfl
@[simp] theorem setPort_now (s : State) (p : Port) (l : LinkPort) : (s.setPort p l).now = s.now := by cases p <;> rfl
@[simp] theorem setPort_straps (s : State) (p : Port) (l : LinkPort) : (s.setPort p l).straps = s.straps := by cases p <;> rfl
@[simp] theorem setPort_ship (s : State) (p : Port) (l : LinkPort) : (s.setPort p l).ship = s.ship := by cases p <;> rfl
@[simp] theorem setPort_node (s : State) (p : Port) (l : LinkPort) : (s.setPort p l).node = s.node := by cases p <;> rfl
@[simp] theorem setPort_displays (s : State) (p : Port) (l : LinkPort) : (s.setPort p l).displays = s.displays := by cases p <;> rfl
@[simp] theorem setPort_nodes (s : State) (p : Port) (l : LinkPort) : (s.setPort p l).nodes = s.nodes := by cases p <;> rfl
@[simp] theorem setPort_segments (s : State) (p : Port) (l : LinkPort) : (s.setPort p l).segments = s.segments := by cases p <;> rfl
@[simp] theorem setPort_dests (s : State) (p : Port) (l : LinkPort) : (s.setPort p l).dests = s.dests := by cases p <;> rfl
@[simp] theorem setPort_lists (s : State) (p : Port) (l : LinkPort) : (s.setPort p l).lists = s.lists := by cases p <;> rfl
@[simp] theorem setPort_programme (s : State) (p : Port) (l : LinkPort) : (s.setPort p l).programme = s.programme := by cases p <;> rfl
@[simp] theorem setPort_lastEvaluation (s : State) (p : Port) (l : LinkPort) : (s.setPort p l).lastEvaluation = s.lastEvaluation := by cases p <;> rfl
@[simp] theorem setPort_cabins (s : State) (p : Port) (l : LinkPort) : (s.setPort p l).cabins = s.cabins := by cases p <;> rfl
@[simp] theorem setPort_lossReported (s : State) (p : Port) (l : LinkPort) : (s.setPort p l).lossReported = s.lossReported := by cases p <;> rfl
@[simp] theorem setPort_notices (s : State) (p : Port) (l : LinkPort) : (s.setPort p l).notices = s.notices := by cases p <;> rfl
@[simp] theorem setPort_templates (s : State) (p : Port) (l : LinkPort) : (s.setPort p l).templates = s.templates := by cases p <;> rfl
@[simp] theorem setPort_selection (s : State) (p : Port) (l : LinkPort) : (s.setPort p l).selection = s.selection := by cases p <;> rfl
@[simp] theorem setPort_texts (s : State) (p : Port) (l : LinkPort) : (s.setPort p l).texts = s.texts := by cases p <;> rfl
@[simp] theorem setPort_regions (s : State) (p : Port) (l : LinkPort) : (s.setPort p l).regions = s.regions := by cases p <;> rfl
@[simp] theorem setPort_strings (s : State) (p : Port) (l : LinkPort) : (s.setPort p l).strings = s.strings := by cases p <;> rfl
@[simp] theorem setPort_quietCopy (s : State) (p : Port) (l : LinkPort) : (s.setPort p l).quietCopy = s.quietCopy := by cases p <;> rfl
@[simp] theorem setPort_address (s : State) (p : Port) (l : LinkPort) : (s.setPort p l).address = s.address := by cases p <;> rfl
@[simp] theorem setPort_watermark (s : State) (p : Port) (l : LinkPort) : (s.setPort p l).watermark = s.watermark := by cases p <;> rfl
@[simp] theorem setPort_replies (s : State) (p : Port) (l : LinkPort) : (s.setPort p l).replies = s.replies := by cases p <;> rfl
@[simp] theorem setPort_reports (s : State) (p : Port) (l : LinkPort) : (s.setPort p l).reports = s.reports := by cases p <;> rfl
@[simp] theorem setPort_reportArrival (s : State) (p : Port) (l : LinkPort) : (s.setPort p l).reportArrival = s.reportArrival := by cases p <;> rfl
@[simp] theorem setPort_reportSeq (s : State) (p : Port) (l : LinkPort) : (s.setPort p l).reportSeq = s.reportSeq := by cases p <;> rfl
@[simp] theorem setPort_draws (s : State) (p : Port) (l : LinkPort) : (s.setPort p l).draws = s.draws := by cases p <;> rfl

/-! ### setDisplay -/

@[simp] theorem setDisplay_pending (s : State) (d : Nat) (x : Display) : (s.setDisplay d x).pending = s.pending := rfl
@[simp] theorem setDisplay_now (s : State) (d : Nat) (x : Display) : (s.setDisplay d x).now = s.now := rfl
@[simp] theorem setDisplay_straps (s : State) (d : Nat) (x : Display) : (s.setDisplay d x).straps = s.straps := rfl
@[simp] theorem setDisplay_ship (s : State) (d : Nat) (x : Display) : (s.setDisplay d x).ship = s.ship := rfl
@[simp] theorem setDisplay_node (s : State) (d : Nat) (x : Display) : (s.setDisplay d x).node = s.node := rfl
@[simp] theorem setDisplay_nodes (s : State) (d : Nat) (x : Display) : (s.setDisplay d x).nodes = s.nodes := rfl
@[simp] theorem setDisplay_segments (s : State) (d : Nat) (x : Display) : (s.setDisplay d x).segments = s.segments := rfl
@[simp] theorem setDisplay_dests (s : State) (d : Nat) (x : Display) : (s.setDisplay d x).dests = s.dests := rfl
@[simp] theorem setDisplay_lists (s : State) (d : Nat) (x : Display) : (s.setDisplay d x).lists = s.lists := rfl
@[simp] theorem setDisplay_programme (s : State) (d : Nat) (x : Display) : (s.setDisplay d x).programme = s.programme := rfl
@[simp] theorem setDisplay_lastEvaluation (s : State) (d : Nat) (x : Display) : (s.setDisplay d x).lastEvaluation = s.lastEvaluation := rfl
@[simp] theorem setDisplay_cabins (s : State) (d : Nat) (x : Display) : (s.setDisplay d x).cabins = s.cabins := rfl
@[simp] theorem setDisplay_lossReported (s : State) (d : Nat) (x : Display) : (s.setDisplay d x).lossReported = s.lossReported := rfl
@[simp] theorem setDisplay_notices (s : State) (d : Nat) (x : Display) : (s.setDisplay d x).notices = s.notices := rfl
@[simp] theorem setDisplay_templates (s : State) (d : Nat) (x : Display) : (s.setDisplay d x).templates = s.templates := rfl
@[simp] theorem setDisplay_selection (s : State) (d : Nat) (x : Display) : (s.setDisplay d x).selection = s.selection := rfl
@[simp] theorem setDisplay_texts (s : State) (d : Nat) (x : Display) : (s.setDisplay d x).texts = s.texts := rfl
@[simp] theorem setDisplay_regions (s : State) (d : Nat) (x : Display) : (s.setDisplay d x).regions = s.regions := rfl
@[simp] theorem setDisplay_strings (s : State) (d : Nat) (x : Display) : (s.setDisplay d x).strings = s.strings := rfl
@[simp] theorem setDisplay_quietCopy (s : State) (d : Nat) (x : Display) : (s.setDisplay d x).quietCopy = s.quietCopy := rfl
@[simp] theorem setDisplay_fore (s : State) (d : Nat) (x : Display) : (s.setDisplay d x).fore = s.fore := rfl
@[simp] theorem setDisplay_aft (s : State) (d : Nat) (x : Display) : (s.setDisplay d x).aft = s.aft := rfl
@[simp] theorem setDisplay_address (s : State) (d : Nat) (x : Display) : (s.setDisplay d x).address = s.address := rfl
@[simp] theorem setDisplay_watermark (s : State) (d : Nat) (x : Display) : (s.setDisplay d x).watermark = s.watermark := rfl
@[simp] theorem setDisplay_replies (s : State) (d : Nat) (x : Display) : (s.setDisplay d x).replies = s.replies := rfl
@[simp] theorem setDisplay_reports (s : State) (d : Nat) (x : Display) : (s.setDisplay d x).reports = s.reports := rfl
@[simp] theorem setDisplay_reportArrival (s : State) (d : Nat) (x : Display) : (s.setDisplay d x).reportArrival = s.reportArrival := rfl
@[simp] theorem setDisplay_reportSeq (s : State) (d : Nat) (x : Display) : (s.setDisplay d x).reportSeq = s.reportSeq := rfl
@[simp] theorem setDisplay_draws (s : State) (d : Nat) (x : Display) : (s.setDisplay d x).draws = s.draws := rfl

/-! ### onRuntime -/

@[simp] theorem onRuntime_pending (s : State) (d : Nat) (f : DisplayRuntime → DisplayRuntime) : (s.onRuntime d f).pending = s.pending := rfl
@[simp] theorem onRuntime_now (s : State) (d : Nat) (f : DisplayRuntime → DisplayRuntime) : (s.onRuntime d f).now = s.now := rfl
@[simp] theorem onRuntime_straps (s : State) (d : Nat) (f : DisplayRuntime → DisplayRuntime) : (s.onRuntime d f).straps = s.straps := rfl
@[simp] theorem onRuntime_ship (s : State) (d : Nat) (f : DisplayRuntime → DisplayRuntime) : (s.onRuntime d f).ship = s.ship := rfl
@[simp] theorem onRuntime_node (s : State) (d : Nat) (f : DisplayRuntime → DisplayRuntime) : (s.onRuntime d f).node = s.node := rfl
@[simp] theorem onRuntime_nodes (s : State) (d : Nat) (f : DisplayRuntime → DisplayRuntime) : (s.onRuntime d f).nodes = s.nodes := rfl
@[simp] theorem onRuntime_segments (s : State) (d : Nat) (f : DisplayRuntime → DisplayRuntime) : (s.onRuntime d f).segments = s.segments := rfl
@[simp] theorem onRuntime_dests (s : State) (d : Nat) (f : DisplayRuntime → DisplayRuntime) : (s.onRuntime d f).dests = s.dests := rfl
@[simp] theorem onRuntime_lists (s : State) (d : Nat) (f : DisplayRuntime → DisplayRuntime) : (s.onRuntime d f).lists = s.lists := rfl
@[simp] theorem onRuntime_programme (s : State) (d : Nat) (f : DisplayRuntime → DisplayRuntime) : (s.onRuntime d f).programme = s.programme := rfl
@[simp] theorem onRuntime_lastEvaluation (s : State) (d : Nat) (f : DisplayRuntime → DisplayRuntime) : (s.onRuntime d f).lastEvaluation = s.lastEvaluation := rfl
@[simp] theorem onRuntime_cabins (s : State) (d : Nat) (f : DisplayRuntime → DisplayRuntime) : (s.onRuntime d f).cabins = s.cabins := rfl
@[simp] theorem onRuntime_lossReported (s : State) (d : Nat) (f : DisplayRuntime → DisplayRuntime) : (s.onRuntime d f).lossReported = s.lossReported := rfl
@[simp] theorem onRuntime_notices (s : State) (d : Nat) (f : DisplayRuntime → DisplayRuntime) : (s.onRuntime d f).notices = s.notices := rfl
@[simp] theorem onRuntime_templates (s : State) (d : Nat) (f : DisplayRuntime → DisplayRuntime) : (s.onRuntime d f).templates = s.templates := rfl
@[simp] theorem onRuntime_selection (s : State) (d : Nat) (f : DisplayRuntime → DisplayRuntime) : (s.onRuntime d f).selection = s.selection := rfl
@[simp] theorem onRuntime_texts (s : State) (d : Nat) (f : DisplayRuntime → DisplayRuntime) : (s.onRuntime d f).texts = s.texts := rfl
@[simp] theorem onRuntime_regions (s : State) (d : Nat) (f : DisplayRuntime → DisplayRuntime) : (s.onRuntime d f).regions = s.regions := rfl
@[simp] theorem onRuntime_strings (s : State) (d : Nat) (f : DisplayRuntime → DisplayRuntime) : (s.onRuntime d f).strings = s.strings := rfl
@[simp] theorem onRuntime_quietCopy (s : State) (d : Nat) (f : DisplayRuntime → DisplayRuntime) : (s.onRuntime d f).quietCopy = s.quietCopy := rfl
@[simp] theorem onRuntime_fore (s : State) (d : Nat) (f : DisplayRuntime → DisplayRuntime) : (s.onRuntime d f).fore = s.fore := rfl
@[simp] theorem onRuntime_aft (s : State) (d : Nat) (f : DisplayRuntime → DisplayRuntime) : (s.onRuntime d f).aft = s.aft := rfl
@[simp] theorem onRuntime_address (s : State) (d : Nat) (f : DisplayRuntime → DisplayRuntime) : (s.onRuntime d f).address = s.address := rfl
@[simp] theorem onRuntime_watermark (s : State) (d : Nat) (f : DisplayRuntime → DisplayRuntime) : (s.onRuntime d f).watermark = s.watermark := rfl
@[simp] theorem onRuntime_replies (s : State) (d : Nat) (f : DisplayRuntime → DisplayRuntime) : (s.onRuntime d f).replies = s.replies := rfl
@[simp] theorem onRuntime_reports (s : State) (d : Nat) (f : DisplayRuntime → DisplayRuntime) : (s.onRuntime d f).reports = s.reports := rfl
@[simp] theorem onRuntime_reportArrival (s : State) (d : Nat) (f : DisplayRuntime → DisplayRuntime) : (s.onRuntime d f).reportArrival = s.reportArrival := rfl
@[simp] theorem onRuntime_reportSeq (s : State) (d : Nat) (f : DisplayRuntime → DisplayRuntime) : (s.onRuntime d f).reportSeq = s.reportSeq := rfl
@[simp] theorem onRuntime_draws (s : State) (d : Nat) (f : DisplayRuntime → DisplayRuntime) : (s.onRuntime d f).draws = s.draws := rfl

/-! ### reach -/

@[simp] theorem reach_pending (s : State) (t : Nat) : (s.reach t).pending = s.pending := rfl
@[simp] theorem reach_straps (s : State) (t : Nat) : (s.reach t).straps = s.straps := rfl
@[simp] theorem reach_ship (s : State) (t : Nat) : (s.reach t).ship = s.ship := rfl
@[simp] theorem reach_node (s : State) (t : Nat) : (s.reach t).node = s.node := rfl
@[simp] theorem reach_displays (s : State) (t : Nat) : (s.reach t).displays = s.displays := rfl
@[simp] theorem reach_nodes (s : State) (t : Nat) : (s.reach t).nodes = s.nodes := rfl
@[simp] theorem reach_segments (s : State) (t : Nat) : (s.reach t).segments = s.segments := rfl
@[simp] theorem reach_dests (s : State) (t : Nat) : (s.reach t).dests = s.dests := rfl
@[simp] theorem reach_lists (s : State) (t : Nat) : (s.reach t).lists = s.lists := rfl
@[simp] theorem reach_programme (s : State) (t : Nat) : (s.reach t).programme = s.programme := rfl
@[simp] theorem reach_lastEvaluation (s : State) (t : Nat) : (s.reach t).lastEvaluation = s.lastEvaluation := rfl
@[simp] theorem reach_cabins (s : State) (t : Nat) : (s.reach t).cabins = s.cabins := rfl
@[simp] theorem reach_lossReported (s : State) (t : Nat) : (s.reach t).lossReported = s.lossReported := rfl
@[simp] theorem reach_notices (s : State) (t : Nat) : (s.reach t).notices = s.notices := rfl
@[simp] theorem reach_templates (s : State) (t : Nat) : (s.reach t).templates = s.templates := rfl
@[simp] theorem reach_selection (s : State) (t : Nat) : (s.reach t).selection = s.selection := rfl
@[simp] theorem reach_texts (s : State) (t : Nat) : (s.reach t).texts = s.texts := rfl
@[simp] theorem reach_regions (s : State) (t : Nat) : (s.reach t).regions = s.regions := rfl
@[simp] theorem reach_strings (s : State) (t : Nat) : (s.reach t).strings = s.strings := rfl
@[simp] theorem reach_quietCopy (s : State) (t : Nat) : (s.reach t).quietCopy = s.quietCopy := rfl
@[simp] theorem reach_fore (s : State) (t : Nat) : (s.reach t).fore = s.fore := rfl
@[simp] theorem reach_aft (s : State) (t : Nat) : (s.reach t).aft = s.aft := rfl
@[simp] theorem reach_address (s : State) (t : Nat) : (s.reach t).address = s.address := rfl
@[simp] theorem reach_watermark (s : State) (t : Nat) : (s.reach t).watermark = s.watermark := rfl
@[simp] theorem reach_replies (s : State) (t : Nat) : (s.reach t).replies = s.replies := rfl
@[simp] theorem reach_reports (s : State) (t : Nat) : (s.reach t).reports = s.reports := rfl
@[simp] theorem reach_reportArrival (s : State) (t : Nat) : (s.reach t).reportArrival = s.reportArrival := rfl
@[simp] theorem reach_reportSeq (s : State) (t : Nat) : (s.reach t).reportSeq = s.reportSeq := rfl
@[simp] theorem reach_draws (s : State) (t : Nat) : (s.reach t).draws = s.draws := rfl

/-! ### onShip -/

@[simp] theorem onShip_pending (s : State) (f : Ship → Ship) : (s.onShip f).pending = s.pending := rfl
@[simp] theorem onShip_now (s : State) (f : Ship → Ship) : (s.onShip f).now = s.now := rfl
@[simp] theorem onShip_straps (s : State) (f : Ship → Ship) : (s.onShip f).straps = s.straps := rfl
@[simp] theorem onShip_node (s : State) (f : Ship → Ship) : (s.onShip f).node = s.node := rfl
@[simp] theorem onShip_displays (s : State) (f : Ship → Ship) : (s.onShip f).displays = s.displays := rfl
@[simp] theorem onShip_nodes (s : State) (f : Ship → Ship) : (s.onShip f).nodes = s.nodes := rfl
@[simp] theorem onShip_segments (s : State) (f : Ship → Ship) : (s.onShip f).segments = s.segments := rfl
@[simp] theorem onShip_dests (s : State) (f : Ship → Ship) : (s.onShip f).dests = s.dests := rfl
@[simp] theorem onShip_lists (s : State) (f : Ship → Ship) : (s.onShip f).lists = s.lists := rfl
@[simp] theorem onShip_programme (s : State) (f : Ship → Ship) : (s.onShip f).programme = s.programme := rfl
@[simp] theorem onShip_lastEvaluation (s : State) (f : Ship → Ship) : (s.onShip f).lastEvaluation = s.lastEvaluation := rfl
@[simp] theorem onShip_cabins (s : State) (f : Ship → Ship) : (s.onShip f).cabins = s.cabins := rfl
@[simp] theorem onShip_lossReported (s : State) (f : Ship → Ship) : (s.onShip f).lossReported = s.lossReported := rfl
@[simp] theorem onShip_notices (s : State) (f : Ship → Ship) : (s.onShip f).notices = s.notices := rfl
@[simp] theorem onShip_templates (s : State) (f : Ship → Ship) : (s.onShip f).templates = s.templates := rfl
@[simp] theorem onShip_selection (s : State) (f : Ship → Ship) : (s.onShip f).selection = s.selection := rfl
@[simp] theorem onShip_texts (s : State) (f : Ship → Ship) : (s.onShip f).texts = s.texts := rfl
@[simp] theorem onShip_regions (s : State) (f : Ship → Ship) : (s.onShip f).regions = s.regions := rfl
@[simp] theorem onShip_strings (s : State) (f : Ship → Ship) : (s.onShip f).strings = s.strings := rfl
@[simp] theorem onShip_quietCopy (s : State) (f : Ship → Ship) : (s.onShip f).quietCopy = s.quietCopy := rfl
@[simp] theorem onShip_fore (s : State) (f : Ship → Ship) : (s.onShip f).fore = s.fore := rfl
@[simp] theorem onShip_aft (s : State) (f : Ship → Ship) : (s.onShip f).aft = s.aft := rfl
@[simp] theorem onShip_address (s : State) (f : Ship → Ship) : (s.onShip f).address = s.address := rfl
@[simp] theorem onShip_watermark (s : State) (f : Ship → Ship) : (s.onShip f).watermark = s.watermark := rfl
@[simp] theorem onShip_replies (s : State) (f : Ship → Ship) : (s.onShip f).replies = s.replies := rfl
@[simp] theorem onShip_reports (s : State) (f : Ship → Ship) : (s.onShip f).reports = s.reports := rfl
@[simp] theorem onShip_reportArrival (s : State) (f : Ship → Ship) : (s.onShip f).reportArrival = s.reportArrival := rfl
@[simp] theorem onShip_reportSeq (s : State) (f : Ship → Ship) : (s.onShip f).reportSeq = s.reportSeq := rfl
@[simp] theorem onShip_draws (s : State) (f : Ship → Ship) : (s.onShip f).draws = s.draws := rfl

/-! ### setDest -/

@[simp] theorem setDest_pending (s : State) (d : Nat) (t : Dest) : (s.setDest d t).pending = s.pending := rfl
@[simp] theorem setDest_now (s : State) (d : Nat) (t : Dest) : (s.setDest d t).now = s.now := rfl
@[simp] theorem setDest_straps (s : State) (d : Nat) (t : Dest) : (s.setDest d t).straps = s.straps := rfl
@[simp] theorem setDest_ship (s : State) (d : Nat) (t : Dest) : (s.setDest d t).ship = s.ship := rfl
@[simp] theorem setDest_node (s : State) (d : Nat) (t : Dest) : (s.setDest d t).node = s.node := rfl
@[simp] theorem setDest_displays (s : State) (d : Nat) (t : Dest) : (s.setDest d t).displays = s.displays := rfl
@[simp] theorem setDest_nodes (s : State) (d : Nat) (t : Dest) : (s.setDest d t).nodes = s.nodes := rfl
@[simp] theorem setDest_segments (s : State) (d : Nat) (t : Dest) : (s.setDest d t).segments = s.segments := rfl
@[simp] theorem setDest_lists (s : State) (d : Nat) (t : Dest) : (s.setDest d t).lists = s.lists := rfl
@[simp] theorem setDest_programme (s : State) (d : Nat) (t : Dest) : (s.setDest d t).programme = s.programme := rfl
@[simp] theorem setDest_lastEvaluation (s : State) (d : Nat) (t : Dest) : (s.setDest d t).lastEvaluation = s.lastEvaluation := rfl
@[simp] theorem setDest_cabins (s : State) (d : Nat) (t : Dest) : (s.setDest d t).cabins = s.cabins := rfl
@[simp] theorem setDest_lossReported (s : State) (d : Nat) (t : Dest) : (s.setDest d t).lossReported = s.lossReported := rfl
@[simp] theorem setDest_notices (s : State) (d : Nat) (t : Dest) : (s.setDest d t).notices = s.notices := rfl
@[simp] theorem setDest_templates (s : State) (d : Nat) (t : Dest) : (s.setDest d t).templates = s.templates := rfl
@[simp] theorem setDest_selection (s : State) (d : Nat) (t : Dest) : (s.setDest d t).selection = s.selection := rfl
@[simp] theorem setDest_texts (s : State) (d : Nat) (t : Dest) : (s.setDest d t).texts = s.texts := rfl
@[simp] theorem setDest_regions (s : State) (d : Nat) (t : Dest) : (s.setDest d t).regions = s.regions := rfl
@[simp] theorem setDest_strings (s : State) (d : Nat) (t : Dest) : (s.setDest d t).strings = s.strings := rfl
@[simp] theorem setDest_quietCopy (s : State) (d : Nat) (t : Dest) : (s.setDest d t).quietCopy = s.quietCopy := rfl
@[simp] theorem setDest_fore (s : State) (d : Nat) (t : Dest) : (s.setDest d t).fore = s.fore := rfl
@[simp] theorem setDest_aft (s : State) (d : Nat) (t : Dest) : (s.setDest d t).aft = s.aft := rfl
@[simp] theorem setDest_address (s : State) (d : Nat) (t : Dest) : (s.setDest d t).address = s.address := rfl
@[simp] theorem setDest_watermark (s : State) (d : Nat) (t : Dest) : (s.setDest d t).watermark = s.watermark := rfl
@[simp] theorem setDest_replies (s : State) (d : Nat) (t : Dest) : (s.setDest d t).replies = s.replies := rfl
@[simp] theorem setDest_reports (s : State) (d : Nat) (t : Dest) : (s.setDest d t).reports = s.reports := rfl
@[simp] theorem setDest_reportArrival (s : State) (d : Nat) (t : Dest) : (s.setDest d t).reportArrival = s.reportArrival := rfl
@[simp] theorem setDest_reportSeq (s : State) (d : Nat) (t : Dest) : (s.setDest d t).reportSeq = s.reportSeq := rfl
@[simp] theorem setDest_draws (s : State) (d : Nat) (t : Dest) : (s.setDest d t).draws = s.draws := rfl

/-! ### setCabin -/

@[simp] theorem setCabin_pending (s : State) (i : Nat) (c : Cabin) : (s.setCabin i c).pending = s.pending := rfl
@[simp] theorem setCabin_now (s : State) (i : Nat) (c : Cabin) : (s.setCabin i c).now = s.now := rfl
@[simp] theorem setCabin_straps (s : State) (i : Nat) (c : Cabin) : (s.setCabin i c).straps = s.straps := rfl
@[simp] theorem setCabin_ship (s : State) (i : Nat) (c : Cabin) : (s.setCabin i c).ship = s.ship := rfl
@[simp] theorem setCabin_node (s : State) (i : Nat) (c : Cabin) : (s.setCabin i c).node = s.node := rfl
@[simp] theorem setCabin_displays (s : State) (i : Nat) (c : Cabin) : (s.setCabin i c).displays = s.displays := rfl
@[simp] theorem setCabin_nodes (s : State) (i : Nat) (c : Cabin) : (s.setCabin i c).nodes = s.nodes := rfl
@[simp] theorem setCabin_segments (s : State) (i : Nat) (c : Cabin) : (s.setCabin i c).segments = s.segments := rfl
@[simp] theorem setCabin_dests (s : State) (i : Nat) (c : Cabin) : (s.setCabin i c).dests = s.dests := rfl
@[simp] theorem setCabin_lists (s : State) (i : Nat) (c : Cabin) : (s.setCabin i c).lists = s.lists := rfl
@[simp] theorem setCabin_programme (s : State) (i : Nat) (c : Cabin) : (s.setCabin i c).programme = s.programme := rfl
@[simp] theorem setCabin_lastEvaluation (s : State) (i : Nat) (c : Cabin) : (s.setCabin i c).lastEvaluation = s.lastEvaluation := rfl
@[simp] theorem setCabin_lossReported (s : State) (i : Nat) (c : Cabin) : (s.setCabin i c).lossReported = s.lossReported := rfl
@[simp] theorem setCabin_notices (s : State) (i : Nat) (c : Cabin) : (s.setCabin i c).notices = s.notices := rfl
@[simp] theorem setCabin_templates (s : State) (i : Nat) (c : Cabin) : (s.setCabin i c).templates = s.templates := rfl
@[simp] theorem setCabin_selection (s : State) (i : Nat) (c : Cabin) : (s.setCabin i c).selection = s.selection := rfl
@[simp] theorem setCabin_texts (s : State) (i : Nat) (c : Cabin) : (s.setCabin i c).texts = s.texts := rfl
@[simp] theorem setCabin_regions (s : State) (i : Nat) (c : Cabin) : (s.setCabin i c).regions = s.regions := rfl
@[simp] theorem setCabin_strings (s : State) (i : Nat) (c : Cabin) : (s.setCabin i c).strings = s.strings := rfl
@[simp] theorem setCabin_quietCopy (s : State) (i : Nat) (c : Cabin) : (s.setCabin i c).quietCopy = s.quietCopy := rfl
@[simp] theorem setCabin_fore (s : State) (i : Nat) (c : Cabin) : (s.setCabin i c).fore = s.fore := rfl
@[simp] theorem setCabin_aft (s : State) (i : Nat) (c : Cabin) : (s.setCabin i c).aft = s.aft := rfl
@[simp] theorem setCabin_address (s : State) (i : Nat) (c : Cabin) : (s.setCabin i c).address = s.address := rfl
@[simp] theorem setCabin_watermark (s : State) (i : Nat) (c : Cabin) : (s.setCabin i c).watermark = s.watermark := rfl
@[simp] theorem setCabin_replies (s : State) (i : Nat) (c : Cabin) : (s.setCabin i c).replies = s.replies := rfl
@[simp] theorem setCabin_reports (s : State) (i : Nat) (c : Cabin) : (s.setCabin i c).reports = s.reports := rfl
@[simp] theorem setCabin_reportArrival (s : State) (i : Nat) (c : Cabin) : (s.setCabin i c).reportArrival = s.reportArrival := rfl
@[simp] theorem setCabin_reportSeq (s : State) (i : Nat) (c : Cabin) : (s.setCabin i c).reportSeq = s.reportSeq := rfl
@[simp] theorem setCabin_draws (s : State) (i : Nat) (c : Cabin) : (s.setCabin i c).draws = s.draws := rfl

/-! ### setRegion -/

@[simp] theorem setRegion_pending (s : State) (i : Nat) (r : Region) : (s.setRegion i r).pending = s.pending := rfl
@[simp] theorem setRegion_now (s : State) (i : Nat) (r : Region) : (s.setRegion i r).now = s.now := rfl
@[simp] theorem setRegion_straps (s : State) (i : Nat) (r : Region) : (s.setRegion i r).straps = s.straps := rfl
@[simp] theorem setRegion_ship (s : State) (i : Nat) (r : Region) : (s.setRegion i r).ship = s.ship := rfl
@[simp] theorem setRegion_node (s : State) (i : Nat) (r : Region) : (s.setRegion i r).node = s.node := rfl
@[simp] theorem setRegion_displays (s : State) (i : Nat) (r : Region) : (s.setRegion i r).displays = s.displays := rfl
@[simp] theorem setRegion_nodes (s : State) (i : Nat) (r : Region) : (s.setRegion i r).nodes = s.nodes := rfl
@[simp] theorem setRegion_segments (s : State) (i : Nat) (r : Region) : (s.setRegion i r).segments = s.segments := rfl
@[simp] theorem setRegion_dests (s : State) (i : Nat) (r : Region) : (s.setRegion i r).dests = s.dests := rfl
@[simp] theorem setRegion_lists (s : State) (i : Nat) (r : Region) : (s.setRegion i r).lists = s.lists := rfl
@[simp] theorem setRegion_programme (s : State) (i : Nat) (r : Region) : (s.setRegion i r).programme = s.programme := rfl
@[simp] theorem setRegion_lastEvaluation (s : State) (i : Nat) (r : Region) : (s.setRegion i r).lastEvaluation = s.lastEvaluation := rfl
@[simp] theorem setRegion_cabins (s : State) (i : Nat) (r : Region) : (s.setRegion i r).cabins = s.cabins := rfl
@[simp] theorem setRegion_lossReported (s : State) (i : Nat) (r : Region) : (s.setRegion i r).lossReported = s.lossReported := rfl
@[simp] theorem setRegion_notices (s : State) (i : Nat) (r : Region) : (s.setRegion i r).notices = s.notices := rfl
@[simp] theorem setRegion_templates (s : State) (i : Nat) (r : Region) : (s.setRegion i r).templates = s.templates := rfl
@[simp] theorem setRegion_selection (s : State) (i : Nat) (r : Region) : (s.setRegion i r).selection = s.selection := rfl
@[simp] theorem setRegion_texts (s : State) (i : Nat) (r : Region) : (s.setRegion i r).texts = s.texts := rfl
@[simp] theorem setRegion_strings (s : State) (i : Nat) (r : Region) : (s.setRegion i r).strings = s.strings := rfl
@[simp] theorem setRegion_quietCopy (s : State) (i : Nat) (r : Region) : (s.setRegion i r).quietCopy = s.quietCopy := rfl
@[simp] theorem setRegion_fore (s : State) (i : Nat) (r : Region) : (s.setRegion i r).fore = s.fore := rfl
@[simp] theorem setRegion_aft (s : State) (i : Nat) (r : Region) : (s.setRegion i r).aft = s.aft := rfl
@[simp] theorem setRegion_address (s : State) (i : Nat) (r : Region) : (s.setRegion i r).address = s.address := rfl
@[simp] theorem setRegion_watermark (s : State) (i : Nat) (r : Region) : (s.setRegion i r).watermark = s.watermark := rfl
@[simp] theorem setRegion_replies (s : State) (i : Nat) (r : Region) : (s.setRegion i r).replies = s.replies := rfl
@[simp] theorem setRegion_reports (s : State) (i : Nat) (r : Region) : (s.setRegion i r).reports = s.reports := rfl
@[simp] theorem setRegion_reportArrival (s : State) (i : Nat) (r : Region) : (s.setRegion i r).reportArrival = s.reportArrival := rfl
@[simp] theorem setRegion_reportSeq (s : State) (i : Nat) (r : Region) : (s.setRegion i r).reportSeq = s.reportSeq := rfl
@[simp] theorem setRegion_draws (s : State) (i : Nat) (r : Region) : (s.setRegion i r).draws = s.draws := rfl

/-! ### setSelection -/

@[simp] theorem setSelection_pending (s : State) (i : Nat) (n : Option Nat) : (s.setSelection i n).pending = s.pending := rfl
@[simp] theorem setSelection_now (s : State) (i : Nat) (n : Option Nat) : (s.setSelection i n).now = s.now := rfl
@[simp] theorem setSelection_straps (s : State) (i : Nat) (n : Option Nat) : (s.setSelection i n).straps = s.straps := rfl
@[simp] theorem setSelection_ship (s : State) (i : Nat) (n : Option Nat) : (s.setSelection i n).ship = s.ship := rfl
@[simp] theorem setSelection_node (s : State) (i : Nat) (n : Option Nat) : (s.setSelection i n).node = s.node := rfl
@[simp] theorem setSelection_displays (s : State) (i : Nat) (n : Option Nat) : (s.setSelection i n).displays = s.displays := rfl
@[simp] theorem setSelection_nodes (s : State) (i : Nat) (n : Option Nat) : (s.setSelection i n).nodes = s.nodes := rfl
@[simp] theorem setSelection_segments (s : State) (i : Nat) (n : Option Nat) : (s.setSelection i n).segments = s.segments := rfl
@[simp] theorem setSelection_dests (s : State) (i : Nat) (n : Option Nat) : (s.setSelection i n).dests = s.dests := rfl
@[simp] theorem setSelection_lists (s : State) (i : Nat) (n : Option Nat) : (s.setSelection i n).lists = s.lists := rfl
@[simp] theorem setSelection_programme (s : State) (i : Nat) (n : Option Nat) : (s.setSelection i n).programme = s.programme := rfl
@[simp] theorem setSelection_lastEvaluation (s : State) (i : Nat) (n : Option Nat) : (s.setSelection i n).lastEvaluation = s.lastEvaluation := rfl
@[simp] theorem setSelection_cabins (s : State) (i : Nat) (n : Option Nat) : (s.setSelection i n).cabins = s.cabins := rfl
@[simp] theorem setSelection_lossReported (s : State) (i : Nat) (n : Option Nat) : (s.setSelection i n).lossReported = s.lossReported := rfl
@[simp] theorem setSelection_notices (s : State) (i : Nat) (n : Option Nat) : (s.setSelection i n).notices = s.notices := rfl
@[simp] theorem setSelection_templates (s : State) (i : Nat) (n : Option Nat) : (s.setSelection i n).templates = s.templates := rfl
@[simp] theorem setSelection_texts (s : State) (i : Nat) (n : Option Nat) : (s.setSelection i n).texts = s.texts := rfl
@[simp] theorem setSelection_regions (s : State) (i : Nat) (n : Option Nat) : (s.setSelection i n).regions = s.regions := rfl
@[simp] theorem setSelection_strings (s : State) (i : Nat) (n : Option Nat) : (s.setSelection i n).strings = s.strings := rfl
@[simp] theorem setSelection_quietCopy (s : State) (i : Nat) (n : Option Nat) : (s.setSelection i n).quietCopy = s.quietCopy := rfl
@[simp] theorem setSelection_fore (s : State) (i : Nat) (n : Option Nat) : (s.setSelection i n).fore = s.fore := rfl
@[simp] theorem setSelection_aft (s : State) (i : Nat) (n : Option Nat) : (s.setSelection i n).aft = s.aft := rfl
@[simp] theorem setSelection_address (s : State) (i : Nat) (n : Option Nat) : (s.setSelection i n).address = s.address := rfl
@[simp] theorem setSelection_watermark (s : State) (i : Nat) (n : Option Nat) : (s.setSelection i n).watermark = s.watermark := rfl
@[simp] theorem setSelection_replies (s : State) (i : Nat) (n : Option Nat) : (s.setSelection i n).replies = s.replies := rfl
@[simp] theorem setSelection_reports (s : State) (i : Nat) (n : Option Nat) : (s.setSelection i n).reports = s.reports := rfl
@[simp] theorem setSelection_reportArrival (s : State) (i : Nat) (n : Option Nat) : (s.setSelection i n).reportArrival = s.reportArrival := rfl
@[simp] theorem setSelection_reportSeq (s : State) (i : Nat) (n : Option Nat) : (s.setSelection i n).reportSeq = s.reportSeq := rfl
@[simp] theorem setSelection_draws (s : State) (i : Nat) (n : Option Nat) : (s.setSelection i n).draws = s.draws := rfl

/-! ### invalidateAll -/

@[simp] theorem invalidateAll_pending (s : State) : (s.invalidateAll).pending = s.pending := rfl
@[simp] theorem invalidateAll_now (s : State) : (s.invalidateAll).now = s.now := rfl
@[simp] theorem invalidateAll_straps (s : State) : (s.invalidateAll).straps = s.straps := rfl
@[simp] theorem invalidateAll_ship (s : State) : (s.invalidateAll).ship = s.ship := rfl
@[simp] theorem invalidateAll_node (s : State) : (s.invalidateAll).node = s.node := rfl
@[simp] theorem invalidateAll_displays (s : State) : (s.invalidateAll).displays = s.displays := rfl
@[simp] theorem invalidateAll_nodes (s : State) : (s.invalidateAll).nodes = s.nodes := rfl
@[simp] theorem invalidateAll_segments (s : State) : (s.invalidateAll).segments = s.segments := rfl
@[simp] theorem invalidateAll_lists (s : State) : (s.invalidateAll).lists = s.lists := rfl
@[simp] theorem invalidateAll_programme (s : State) : (s.invalidateAll).programme = s.programme := rfl
@[simp] theorem invalidateAll_lastEvaluation (s : State) : (s.invalidateAll).lastEvaluation = s.lastEvaluation := rfl
@[simp] theorem invalidateAll_cabins (s : State) : (s.invalidateAll).cabins = s.cabins := rfl
@[simp] theorem invalidateAll_lossReported (s : State) : (s.invalidateAll).lossReported = s.lossReported := rfl
@[simp] theorem invalidateAll_notices (s : State) : (s.invalidateAll).notices = s.notices := rfl
@[simp] theorem invalidateAll_templates (s : State) : (s.invalidateAll).templates = s.templates := rfl
@[simp] theorem invalidateAll_selection (s : State) : (s.invalidateAll).selection = s.selection := rfl
@[simp] theorem invalidateAll_texts (s : State) : (s.invalidateAll).texts = s.texts := rfl
@[simp] theorem invalidateAll_regions (s : State) : (s.invalidateAll).regions = s.regions := rfl
@[simp] theorem invalidateAll_strings (s : State) : (s.invalidateAll).strings = s.strings := rfl
@[simp] theorem invalidateAll_quietCopy (s : State) : (s.invalidateAll).quietCopy = s.quietCopy := rfl
@[simp] theorem invalidateAll_fore (s : State) : (s.invalidateAll).fore = s.fore := rfl
@[simp] theorem invalidateAll_aft (s : State) : (s.invalidateAll).aft = s.aft := rfl
@[simp] theorem invalidateAll_address (s : State) : (s.invalidateAll).address = s.address := rfl
@[simp] theorem invalidateAll_watermark (s : State) : (s.invalidateAll).watermark = s.watermark := rfl
@[simp] theorem invalidateAll_replies (s : State) : (s.invalidateAll).replies = s.replies := rfl
@[simp] theorem invalidateAll_reports (s : State) : (s.invalidateAll).reports = s.reports := rfl
@[simp] theorem invalidateAll_reportArrival (s : State) : (s.invalidateAll).reportArrival = s.reportArrival := rfl
@[simp] theorem invalidateAll_reportSeq (s : State) : (s.invalidateAll).reportSeq = s.reportSeq := rfl
@[simp] theorem invalidateAll_draws (s : State) : (s.invalidateAll).draws = s.draws := rfl

/-! ### clearCabinFlags -/

@[simp] theorem clearCabinFlags_pending (s : State) : (s.clearCabinFlags).pending = s.pending := rfl
@[simp] theorem clearCabinFlags_now (s : State) : (s.clearCabinFlags).now = s.now := rfl
@[simp] theorem clearCabinFlags_straps (s : State) : (s.clearCabinFlags).straps = s.straps := rfl
@[simp] theorem clearCabinFlags_ship (s : State) : (s.clearCabinFlags).ship = s.ship := rfl
@[simp] theorem clearCabinFlags_node (s : State) : (s.clearCabinFlags).node = s.node := rfl
@[simp] theorem clearCabinFlags_displays (s : State) : (s.clearCabinFlags).displays = s.displays := rfl
@[simp] theorem clearCabinFlags_nodes (s : State) : (s.clearCabinFlags).nodes = s.nodes := rfl
@[simp] theorem clearCabinFlags_segments (s : State) : (s.clearCabinFlags).segments = s.segments := rfl
@[simp] theorem clearCabinFlags_dests (s : State) : (s.clearCabinFlags).dests = s.dests := rfl
@[simp] theorem clearCabinFlags_lists (s : State) : (s.clearCabinFlags).lists = s.lists := rfl
@[simp] theorem clearCabinFlags_programme (s : State) : (s.clearCabinFlags).programme = s.programme := rfl
@[simp] theorem clearCabinFlags_lastEvaluation (s : State) : (s.clearCabinFlags).lastEvaluation = s.lastEvaluation := rfl
@[simp] theorem clearCabinFlags_lossReported (s : State) : (s.clearCabinFlags).lossReported = s.lossReported := rfl
@[simp] theorem clearCabinFlags_notices (s : State) : (s.clearCabinFlags).notices = s.notices := rfl
@[simp] theorem clearCabinFlags_templates (s : State) : (s.clearCabinFlags).templates = s.templates := rfl
@[simp] theorem clearCabinFlags_selection (s : State) : (s.clearCabinFlags).selection = s.selection := rfl
@[simp] theorem clearCabinFlags_texts (s : State) : (s.clearCabinFlags).texts = s.texts := rfl
@[simp] theorem clearCabinFlags_regions (s : State) : (s.clearCabinFlags).regions = s.regions := rfl
@[simp] theorem clearCabinFlags_strings (s : State) : (s.clearCabinFlags).strings = s.strings := rfl
@[simp] theorem clearCabinFlags_quietCopy (s : State) : (s.clearCabinFlags).quietCopy = s.quietCopy := rfl
@[simp] theorem clearCabinFlags_fore (s : State) : (s.clearCabinFlags).fore = s.fore := rfl
@[simp] theorem clearCabinFlags_aft (s : State) : (s.clearCabinFlags).aft = s.aft := rfl
@[simp] theorem clearCabinFlags_address (s : State) : (s.clearCabinFlags).address = s.address := rfl
@[simp] theorem clearCabinFlags_watermark (s : State) : (s.clearCabinFlags).watermark = s.watermark := rfl
@[simp] theorem clearCabinFlags_replies (s : State) : (s.clearCabinFlags).replies = s.replies := rfl
@[simp] theorem clearCabinFlags_reports (s : State) : (s.clearCabinFlags).reports = s.reports := rfl
@[simp] theorem clearCabinFlags_reportArrival (s : State) : (s.clearCabinFlags).reportArrival = s.reportArrival := rfl
@[simp] theorem clearCabinFlags_reportSeq (s : State) : (s.clearCabinFlags).reportSeq = s.reportSeq := rfl
@[simp] theorem clearCabinFlags_draws (s : State) : (s.clearCabinFlags).draws = s.draws := rfl

/-! ### freeStrings -/

@[simp] theorem freeStrings_pending (s : State) : (s.freeStrings).pending = s.pending := rfl
@[simp] theorem freeStrings_now (s : State) : (s.freeStrings).now = s.now := rfl
@[simp] theorem freeStrings_straps (s : State) : (s.freeStrings).straps = s.straps := rfl
@[simp] theorem freeStrings_ship (s : State) : (s.freeStrings).ship = s.ship := rfl
@[simp] theorem freeStrings_node (s : State) : (s.freeStrings).node = s.node := rfl
@[simp] theorem freeStrings_displays (s : State) : (s.freeStrings).displays = s.displays := rfl
@[simp] theorem freeStrings_nodes (s : State) : (s.freeStrings).nodes = s.nodes := rfl
@[simp] theorem freeStrings_segments (s : State) : (s.freeStrings).segments = s.segments := rfl
@[simp] theorem freeStrings_dests (s : State) : (s.freeStrings).dests = s.dests := rfl
@[simp] theorem freeStrings_lists (s : State) : (s.freeStrings).lists = s.lists := rfl
@[simp] theorem freeStrings_programme (s : State) : (s.freeStrings).programme = s.programme := rfl
@[simp] theorem freeStrings_lastEvaluation (s : State) : (s.freeStrings).lastEvaluation = s.lastEvaluation := rfl
@[simp] theorem freeStrings_cabins (s : State) : (s.freeStrings).cabins = s.cabins := rfl
@[simp] theorem freeStrings_lossReported (s : State) : (s.freeStrings).lossReported = s.lossReported := rfl
@[simp] theorem freeStrings_notices (s : State) : (s.freeStrings).notices = s.notices := rfl
@[simp] theorem freeStrings_templates (s : State) : (s.freeStrings).templates = s.templates := rfl
@[simp] theorem freeStrings_selection (s : State) : (s.freeStrings).selection = s.selection := rfl
@[simp] theorem freeStrings_texts (s : State) : (s.freeStrings).texts = s.texts := rfl
@[simp] theorem freeStrings_regions (s : State) : (s.freeStrings).regions = s.regions := rfl
@[simp] theorem freeStrings_quietCopy (s : State) : (s.freeStrings).quietCopy = s.quietCopy := rfl
@[simp] theorem freeStrings_fore (s : State) : (s.freeStrings).fore = s.fore := rfl
@[simp] theorem freeStrings_aft (s : State) : (s.freeStrings).aft = s.aft := rfl
@[simp] theorem freeStrings_address (s : State) : (s.freeStrings).address = s.address := rfl
@[simp] theorem freeStrings_watermark (s : State) : (s.freeStrings).watermark = s.watermark := rfl
@[simp] theorem freeStrings_replies (s : State) : (s.freeStrings).replies = s.replies := rfl
@[simp] theorem freeStrings_reports (s : State) : (s.freeStrings).reports = s.reports := rfl
@[simp] theorem freeStrings_reportArrival (s : State) : (s.freeStrings).reportArrival = s.reportArrival := rfl
@[simp] theorem freeStrings_reportSeq (s : State) : (s.freeStrings).reportSeq = s.reportSeq := rfl
@[simp] theorem freeStrings_draws (s : State) : (s.freeStrings).draws = s.draws := rfl

/-! ### restartStrings -/

@[simp] theorem restartStrings_pending (s : State) : (s.restartStrings).pending = s.pending := rfl
@[simp] theorem restartStrings_now (s : State) : (s.restartStrings).now = s.now := rfl
@[simp] theorem restartStrings_straps (s : State) : (s.restartStrings).straps = s.straps := rfl
@[simp] theorem restartStrings_ship (s : State) : (s.restartStrings).ship = s.ship := rfl
@[simp] theorem restartStrings_node (s : State) : (s.restartStrings).node = s.node := rfl
@[simp] theorem restartStrings_displays (s : State) : (s.restartStrings).displays = s.displays := rfl
@[simp] theorem restartStrings_nodes (s : State) : (s.restartStrings).nodes = s.nodes := rfl
@[simp] theorem restartStrings_segments (s : State) : (s.restartStrings).segments = s.segments := rfl
@[simp] theorem restartStrings_dests (s : State) : (s.restartStrings).dests = s.dests := rfl
@[simp] theorem restartStrings_lists (s : State) : (s.restartStrings).lists = s.lists := rfl
@[simp] theorem restartStrings_programme (s : State) : (s.restartStrings).programme = s.programme := rfl
@[simp] theorem restartStrings_lastEvaluation (s : State) : (s.restartStrings).lastEvaluation = s.lastEvaluation := rfl
@[simp] theorem restartStrings_cabins (s : State) : (s.restartStrings).cabins = s.cabins := rfl
@[simp] theorem restartStrings_lossReported (s : State) : (s.restartStrings).lossReported = s.lossReported := rfl
@[simp] theorem restartStrings_notices (s : State) : (s.restartStrings).notices = s.notices := rfl
@[simp] theorem restartStrings_templates (s : State) : (s.restartStrings).templates = s.templates := rfl
@[simp] theorem restartStrings_selection (s : State) : (s.restartStrings).selection = s.selection := rfl
@[simp] theorem restartStrings_texts (s : State) : (s.restartStrings).texts = s.texts := rfl
@[simp] theorem restartStrings_regions (s : State) : (s.restartStrings).regions = s.regions := rfl
@[simp] theorem restartStrings_quietCopy (s : State) : (s.restartStrings).quietCopy = s.quietCopy := rfl
@[simp] theorem restartStrings_fore (s : State) : (s.restartStrings).fore = s.fore := rfl
@[simp] theorem restartStrings_aft (s : State) : (s.restartStrings).aft = s.aft := rfl
@[simp] theorem restartStrings_address (s : State) : (s.restartStrings).address = s.address := rfl
@[simp] theorem restartStrings_watermark (s : State) : (s.restartStrings).watermark = s.watermark := rfl
@[simp] theorem restartStrings_replies (s : State) : (s.restartStrings).replies = s.replies := rfl
@[simp] theorem restartStrings_reports (s : State) : (s.restartStrings).reports = s.reports := rfl
@[simp] theorem restartStrings_reportArrival (s : State) : (s.restartStrings).reportArrival = s.reportArrival := rfl
@[simp] theorem restartStrings_reportSeq (s : State) : (s.restartStrings).reportSeq = s.reportSeq := rfl
@[simp] theorem restartStrings_draws (s : State) : (s.restartStrings).draws = s.draws := rfl

/-! ### What is set -/

@[simp] theorem setDisplay_displays (s : State) (d : Nat) (x : Display) :
    (s.setDisplay d x).displays = Tab.store s.displays d x := rfl
@[simp] theorem onRuntime_displays (s : State) (d : Nat) (f : DisplayRuntime → DisplayRuntime) :
    (s.onRuntime d f).displays = Tab.change s.displays d fun x => { x with rt := f x.rt } := rfl
@[simp] theorem reach_now (s : State) (t : Nat) : (s.reach t).now = max s.now t := rfl
@[simp] theorem onShip_ship (s : State) (f : Ship → Ship) : (s.onShip f).ship = f s.ship := rfl
@[simp] theorem setDest_dests (s : State) (d : Nat) (t : Dest) : (s.setDest d t).dests = Tab.store s.dests d t := rfl
@[simp] theorem setCabin_cabins (s : State) (i : Nat) (c : Cabin) : (s.setCabin i c).cabins = Tab.store s.cabins i c := rfl
@[simp] theorem invalidateAll_dests (s : State) : s.invalidateAll.dests = Tab.mapAll s.dests Dest.invalidated := rfl
@[simp] theorem setPort_port (s : State) (p : Port) (l : LinkPort) : (s.setPort p l).port p = l := by cases p <;> rfl
@[simp] theorem setPort_port_other (s : State) (p : Port) (l : LinkPort) : (s.setPort p l).port p.other = s.port p.other := by
  cases p <;> rfl
@[simp] theorem setStr_str (s : State) (k : StringNo) (c : StringCtl) : (s.setStr k c).str k = c := by
  simp [State.setStr, State.str]
theorem setStr_str_ne (s : State) (k j : StringNo) (c : StringCtl) (h : k ≠ j) : (s.setStr k c).str j = s.str j := by
  have : k.val ≠ j.val := fun e => h (Fin.ext e)
  simp [State.setStr, State.str, this]
@[simp] theorem setStr_str_self (s : State) (k : StringNo) : s.setStr k (s.str k) = s := by
  simp [State.setStr, State.str]
@[simp] theorem setPort_port_self (s : State) (p : Port) : s.setPort p (s.port p) = s := by cases p <;> rfl
@[simp] theorem port_other_other (p : Port) : p.other.other = p := by cases p <;> rfl

end Sys2Proof.Machine
end

