-- ==== Sys2Proof/Laws/Marks.lean ====
section
/-! SUPPORT. A mark for update changes the displays and the string controllers and nothing else; neither does a clear of held
values. One lemma per operation, then one per field. -/

namespace Sys2Proof.Machine

/-- Two states that differ in the displays and the string controllers alone. -/
def State.ScreensOnly (s t : State) : Prop := t = { s with displays := t.displays, strings := t.strings }

theorem State.ScreensOnly.refl (s : State) : s.ScreensOnly s := rfl

theorem State.ScreensOnly.trans {s t u : State} (h : s.ScreensOnly t) (g : t.ScreensOnly u) : s.ScreensOnly u := by
  unfold State.ScreensOnly at *
  rw [g, h]

theorem setStr_screens (s : State) (k : StringNo) (c : StringCtl) : s.ScreensOnly (s.setStr k c) := rfl

theorem setDisplay_screens (s : State) (d : Nat) (x : Display) : s.ScreensOnly (s.setDisplay d x) := rfl

theorem onRuntime_screens (s : State) (d : Nat) (f : DisplayRuntime → DisplayRuntime) : s.ScreensOnly (s.onRuntime d f) := rfl

theorem enterAt_screens (s : State) (d : Nat) (u : Urgency) (n : Nat) : s.ScreensOnly (s.enterAt d u n) := by
  unfold State.enterAt
  split <;> rfl

theorem enter_screens (s : State) (d : Nat) (u : Urgency) : s.ScreensOnly (s.enter d u) := by
  unfold State.enter
  split
  · rfl
  · exact (setStr_screens _ _ _).trans (enterAt_screens _ _ _ _)

theorem leaveQueue_screens (s : State) (d : Nat) : s.ScreensOnly (s.leaveQueue d) := by
  unfold State.leaveQueue
  split
  · rfl
  · split <;> rfl

/-- R132: a mark changes the displays and the string controllers alone. -/
theorem mark_screens (s : State) (d : Nat) (u : Urgency) : s.ScreensOnly (s.mark d u) := by
  unfold State.mark
  split
  · rfl
  · split
    · rfl
    · exact enter_screens _ _ _
    · split
      · exact (leaveQueue_screens _ _).trans (enter_screens _ _ _)
      · rfl
    · rfl

theorem foldl_screens {α : Type} (f : State → α → State) (h : ∀ (s : State) (a : α), s.ScreensOnly (f s a)) (l : List α) (s : State) :
    s.ScreensOnly (l.foldl f s) := by
  induction l generalizing s with
  | nil => rfl
  | cons a l ih => exact (h s a).trans (ih _)

theorem marks_screens (s : State) (ms : List (Nat × Urgency)) : s.ScreensOnly (s.marks ms) :=
  foldl_screens _ (fun _ _ => mark_screens _ _ _) _ _

theorem markBy_screens (s : State) (f : Nat → Display → Option Urgency) : s.ScreensOnly (s.markBy f) := marks_screens _ _

theorem markWhere_screens (s : State) (p : Nat → Display → Bool) (u : Urgency) : s.ScreensOnly (s.markWhere p u) :=
  markBy_screens _ _

theorem markAll_screens (s : State) (u : Urgency) : s.ScreensOnly (s.markAll u) := markBy_screens _ _

theorem clearHeld_screens (s : State) (d : Nat) (p : Nat → Bool) : s.ScreensOnly (s.clearHeld d p) := rfl

theorem clearHeldMany_screens (s : State) (ds : List Nat) (p : Nat → Bool) : s.ScreensOnly (s.clearHeldMany ds p) :=
  foldl_screens _ (fun _ _ => clearHeld_screens _ _ _) _ _


/-! ### What two such states share -/

theorem State.ScreensOnly.pending_eq {s t : State} (h : s.ScreensOnly t) : t.pending = s.pending := by
  unfold State.ScreensOnly at h
  rw [h]
theorem State.ScreensOnly.now_eq {s t : State} (h : s.ScreensOnly t) : t.now = s.now := by
  unfold State.ScreensOnly at h
  rw [h]
theorem State.ScreensOnly.straps_eq {s t : State} (h : s.ScreensOnly t) : t.straps = s.straps := by
  unfold State.ScreensOnly at h
  rw [h]
theorem State.ScreensOnly.ship_eq {s t : State} (h : s.ScreensOnly t) : t.ship = s.ship := by
  unfold State.ScreensOnly at h
  rw [h]
theorem State.ScreensOnly.node_eq {s t : State} (h : s.ScreensOnly t) : t.node = s.node := by
  unfold State.ScreensOnly at h
  rw [h]
theorem State.ScreensOnly.nodes_eq {s t : State} (h : s.ScreensOnly t) : t.nodes = s.nodes := by
  unfold State.ScreensOnly at h
  rw [h]
theorem State.ScreensOnly.segments_eq {s t : State} (h : s.ScreensOnly t) : t.segments = s.segments := by
  unfold State.ScreensOnly at h
  rw [h]
theorem State.ScreensOnly.dests_eq {s t : State} (h : s.ScreensOnly t) : t.dests = s.dests := by
  unfold State.ScreensOnly at h
  rw [h]
theorem State.ScreensOnly.lists_eq {s t : State} (h : s.ScreensOnly t) : t.lists = s.lists := by
  unfold State.ScreensOnly at h
  rw [h]
theorem State.ScreensOnly.programme_eq {s t : State} (h : s.ScreensOnly t) : t.programme = s.programme := by
  unfold State.ScreensOnly at h
  rw [h]
theorem State.ScreensOnly.lastEvaluation_eq {s t : State} (h : s.ScreensOnly t) : t.lastEvaluation = s.lastEvaluation := by
  unfold State.ScreensOnly at h
  rw [h]
theorem State.ScreensOnly.cabins_eq {s t : State} (h : s.ScreensOnly t) : t.cabins = s.cabins := by
  unfold State.ScreensOnly at h
  rw [h]
theorem State.ScreensOnly.lossReported_eq {s t : State} (h : s.ScreensOnly t) : t.lossReported = s.lossReported := by
  unfold State.ScreensOnly at h
  rw [h]
theorem State.ScreensOnly.notices_eq {s t : State} (h : s.ScreensOnly t) : t.notices = s.notices := by
  unfold State.ScreensOnly at h
  rw [h]
theorem State.ScreensOnly.templates_eq {s t : State} (h : s.ScreensOnly t) : t.templates = s.templates := by
  unfold State.ScreensOnly at h
  rw [h]
theorem State.ScreensOnly.selection_eq {s t : State} (h : s.ScreensOnly t) : t.selection = s.selection := by
  unfold State.ScreensOnly at h
  rw [h]
theorem State.ScreensOnly.texts_eq {s t : State} (h : s.ScreensOnly t) : t.texts = s.texts := by
  unfold State.ScreensOnly at h
  rw [h]
theorem State.ScreensOnly.regions_eq {s t : State} (h : s.ScreensOnly t) : t.regions = s.regions := by
  unfold State.ScreensOnly at h
  rw [h]
theorem State.ScreensOnly.quietCopy_eq {s t : State} (h : s.ScreensOnly t) : t.quietCopy = s.quietCopy := by
  unfold State.ScreensOnly at h
  rw [h]
theorem State.ScreensOnly.fore_eq {s t : State} (h : s.ScreensOnly t) : t.fore = s.fore := by
  unfold State.ScreensOnly at h
  rw [h]
theorem State.ScreensOnly.aft_eq {s t : State} (h : s.ScreensOnly t) : t.aft = s.aft := by
  unfold State.ScreensOnly at h
  rw [h]
theorem State.ScreensOnly.address_eq {s t : State} (h : s.ScreensOnly t) : t.address = s.address := by
  unfold State.ScreensOnly at h
  rw [h]
theorem State.ScreensOnly.watermark_eq {s t : State} (h : s.ScreensOnly t) : t.watermark = s.watermark := by
  unfold State.ScreensOnly at h
  rw [h]
theorem State.ScreensOnly.replies_eq {s t : State} (h : s.ScreensOnly t) : t.replies = s.replies := by
  unfold State.ScreensOnly at h
  rw [h]
theorem State.ScreensOnly.reports_eq {s t : State} (h : s.ScreensOnly t) : t.reports = s.reports := by
  unfold State.ScreensOnly at h
  rw [h]
theorem State.ScreensOnly.reportArrival_eq {s t : State} (h : s.ScreensOnly t) : t.reportArrival = s.reportArrival := by
  unfold State.ScreensOnly at h
  rw [h]
theorem State.ScreensOnly.reportSeq_eq {s t : State} (h : s.ScreensOnly t) : t.reportSeq = s.reportSeq := by
  unfold State.ScreensOnly at h
  rw [h]
theorem State.ScreensOnly.draws_eq {s t : State} (h : s.ScreensOnly t) : t.draws = s.draws := by
  unfold State.ScreensOnly at h
  rw [h]

/-! ### enterAt -/

@[simp] theorem enterAt_pending (s : State) (d : Nat) (u : Urgency) (n : Nat) :
    (s.enterAt d u n).pending = s.pending := (enterAt_screens s d u n).pending_eq
@[simp] theorem enterAt_now (s : State) (d : Nat) (u : Urgency) (n : Nat) :
    (s.enterAt d u n).now = s.now := (enterAt_screens s d u n).now_eq
@[simp] theorem enterAt_straps (s : State) (d : Nat) (u : Urgency) (n : Nat) :
    (s.enterAt d u n).straps = s.straps := (enterAt_screens s d u n).straps_eq
@[simp] theorem enterAt_ship (s : State) (d : Nat) (u : Urgency) (n : Nat) :
    (s.enterAt d u n).ship = s.ship := (enterAt_screens s d u n).ship_eq
@[simp] theorem enterAt_node (s : State) (d : Nat) (u : Urgency) (n : Nat) :
    (s.enterAt d u n).node = s.node := (enterAt_screens s d u n).node_eq
@[simp] theorem enterAt_nodes (s : State) (d : Nat) (u : Urgency) (n : Nat) :
    (s.enterAt d u n).nodes = s.nodes := (enterAt_screens s d u n).nodes_eq
@[simp] theorem enterAt_segments (s : State) (d : Nat) (u : Urgency) (n : Nat) :
    (s.enterAt d u n).segments = s.segments := (enterAt_screens s d u n).segments_eq
@[simp] theorem enterAt_dests (s : State) (d : Nat) (u : Urgency) (n : Nat) :
    (s.enterAt d u n).dests = s.dests := (enterAt_screens s d u n).dests_eq
@[simp] theorem enterAt_lists (s : State) (d : Nat) (u : Urgency) (n : Nat) :
    (s.enterAt d u n).lists = s.lists := (enterAt_screens s d u n).lists_eq
@[simp] theorem enterAt_programme (s : State) (d : Nat) (u : Urgency) (n : Nat) :
    (s.enterAt d u n).programme = s.programme := (enterAt_screens s d u n).programme_eq
@[simp] theorem enterAt_lastEvaluation (s : State) (d : Nat) (u : Urgency) (n : Nat) :
    (s.enterAt d u n).lastEvaluation = s.lastEvaluation := (enterAt_screens s d u n).lastEvaluation_eq
@[simp] theorem enterAt_cabins (s : State) (d : Nat) (u : Urgency) (n : Nat) :
    (s.enterAt d u n).cabins = s.cabins := (enterAt_screens s d u n).cabins_eq
@[simp] theorem enterAt_lossReported (s : State) (d : Nat) (u : Urgency) (n : Nat) :
    (s.enterAt d u n).lossReported = s.lossReported := (enterAt_screens s d u n).lossReported_eq
@[simp] theorem enterAt_notices (s : State) (d : Nat) (u : Urgency) (n : Nat) :
    (s.enterAt d u n).notices = s.notices := (enterAt_screens s d u n).notices_eq
@[simp] theorem enterAt_templates (s : State) (d : Nat) (u : Urgency) (n : Nat) :
    (s.enterAt d u n).templates = s.templates := (enterAt_screens s d u n).templates_eq
@[simp] theorem enterAt_selection (s : State) (d : Nat) (u : Urgency) (n : Nat) :
    (s.enterAt d u n).selection = s.selection := (enterAt_screens s d u n).selection_eq
@[simp] theorem enterAt_texts (s : State) (d : Nat) (u : Urgency) (n : Nat) :
    (s.enterAt d u n).texts = s.texts := (enterAt_screens s d u n).texts_eq
@[simp] theorem enterAt_regions (s : State) (d : Nat) (u : Urgency) (n : Nat) :
    (s.enterAt d u n).regions = s.regions := (enterAt_screens s d u n).regions_eq
@[simp] theorem enterAt_quietCopy (s : State) (d : Nat) (u : Urgency) (n : Nat) :
    (s.enterAt d u n).quietCopy = s.quietCopy := (enterAt_screens s d u n).quietCopy_eq
@[simp] theorem enterAt_fore (s : State) (d : Nat) (u : Urgency) (n : Nat) :
    (s.enterAt d u n).fore = s.fore := (enterAt_screens s d u n).fore_eq
@[simp] theorem enterAt_aft (s : State) (d : Nat) (u : Urgency) (n : Nat) :
    (s.enterAt d u n).aft = s.aft := (enterAt_screens s d u n).aft_eq
@[simp] theorem enterAt_address (s : State) (d : Nat) (u : Urgency) (n : Nat) :
    (s.enterAt d u n).address = s.address := (enterAt_screens s d u n).address_eq
@[simp] theorem enterAt_watermark (s : State) (d : Nat) (u : Urgency) (n : Nat) :
    (s.enterAt d u n).watermark = s.watermark := (enterAt_screens s d u n).watermark_eq
@[simp] theorem enterAt_replies (s : State) (d : Nat) (u : Urgency) (n : Nat) :
    (s.enterAt d u n).replies = s.replies := (enterAt_screens s d u n).replies_eq
@[simp] theorem enterAt_reports (s : State) (d : Nat) (u : Urgency) (n : Nat) :
    (s.enterAt d u n).reports = s.reports := (enterAt_screens s d u n).reports_eq
@[simp] theorem enterAt_reportArrival (s : State) (d : Nat) (u : Urgency) (n : Nat) :
    (s.enterAt d u n).reportArrival = s.reportArrival := (enterAt_screens s d u n).reportArrival_eq
@[simp] theorem enterAt_reportSeq (s : State) (d : Nat) (u : Urgency) (n : Nat) :
    (s.enterAt d u n).reportSeq = s.reportSeq := (enterAt_screens s d u n).reportSeq_eq
@[simp] theorem enterAt_draws (s : State) (d : Nat) (u : Urgency) (n : Nat) :
    (s.enterAt d u n).draws = s.draws := (enterAt_screens s d u n).draws_eq

/-! ### enter -/

@[simp] theorem enter_pending (s : State) (d : Nat) (u : Urgency) :
    (s.enter d u).pending = s.pending := (enter_screens s d u).pending_eq
@[simp] theorem enter_now (s : State) (d : Nat) (u : Urgency) :
    (s.enter d u).now = s.now := (enter_screens s d u).now_eq
@[simp] theorem enter_straps (s : State) (d : Nat) (u : Urgency) :
    (s.enter d u).straps = s.straps := (enter_screens s d u).straps_eq
@[simp] theorem enter_ship (s : State) (d : Nat) (u : Urgency) :
    (s.enter d u).ship = s.ship := (enter_screens s d u).ship_eq
@[simp] theorem enter_node (s : State) (d : Nat) (u : Urgency) :
    (s.enter d u).node = s.node := (enter_screens s d u).node_eq
@[simp] theorem enter_nodes (s : State) (d : Nat) (u : Urgency) :
    (s.enter d u).nodes = s.nodes := (enter_screens s d u).nodes_eq
@[simp] theorem enter_segments (s : State) (d : Nat) (u : Urgency) :
    (s.enter d u).segments = s.segments := (enter_screens s d u).segments_eq
@[simp] theorem enter_dests (s : State) (d : Nat) (u : Urgency) :
    (s.enter d u).dests = s.dests := (enter_screens s d u).dests_eq
@[simp] theorem enter_lists (s : State) (d : Nat) (u : Urgency) :
    (s.enter d u).lists = s.lists := (enter_screens s d u).lists_eq
@[simp] theorem enter_programme (s : State) (d : Nat) (u : Urgency) :
    (s.enter d u).programme = s.programme := (enter_screens s d u).programme_eq
@[simp] theorem enter_lastEvaluation (s : State) (d : Nat) (u : Urgency) :
    (s.enter d u).lastEvaluation = s.lastEvaluation := (enter_screens s d u).lastEvaluation_eq
@[simp] theorem enter_cabins (s : State) (d : Nat) (u : Urgency) :
    (s.enter d u).cabins = s.cabins := (enter_screens s d u).cabins_eq
@[simp] theorem enter_lossReported (s : State) (d : Nat) (u : Urgency) :
    (s.enter d u).lossReported = s.lossReported := (enter_screens s d u).lossReported_eq
@[simp] theorem enter_notices (s : State) (d : Nat) (u : Urgency) :
    (s.enter d u).notices = s.notices := (enter_screens s d u).notices_eq
@[simp] theorem enter_templates (s : State) (d : Nat) (u : Urgency) :
    (s.enter d u).templates = s.templates := (enter_screens s d u).templates_eq
@[simp] theorem enter_selection (s : State) (d : Nat) (u : Urgency) :
    (s.enter d u).selection = s.selection := (enter_screens s d u).selection_eq
@[simp] theorem enter_texts (s : State) (d : Nat) (u : Urgency) :
    (s.enter d u).texts = s.texts := (enter_screens s d u).texts_eq
@[simp] theorem enter_regions (s : State) (d : Nat) (u : Urgency) :
    (s.enter d u).regions = s.regions := (enter_screens s d u).regions_eq
@[simp] theorem enter_quietCopy (s : State) (d : Nat) (u : Urgency) :
    (s.enter d u).quietCopy = s.quietCopy := (enter_screens s d u).quietCopy_eq
@[simp] theorem enter_fore (s : State) (d : Nat) (u : Urgency) :
    (s.enter d u).fore = s.fore := (enter_screens s d u).fore_eq
@[simp] theorem enter_aft (s : State) (d : Nat) (u : Urgency) :
    (s.enter d u).aft = s.aft := (enter_screens s d u).aft_eq
@[simp] theorem enter_address (s : State) (d : Nat) (u : Urgency) :
    (s.enter d u).address = s.address := (enter_screens s d u).address_eq
@[simp] theorem enter_watermark (s : State) (d : Nat) (u : Urgency) :
    (s.enter d u).watermark = s.watermark := (enter_screens s d u).watermark_eq
@[simp] theorem enter_replies (s : State) (d : Nat) (u : Urgency) :
    (s.enter d u).replies = s.replies := (enter_screens s d u).replies_eq
@[simp] theorem enter_reports (s : State) (d : Nat) (u : Urgency) :
    (s.enter d u).reports = s.reports := (enter_screens s d u).reports_eq
@[simp] theorem enter_reportArrival (s : State) (d : Nat) (u : Urgency) :
    (s.enter d u).reportArrival = s.reportArrival := (enter_screens s d u).reportArrival_eq
@[simp] theorem enter_reportSeq (s : State) (d : Nat) (u : Urgency) :
    (s.enter d u).reportSeq = s.reportSeq := (enter_screens s d u).reportSeq_eq
@[simp] theorem enter_draws (s : State) (d : Nat) (u : Urgency) :
    (s.enter d u).draws = s.draws := (enter_screens s d u).draws_eq

/-! ### leaveQueue -/

@[simp] theorem leaveQueue_pending (s : State) (d : Nat) :
    (s.leaveQueue d).pending = s.pending := (leaveQueue_screens s d).pending_eq
@[simp] theorem leaveQueue_now (s : State) (d : Nat) :
    (s.leaveQueue d).now = s.now := (leaveQueue_screens s d).now_eq
@[simp] theorem leaveQueue_straps (s : State) (d : Nat) :
    (s.leaveQueue d).straps = s.straps := (leaveQueue_screens s d).straps_eq
@[simp] theorem leaveQueue_ship (s : State) (d : Nat) :
    (s.leaveQueue d).ship = s.ship := (leaveQueue_screens s d).ship_eq
@[simp] theorem leaveQueue_node (s : State) (d : Nat) :
    (s.leaveQueue d).node = s.node := (leaveQueue_screens s d).node_eq
@[simp] theorem leaveQueue_nodes (s : State) (d : Nat) :
    (s.leaveQueue d).nodes = s.nodes := (leaveQueue_screens s d).nodes_eq
@[simp] theorem leaveQueue_segments (s : State) (d : Nat) :
    (s.leaveQueue d).segments = s.segments := (leaveQueue_screens s d).segments_eq
@[simp] theorem leaveQueue_dests (s : State) (d : Nat) :
    (s.leaveQueue d).dests = s.dests := (leaveQueue_screens s d).dests_eq
@[simp] theorem leaveQueue_lists (s : State) (d : Nat) :
    (s.leaveQueue d).lists = s.lists := (leaveQueue_screens s d).lists_eq
@[simp] theorem leaveQueue_programme (s : State) (d : Nat) :
    (s.leaveQueue d).programme = s.programme := (leaveQueue_screens s d).programme_eq
@[simp] theorem leaveQueue_lastEvaluation (s : State) (d : Nat) :
    (s.leaveQueue d).lastEvaluation = s.lastEvaluation := (leaveQueue_screens s d).lastEvaluation_eq
@[simp] theorem leaveQueue_cabins (s : State) (d : Nat) :
    (s.leaveQueue d).cabins = s.cabins := (leaveQueue_screens s d).cabins_eq
@[simp] theorem leaveQueue_lossReported (s : State) (d : Nat) :
    (s.leaveQueue d).lossReported = s.lossReported := (leaveQueue_screens s d).lossReported_eq
@[simp] theorem leaveQueue_notices (s : State) (d : Nat) :
    (s.leaveQueue d).notices = s.notices := (leaveQueue_screens s d).notices_eq
@[simp] theorem leaveQueue_templates (s : State) (d : Nat) :
    (s.leaveQueue d).templates = s.templates := (leaveQueue_screens s d).templates_eq
@[simp] theorem leaveQueue_selection (s : State) (d : Nat) :
    (s.leaveQueue d).selection = s.selection := (leaveQueue_screens s d).selection_eq
@[simp] theorem leaveQueue_texts (s : State) (d : Nat) :
    (s.leaveQueue d).texts = s.texts := (leaveQueue_screens s d).texts_eq
@[simp] theorem leaveQueue_regions (s : State) (d : Nat) :
    (s.leaveQueue d).regions = s.regions := (leaveQueue_screens s d).regions_eq
@[simp] theorem leaveQueue_quietCopy (s : State) (d : Nat) :
    (s.leaveQueue d).quietCopy = s.quietCopy := (leaveQueue_screens s d).quietCopy_eq
@[simp] theorem leaveQueue_fore (s : State) (d : Nat) :
    (s.leaveQueue d).fore = s.fore := (leaveQueue_screens s d).fore_eq
@[simp] theorem leaveQueue_aft (s : State) (d : Nat) :
    (s.leaveQueue d).aft = s.aft := (leaveQueue_screens s d).aft_eq
@[simp] theorem leaveQueue_address (s : State) (d : Nat) :
    (s.leaveQueue d).address = s.address := (leaveQueue_screens s d).address_eq
@[simp] theorem leaveQueue_watermark (s : State) (d : Nat) :
    (s.leaveQueue d).watermark = s.watermark := (leaveQueue_screens s d).watermark_eq
@[simp] theorem leaveQueue_replies (s : State) (d : Nat) :
    (s.leaveQueue d).replies = s.replies := (leaveQueue_screens s d).replies_eq
@[simp] theorem leaveQueue_reports (s : State) (d : Nat) :
    (s.leaveQueue d).reports = s.reports := (leaveQueue_screens s d).reports_eq
@[simp] theorem leaveQueue_reportArrival (s : State) (d : Nat) :
    (s.leaveQueue d).reportArrival = s.reportArrival := (leaveQueue_screens s d).reportArrival_eq
@[simp] theorem leaveQueue_reportSeq (s : State) (d : Nat) :
    (s.leaveQueue d).reportSeq = s.reportSeq := (leaveQueue_screens s d).reportSeq_eq
@[simp] theorem leaveQueue_draws (s : State) (d : Nat) :
    (s.leaveQueue d).draws = s.draws := (leaveQueue_screens s d).draws_eq

/-! ### mark -/

@[simp] theorem mark_pending (s : State) (d : Nat) (u : Urgency) :
    (s.mark d u).pending = s.pending := (mark_screens s d u).pending_eq
@[simp] theorem mark_now (s : State) (d : Nat) (u : Urgency) :
    (s.mark d u).now = s.now := (mark_screens s d u).now_eq
@[simp] theorem mark_straps (s : State) (d : Nat) (u : Urgency) :
    (s.mark d u).straps = s.straps := (mark_screens s d u).straps_eq
@[simp] theorem mark_ship (s : State) (d : Nat) (u : Urgency) :
    (s.mark d u).ship = s.ship := (mark_screens s d u).ship_eq
@[simp] theorem mark_node (s : State) (d : Nat) (u : Urgency) :
    (s.mark d u).node = s.node := (mark_screens s d u).node_eq
@[simp] theorem mark_nodes (s : State) (d : Nat) (u : Urgency) :
    (s.mark d u).nodes = s.nodes := (mark_screens s d u).nodes_eq
@[simp] theorem mark_segments (s : State) (d : Nat) (u : Urgency) :
    (s.mark d u).segments = s.segments := (mark_screens s d u).segments_eq
@[simp] theorem mark_dests (s : State) (d : Nat) (u : Urgency) :
    (s.mark d u).dests = s.dests := (mark_screens s d u).dests_eq
@[simp] theorem mark_lists (s : State) (d : Nat) (u : Urgency) :
    (s.mark d u).lists = s.lists := (mark_screens s d u).lists_eq
@[simp] theorem mark_programme (s : State) (d : Nat) (u : Urgency) :
    (s.mark d u).programme = s.programme := (mark_screens s d u).programme_eq
@[simp] theorem mark_lastEvaluation (s : State) (d : Nat) (u : Urgency) :
    (s.mark d u).lastEvaluation = s.lastEvaluation := (mark_screens s d u).lastEvaluation_eq
@[simp] theorem mark_cabins (s : State) (d : Nat) (u : Urgency) :
    (s.mark d u).cabins = s.cabins := (mark_screens s d u).cabins_eq
@[simp] theorem mark_lossReported (s : State) (d : Nat) (u : Urgency) :
    (s.mark d u).lossReported = s.lossReported := (mark_screens s d u).lossReported_eq
@[simp] theorem mark_notices (s : State) (d : Nat) (u : Urgency) :
    (s.mark d u).notices = s.notices := (mark_screens s d u).notices_eq
@[simp] theorem mark_templates (s : State) (d : Nat) (u : Urgency) :
    (s.mark d u).templates = s.templates := (mark_screens s d u).templates_eq
@[simp] theorem mark_selection (s : State) (d : Nat) (u : Urgency) :
    (s.mark d u).selection = s.selection := (mark_screens s d u).selection_eq
@[simp] theorem mark_texts (s : State) (d : Nat) (u : Urgency) :
    (s.mark d u).texts = s.texts := (mark_screens s d u).texts_eq
@[simp] theorem mark_regions (s : State) (d : Nat) (u : Urgency) :
    (s.mark d u).regions = s.regions := (mark_screens s d u).regions_eq
@[simp] theorem mark_quietCopy (s : State) (d : Nat) (u : Urgency) :
    (s.mark d u).quietCopy = s.quietCopy := (mark_screens s d u).quietCopy_eq
@[simp] theorem mark_fore (s : State) (d : Nat) (u : Urgency) :
    (s.mark d u).fore = s.fore := (mark_screens s d u).fore_eq
@[simp] theorem mark_aft (s : State) (d : Nat) (u : Urgency) :
    (s.mark d u).aft = s.aft := (mark_screens s d u).aft_eq
@[simp] theorem mark_address (s : State) (d : Nat) (u : Urgency) :
    (s.mark d u).address = s.address := (mark_screens s d u).address_eq
@[simp] theorem mark_watermark (s : State) (d : Nat) (u : Urgency) :
    (s.mark d u).watermark = s.watermark := (mark_screens s d u).watermark_eq
@[simp] theorem mark_replies (s : State) (d : Nat) (u : Urgency) :
    (s.mark d u).replies = s.replies := (mark_screens s d u).replies_eq
@[simp] theorem mark_reports (s : State) (d : Nat) (u : Urgency) :
    (s.mark d u).reports = s.reports := (mark_screens s d u).reports_eq
@[simp] theorem mark_reportArrival (s : State) (d : Nat) (u : Urgency) :
    (s.mark d u).reportArrival = s.reportArrival := (mark_screens s d u).reportArrival_eq
@[simp] theorem mark_reportSeq (s : State) (d : Nat) (u : Urgency) :
    (s.mark d u).reportSeq = s.reportSeq := (mark_screens s d u).reportSeq_eq
@[simp] theorem mark_draws (s : State) (d : Nat) (u : Urgency) :
    (s.mark d u).draws = s.draws := (mark_screens s d u).draws_eq

/-! ### marks -/

@[simp] theorem marks_pending (s : State) (ms : List (Nat × Urgency)) :
    (s.marks ms).pending = s.pending := (marks_screens s ms).pending_eq
@[simp] theorem marks_now (s : State) (ms : List (Nat × Urgency)) :
    (s.marks ms).now = s.now := (marks_screens s ms).now_eq
@[simp] theorem marks_straps (s : State) (ms : List (Nat × Urgency)) :
    (s.marks ms).straps = s.straps := (marks_screens s ms).straps_eq
@[simp] theorem marks_ship (s : State) (ms : List (Nat × Urgency)) :
    (s.marks ms).ship = s.ship := (marks_screens s ms).ship_eq
@[simp] theorem marks_node (s : State) (ms : List (Nat × Urgency)) :
    (s.marks ms).node = s.node := (marks_screens s ms).node_eq
@[simp] theorem marks_nodes (s : State) (ms : List (Nat × Urgency)) :
    (s.marks ms).nodes = s.nodes := (marks_screens s ms).nodes_eq
@[simp] theorem marks_segments (s : State) (ms : List (Nat × Urgency)) :
    (s.marks ms).segments = s.segments := (marks_screens s ms).segments_eq
@[simp] theorem marks_dests (s : State) (ms : List (Nat × Urgency)) :
    (s.marks ms).dests = s.dests := (marks_screens s ms).dests_eq
@[simp] theorem marks_lists (s : State) (ms : List (Nat × Urgency)) :
    (s.marks ms).lists = s.lists := (marks_screens s ms).lists_eq
@[simp] theorem marks_programme (s : State) (ms : List (Nat × Urgency)) :
    (s.marks ms).programme = s.programme := (marks_screens s ms).programme_eq
@[simp] theorem marks_lastEvaluation (s : State) (ms : List (Nat × Urgency)) :
    (s.marks ms).lastEvaluation = s.lastEvaluation := (marks_screens s ms).lastEvaluation_eq
@[simp] theorem marks_cabins (s : State) (ms : List (Nat × Urgency)) :
    (s.marks ms).cabins = s.cabins := (marks_screens s ms).cabins_eq
@[simp] theorem marks_lossReported (s : State) (ms : List (Nat × Urgency)) :
    (s.marks ms).lossReported = s.lossReported := (marks_screens s ms).lossReported_eq
@[simp] theorem marks_notices (s : State) (ms : List (Nat × Urgency)) :
    (s.marks ms).notices = s.notices := (marks_screens s ms).notices_eq
@[simp] theorem marks_templates (s : State) (ms : List (Nat × Urgency)) :
    (s.marks ms).templates = s.templates := (marks_screens s ms).templates_eq
@[simp] theorem marks_selection (s : State) (ms : List (Nat × Urgency)) :
    (s.marks ms).selection = s.selection := (marks_screens s ms).selection_eq
@[simp] theorem marks_texts (s : State) (ms : List (Nat × Urgency)) :
    (s.marks ms).texts = s.texts := (marks_screens s ms).texts_eq
@[simp] theorem marks_regions (s : State) (ms : List (Nat × Urgency)) :
    (s.marks ms).regions = s.regions := (marks_screens s ms).regions_eq
@[simp] theorem marks_quietCopy (s : State) (ms : List (Nat × Urgency)) :
    (s.marks ms).quietCopy = s.quietCopy := (marks_screens s ms).quietCopy_eq
@[simp] theorem marks_fore (s : State) (ms : List (Nat × Urgency)) :
    (s.marks ms).fore = s.fore := (marks_screens s ms).fore_eq
@[simp] theorem marks_aft (s : State) (ms : List (Nat × Urgency)) :
    (s.marks ms).aft = s.aft := (marks_screens s ms).aft_eq
@[simp] theorem marks_address (s : State) (ms : List (Nat × Urgency)) :
    (s.marks ms).address = s.address := (marks_screens s ms).address_eq
@[simp] theorem marks_watermark (s : State) (ms : List (Nat × Urgency)) :
    (s.marks ms).watermark = s.watermark := (marks_screens s ms).watermark_eq
@[simp] theorem marks_replies (s : State) (ms : List (Nat × Urgency)) :
    (s.marks ms).replies = s.replies := (marks_screens s ms).replies_eq
@[simp] theorem marks_reports (s : State) (ms : List (Nat × Urgency)) :
    (s.marks ms).reports = s.reports := (marks_screens s ms).reports_eq
@[simp] theorem marks_reportArrival (s : State) (ms : List (Nat × Urgency)) :
    (s.marks ms).reportArrival = s.reportArrival := (marks_screens s ms).reportArrival_eq
@[simp] theorem marks_reportSeq (s : State) (ms : List (Nat × Urgency)) :
    (s.marks ms).reportSeq = s.reportSeq := (marks_screens s ms).reportSeq_eq
@[simp] theorem marks_draws (s : State) (ms : List (Nat × Urgency)) :
    (s.marks ms).draws = s.draws := (marks_screens s ms).draws_eq

/-! ### markBy -/

@[simp] theorem markBy_pending (s : State) (f : Nat → Display → Option Urgency) :
    (s.markBy f).pending = s.pending := (markBy_screens s f).pending_eq
@[simp] theorem markBy_now (s : State) (f : Nat → Display → Option Urgency) :
    (s.markBy f).now = s.now := (markBy_screens s f).now_eq
@[simp] theorem markBy_straps (s : State) (f : Nat → Display → Option Urgency) :
    (s.markBy f).straps = s.straps := (markBy_screens s f).straps_eq
@[simp] theorem markBy_ship (s : State) (f : Nat → Display → Option Urgency) :
    (s.markBy f).ship = s.ship := (markBy_screens s f).ship_eq
@[simp] theorem markBy_node (s : State) (f : Nat → Display → Option Urgency) :
    (s.markBy f).node = s.node := (markBy_screens s f).node_eq
@[simp] theorem markBy_nodes (s : State) (f : Nat → Display → Option Urgency) :
    (s.markBy f).nodes = s.nodes := (markBy_screens s f).nodes_eq
@[simp] theorem markBy_segments (s : State) (f : Nat → Display → Option Urgency) :
    (s.markBy f).segments = s.segments := (markBy_screens s f).segments_eq
@[simp] theorem markBy_dests (s : State) (f : Nat → Display → Option Urgency) :
    (s.markBy f).dests = s.dests := (markBy_screens s f).dests_eq
@[simp] theorem markBy_lists (s : State) (f : Nat → Display → Option Urgency) :
    (s.markBy f).lists = s.lists := (markBy_screens s f).lists_eq
@[simp] theorem markBy_programme (s : State) (f : Nat → Display → Option Urgency) :
    (s.markBy f).programme = s.programme := (markBy_screens s f).programme_eq
@[simp] theorem markBy_lastEvaluation (s : State) (f : Nat → Display → Option Urgency) :
    (s.markBy f).lastEvaluation = s.lastEvaluation := (markBy_screens s f).lastEvaluation_eq
@[simp] theorem markBy_cabins (s : State) (f : Nat → Display → Option Urgency) :
    (s.markBy f).cabins = s.cabins := (markBy_screens s f).cabins_eq
@[simp] theorem markBy_lossReported (s : State) (f : Nat → Display → Option Urgency) :
    (s.markBy f).lossReported = s.lossReported := (markBy_screens s f).lossReported_eq
@[simp] theorem markBy_notices (s : State) (f : Nat → Display → Option Urgency) :
    (s.markBy f).notices = s.notices := (markBy_screens s f).notices_eq
@[simp] theorem markBy_templates (s : State) (f : Nat → Display → Option Urgency) :
    (s.markBy f).templates = s.templates := (markBy_screens s f).templates_eq
@[simp] theorem markBy_selection (s : State) (f : Nat → Display → Option Urgency) :
    (s.markBy f).selection = s.selection := (markBy_screens s f).selection_eq
@[simp] theorem markBy_texts (s : State) (f : Nat → Display → Option Urgency) :
    (s.markBy f).texts = s.texts := (markBy_screens s f).texts_eq
@[simp] theorem markBy_regions (s : State) (f : Nat → Display → Option Urgency) :
    (s.markBy f).regions = s.regions := (markBy_screens s f).regions_eq
@[simp] theorem markBy_quietCopy (s : State) (f : Nat → Display → Option Urgency) :
    (s.markBy f).quietCopy = s.quietCopy := (markBy_screens s f).quietCopy_eq
@[simp] theorem markBy_fore (s : State) (f : Nat → Display → Option Urgency) :
    (s.markBy f).fore = s.fore := (markBy_screens s f).fore_eq
@[simp] theorem markBy_aft (s : State) (f : Nat → Display → Option Urgency) :
    (s.markBy f).aft = s.aft := (markBy_screens s f).aft_eq
@[simp] theorem markBy_address (s : State) (f : Nat → Display → Option Urgency) :
    (s.markBy f).address = s.address := (markBy_screens s f).address_eq
@[simp] theorem markBy_watermark (s : State) (f : Nat → Display → Option Urgency) :
    (s.markBy f).watermark = s.watermark := (markBy_screens s f).watermark_eq
@[simp] theorem markBy_replies (s : State) (f : Nat → Display → Option Urgency) :
    (s.markBy f).replies = s.replies := (markBy_screens s f).replies_eq
@[simp] theorem markBy_reports (s : State) (f : Nat → Display → Option Urgency) :
    (s.markBy f).reports = s.reports := (markBy_screens s f).reports_eq
@[simp] theorem markBy_reportArrival (s : State) (f : Nat → Display → Option Urgency) :
    (s.markBy f).reportArrival = s.reportArrival := (markBy_screens s f).reportArrival_eq
@[simp] theorem markBy_reportSeq (s : State) (f : Nat → Display → Option Urgency) :
    (s.markBy f).reportSeq = s.reportSeq := (markBy_screens s f).reportSeq_eq
@[simp] theorem markBy_draws (s : State) (f : Nat → Display → Option Urgency) :
    (s.markBy f).draws = s.draws := (markBy_screens s f).draws_eq

/-! ### markWhere -/

@[simp] theorem markWhere_pending (s : State) (p : Nat → Display → Bool) (u : Urgency) :
    (s.markWhere p u).pending = s.pending := (markWhere_screens s p u).pending_eq
@[simp] theorem markWhere_now (s : State) (p : Nat → Display → Bool) (u : Urgency) :
    (s.markWhere p u).now = s.now := (markWhere_screens s p u).now_eq
@[simp] theorem markWhere_straps (s : State) (p : Nat → Display → Bool) (u : Urgency) :
    (s.markWhere p u).straps = s.straps := (markWhere_screens s p u).straps_eq
@[simp] theorem markWhere_ship (s : State) (p : Nat → Display → Bool) (u : Urgency) :
    (s.markWhere p u).ship = s.ship := (markWhere_screens s p u).ship_eq
@[simp] theorem markWhere_node (s : State) (p : Nat → Display → Bool) (u : Urgency) :
    (s.markWhere p u).node = s.node := (markWhere_screens s p u).node_eq
@[simp] theorem markWhere_nodes (s : State) (p : Nat → Display → Bool) (u : Urgency) :
    (s.markWhere p u).nodes = s.nodes := (markWhere_screens s p u).nodes_eq
@[simp] theorem markWhere_segments (s : State) (p : Nat → Display → Bool) (u : Urgency) :
    (s.markWhere p u).segments = s.segments := (markWhere_screens s p u).segments_eq
@[simp] theorem markWhere_dests (s : State) (p : Nat → Display → Bool) (u : Urgency) :
    (s.markWhere p u).dests = s.dests := (markWhere_screens s p u).dests_eq
@[simp] theorem markWhere_lists (s : State) (p : Nat → Display → Bool) (u : Urgency) :
    (s.markWhere p u).lists = s.lists := (markWhere_screens s p u).lists_eq
@[simp] theorem markWhere_programme (s : State) (p : Nat → Display → Bool) (u : Urgency) :
    (s.markWhere p u).programme = s.programme := (markWhere_screens s p u).programme_eq
@[simp] theorem markWhere_lastEvaluation (s : State) (p : Nat → Display → Bool) (u : Urgency) :
    (s.markWhere p u).lastEvaluation = s.lastEvaluation := (markWhere_screens s p u).lastEvaluation_eq
@[simp] theorem markWhere_cabins (s : State) (p : Nat → Display → Bool) (u : Urgency) :
    (s.markWhere p u).cabins = s.cabins := (markWhere_screens s p u).cabins_eq
@[simp] theorem markWhere_lossReported (s : State) (p : Nat → Display → Bool) (u : Urgency) :
    (s.markWhere p u).lossReported = s.lossReported := (markWhere_screens s p u).lossReported_eq
@[simp] theorem markWhere_notices (s : State) (p : Nat → Display → Bool) (u : Urgency) :
    (s.markWhere p u).notices = s.notices := (markWhere_screens s p u).notices_eq
@[simp] theorem markWhere_templates (s : State) (p : Nat → Display → Bool) (u : Urgency) :
    (s.markWhere p u).templates = s.templates := (markWhere_screens s p u).templates_eq
@[simp] theorem markWhere_selection (s : State) (p : Nat → Display → Bool) (u : Urgency) :
    (s.markWhere p u).selection = s.selection := (markWhere_screens s p u).selection_eq
@[simp] theorem markWhere_texts (s : State) (p : Nat → Display → Bool) (u : Urgency) :
    (s.markWhere p u).texts = s.texts := (markWhere_screens s p u).texts_eq
@[simp] theorem markWhere_regions (s : State) (p : Nat → Display → Bool) (u : Urgency) :
    (s.markWhere p u).regions = s.regions := (markWhere_screens s p u).regions_eq
@[simp] theorem markWhere_quietCopy (s : State) (p : Nat → Display → Bool) (u : Urgency) :
    (s.markWhere p u).quietCopy = s.quietCopy := (markWhere_screens s p u).quietCopy_eq
@[simp] theorem markWhere_fore (s : State) (p : Nat → Display → Bool) (u : Urgency) :
    (s.markWhere p u).fore = s.fore := (markWhere_screens s p u).fore_eq
@[simp] theorem markWhere_aft (s : State) (p : Nat → Display → Bool) (u : Urgency) :
    (s.markWhere p u).aft = s.aft := (markWhere_screens s p u).aft_eq
@[simp] theorem markWhere_address (s : State) (p : Nat → Display → Bool) (u : Urgency) :
    (s.markWhere p u).address = s.address := (markWhere_screens s p u).address_eq
@[simp] theorem markWhere_watermark (s : State) (p : Nat → Display → Bool) (u : Urgency) :
    (s.markWhere p u).watermark = s.watermark := (markWhere_screens s p u).watermark_eq
@[simp] theorem markWhere_replies (s : State) (p : Nat → Display → Bool) (u : Urgency) :
    (s.markWhere p u).replies = s.replies := (markWhere_screens s p u).replies_eq
@[simp] theorem markWhere_reports (s : State) (p : Nat → Display → Bool) (u : Urgency) :
    (s.markWhere p u).reports = s.reports := (markWhere_screens s p u).reports_eq
@[simp] theorem markWhere_reportArrival (s : State) (p : Nat → Display → Bool) (u : Urgency) :
    (s.markWhere p u).reportArrival = s.reportArrival := (markWhere_screens s p u).reportArrival_eq
@[simp] theorem markWhere_reportSeq (s : State) (p : Nat → Display → Bool) (u : Urgency) :
    (s.markWhere p u).reportSeq = s.reportSeq := (markWhere_screens s p u).reportSeq_eq
@[simp] theorem markWhere_draws (s : State) (p : Nat → Display → Bool) (u : Urgency) :
    (s.markWhere p u).draws = s.draws := (markWhere_screens s p u).draws_eq

/-! ### markAll -/

@[simp] theorem markAll_pending (s : State) (u : Urgency) :
    (s.markAll u).pending = s.pending := (markAll_screens s u).pending_eq
@[simp] theorem markAll_now (s : State) (u : Urgency) :
    (s.markAll u).now = s.now := (markAll_screens s u).now_eq
@[simp] theorem markAll_straps (s : State) (u : Urgency) :
    (s.markAll u).straps = s.straps := (markAll_screens s u).straps_eq
@[simp] theorem markAll_ship (s : State) (u : Urgency) :
    (s.markAll u).ship = s.ship := (markAll_screens s u).ship_eq
@[simp] theorem markAll_node (s : State) (u : Urgency) :
    (s.markAll u).node = s.node := (markAll_screens s u).node_eq
@[simp] theorem markAll_nodes (s : State) (u : Urgency) :
    (s.markAll u).nodes = s.nodes := (markAll_screens s u).nodes_eq
@[simp] theorem markAll_segments (s : State) (u : Urgency) :
    (s.markAll u).segments = s.segments := (markAll_screens s u).segments_eq
@[simp] theorem markAll_dests (s : State) (u : Urgency) :
    (s.markAll u).dests = s.dests := (markAll_screens s u).dests_eq
@[simp] theorem markAll_lists (s : State) (u : Urgency) :
    (s.markAll u).lists = s.lists := (markAll_screens s u).lists_eq
@[simp] theorem markAll_programme (s : State) (u : Urgency) :
    (s.markAll u).programme = s.programme := (markAll_screens s u).programme_eq
@[simp] theorem markAll_lastEvaluation (s : State) (u : Urgency) :
    (s.markAll u).lastEvaluation = s.lastEvaluation := (markAll_screens s u).lastEvaluation_eq
@[simp] theorem markAll_cabins (s : State) (u : Urgency) :
    (s.markAll u).cabins = s.cabins := (markAll_screens s u).cabins_eq
@[simp] theorem markAll_lossReported (s : State) (u : Urgency) :
    (s.markAll u).lossReported = s.lossReported := (markAll_screens s u).lossReported_eq
@[simp] theorem markAll_notices (s : State) (u : Urgency) :
    (s.markAll u).notices = s.notices := (markAll_screens s u).notices_eq
@[simp] theorem markAll_templates (s : State) (u : Urgency) :
    (s.markAll u).templates = s.templates := (markAll_screens s u).templates_eq
@[simp] theorem markAll_selection (s : State) (u : Urgency) :
    (s.markAll u).selection = s.selection := (markAll_screens s u).selection_eq
@[simp] theorem markAll_texts (s : State) (u : Urgency) :
    (s.markAll u).texts = s.texts := (markAll_screens s u).texts_eq
@[simp] theorem markAll_regions (s : State) (u : Urgency) :
    (s.markAll u).regions = s.regions := (markAll_screens s u).regions_eq
@[simp] theorem markAll_quietCopy (s : State) (u : Urgency) :
    (s.markAll u).quietCopy = s.quietCopy := (markAll_screens s u).quietCopy_eq
@[simp] theorem markAll_fore (s : State) (u : Urgency) :
    (s.markAll u).fore = s.fore := (markAll_screens s u).fore_eq
@[simp] theorem markAll_aft (s : State) (u : Urgency) :
    (s.markAll u).aft = s.aft := (markAll_screens s u).aft_eq
@[simp] theorem markAll_address (s : State) (u : Urgency) :
    (s.markAll u).address = s.address := (markAll_screens s u).address_eq
@[simp] theorem markAll_watermark (s : State) (u : Urgency) :
    (s.markAll u).watermark = s.watermark := (markAll_screens s u).watermark_eq
@[simp] theorem markAll_replies (s : State) (u : Urgency) :
    (s.markAll u).replies = s.replies := (markAll_screens s u).replies_eq
@[simp] theorem markAll_reports (s : State) (u : Urgency) :
    (s.markAll u).reports = s.reports := (markAll_screens s u).reports_eq
@[simp] theorem markAll_reportArrival (s : State) (u : Urgency) :
    (s.markAll u).reportArrival = s.reportArrival := (markAll_screens s u).reportArrival_eq
@[simp] theorem markAll_reportSeq (s : State) (u : Urgency) :
    (s.markAll u).reportSeq = s.reportSeq := (markAll_screens s u).reportSeq_eq
@[simp] theorem markAll_draws (s : State) (u : Urgency) :
    (s.markAll u).draws = s.draws := (markAll_screens s u).draws_eq

/-! ### clearHeld -/

@[simp] theorem clearHeld_pending (s : State) (d : Nat) (p : Nat → Bool) :
    (s.clearHeld d p).pending = s.pending := (clearHeld_screens s d p).pending_eq
@[simp] theorem clearHeld_now (s : State) (d : Nat) (p : Nat → Bool) :
    (s.clearHeld d p).now = s.now := (clearHeld_screens s d p).now_eq
@[simp] theorem clearHeld_straps (s : State) (d : Nat) (p : Nat → Bool) :
    (s.clearHeld d p).straps = s.straps := (clearHeld_screens s d p).straps_eq
@[simp] theorem clearHeld_ship (s : State) (d : Nat) (p : Nat → Bool) :
    (s.clearHeld d p).ship = s.ship := (clearHeld_screens s d p).ship_eq
@[simp] theorem clearHeld_node (s : State) (d : Nat) (p : Nat → Bool) :
    (s.clearHeld d p).node = s.node := (clearHeld_screens s d p).node_eq
@[simp] theorem clearHeld_nodes (s : State) (d : Nat) (p : Nat → Bool) :
    (s.clearHeld d p).nodes = s.nodes := (clearHeld_screens s d p).nodes_eq
@[simp] theorem clearHeld_segments (s : State) (d : Nat) (p : Nat → Bool) :
    (s.clearHeld d p).segments = s.segments := (clearHeld_screens s d p).segments_eq
@[simp] theorem clearHeld_dests (s : State) (d : Nat) (p : Nat → Bool) :
    (s.clearHeld d p).dests = s.dests := (clearHeld_screens s d p).dests_eq
@[simp] theorem clearHeld_lists (s : State) (d : Nat) (p : Nat → Bool) :
    (s.clearHeld d p).lists = s.lists := (clearHeld_screens s d p).lists_eq
@[simp] theorem clearHeld_programme (s : State) (d : Nat) (p : Nat → Bool) :
    (s.clearHeld d p).programme = s.programme := (clearHeld_screens s d p).programme_eq
@[simp] theorem clearHeld_lastEvaluation (s : State) (d : Nat) (p : Nat → Bool) :
    (s.clearHeld d p).lastEvaluation = s.lastEvaluation := (clearHeld_screens s d p).lastEvaluation_eq
@[simp] theorem clearHeld_cabins (s : State) (d : Nat) (p : Nat → Bool) :
    (s.clearHeld d p).cabins = s.cabins := (clearHeld_screens s d p).cabins_eq
@[simp] theorem clearHeld_lossReported (s : State) (d : Nat) (p : Nat → Bool) :
    (s.clearHeld d p).lossReported = s.lossReported := (clearHeld_screens s d p).lossReported_eq
@[simp] theorem clearHeld_notices (s : State) (d : Nat) (p : Nat → Bool) :
    (s.clearHeld d p).notices = s.notices := (clearHeld_screens s d p).notices_eq
@[simp] theorem clearHeld_templates (s : State) (d : Nat) (p : Nat → Bool) :
    (s.clearHeld d p).templates = s.templates := (clearHeld_screens s d p).templates_eq
@[simp] theorem clearHeld_selection (s : State) (d : Nat) (p : Nat → Bool) :
    (s.clearHeld d p).selection = s.selection := (clearHeld_screens s d p).selection_eq
@[simp] theorem clearHeld_texts (s : State) (d : Nat) (p : Nat → Bool) :
    (s.clearHeld d p).texts = s.texts := (clearHeld_screens s d p).texts_eq
@[simp] theorem clearHeld_regions (s : State) (d : Nat) (p : Nat → Bool) :
    (s.clearHeld d p).regions = s.regions := (clearHeld_screens s d p).regions_eq
@[simp] theorem clearHeld_quietCopy (s : State) (d : Nat) (p : Nat → Bool) :
    (s.clearHeld d p).quietCopy = s.quietCopy := (clearHeld_screens s d p).quietCopy_eq
@[simp] theorem clearHeld_fore (s : State) (d : Nat) (p : Nat → Bool) :
    (s.clearHeld d p).fore = s.fore := (clearHeld_screens s d p).fore_eq
@[simp] theorem clearHeld_aft (s : State) (d : Nat) (p : Nat → Bool) :
    (s.clearHeld d p).aft = s.aft := (clearHeld_screens s d p).aft_eq
@[simp] theorem clearHeld_address (s : State) (d : Nat) (p : Nat → Bool) :
    (s.clearHeld d p).address = s.address := (clearHeld_screens s d p).address_eq
@[simp] theorem clearHeld_watermark (s : State) (d : Nat) (p : Nat → Bool) :
    (s.clearHeld d p).watermark = s.watermark := (clearHeld_screens s d p).watermark_eq
@[simp] theorem clearHeld_replies (s : State) (d : Nat) (p : Nat → Bool) :
    (s.clearHeld d p).replies = s.replies := (clearHeld_screens s d p).replies_eq
@[simp] theorem clearHeld_reports (s : State) (d : Nat) (p : Nat → Bool) :
    (s.clearHeld d p).reports = s.reports := (clearHeld_screens s d p).reports_eq
@[simp] theorem clearHeld_reportArrival (s : State) (d : Nat) (p : Nat → Bool) :
    (s.clearHeld d p).reportArrival = s.reportArrival := (clearHeld_screens s d p).reportArrival_eq
@[simp] theorem clearHeld_reportSeq (s : State) (d : Nat) (p : Nat → Bool) :
    (s.clearHeld d p).reportSeq = s.reportSeq := (clearHeld_screens s d p).reportSeq_eq
@[simp] theorem clearHeld_draws (s : State) (d : Nat) (p : Nat → Bool) :
    (s.clearHeld d p).draws = s.draws := (clearHeld_screens s d p).draws_eq

/-! ### clearHeldMany -/

@[simp] theorem clearHeldMany_pending (s : State) (ds : List Nat) (p : Nat → Bool) :
    (s.clearHeldMany ds p).pending = s.pending := (clearHeldMany_screens s ds p).pending_eq
@[simp] theorem clearHeldMany_now (s : State) (ds : List Nat) (p : Nat → Bool) :
    (s.clearHeldMany ds p).now = s.now := (clearHeldMany_screens s ds p).now_eq
@[simp] theorem clearHeldMany_straps (s : State) (ds : List Nat) (p : Nat → Bool) :
    (s.clearHeldMany ds p).straps = s.straps := (clearHeldMany_screens s ds p).straps_eq
@[simp] theorem clearHeldMany_ship (s : State) (ds : List Nat) (p : Nat → Bool) :
    (s.clearHeldMany ds p).ship = s.ship := (clearHeldMany_screens s ds p).ship_eq
@[simp] theorem clearHeldMany_node (s : State) (ds : List Nat) (p : Nat → Bool) :
    (s.clearHeldMany ds p).node = s.node := (clearHeldMany_screens s ds p).node_eq
@[simp] theorem clearHeldMany_nodes (s : State) (ds : List Nat) (p : Nat → Bool) :
    (s.clearHeldMany ds p).nodes = s.nodes := (clearHeldMany_screens s ds p).nodes_eq
@[simp] theorem clearHeldMany_segments (s : State) (ds : List Nat) (p : Nat → Bool) :
    (s.clearHeldMany ds p).segments = s.segments := (clearHeldMany_screens s ds p).segments_eq
@[simp] theorem clearHeldMany_dests (s : State) (ds : List Nat) (p : Nat → Bool) :
    (s.clearHeldMany ds p).dests = s.dests := (clearHeldMany_screens s ds p).dests_eq
@[simp] theorem clearHeldMany_lists (s : State) (ds : List Nat) (p : Nat → Bool) :
    (s.clearHeldMany ds p).lists = s.lists := (clearHeldMany_screens s ds p).lists_eq
@[simp] theorem clearHeldMany_programme (s : State) (ds : List Nat) (p : Nat → Bool) :
    (s.clearHeldMany ds p).programme = s.programme := (clearHeldMany_screens s ds p).programme_eq
@[simp] theorem clearHeldMany_lastEvaluation (s : State) (ds : List Nat) (p : Nat → Bool) :
    (s.clearHeldMany ds p).lastEvaluation = s.lastEvaluation := (clearHeldMany_screens s ds p).lastEvaluation_eq
@[simp] theorem clearHeldMany_cabins (s : State) (ds : List Nat) (p : Nat → Bool) :
    (s.clearHeldMany ds p).cabins = s.cabins := (clearHeldMany_screens s ds p).cabins_eq
@[simp] theorem clearHeldMany_lossReported (s : State) (ds : List Nat) (p : Nat → Bool) :
    (s.clearHeldMany ds p).lossReported = s.lossReported := (clearHeldMany_screens s ds p).lossReported_eq
@[simp] theorem clearHeldMany_notices (s : State) (ds : List Nat) (p : Nat → Bool) :
    (s.clearHeldMany ds p).notices = s.notices := (clearHeldMany_screens s ds p).notices_eq
@[simp] theorem clearHeldMany_templates (s : State) (ds : List Nat) (p : Nat → Bool) :
    (s.clearHeldMany ds p).templates = s.templates := (clearHeldMany_screens s ds p).templates_eq
@[simp] theorem clearHeldMany_selection (s : State) (ds : List Nat) (p : Nat → Bool) :
    (s.clearHeldMany ds p).selection = s.selection := (clearHeldMany_screens s ds p).selection_eq
@[simp] theorem clearHeldMany_texts (s : State) (ds : List Nat) (p : Nat → Bool) :
    (s.clearHeldMany ds p).texts = s.texts := (clearHeldMany_screens s ds p).texts_eq
@[simp] theorem clearHeldMany_regions (s : State) (ds : List Nat) (p : Nat → Bool) :
    (s.clearHeldMany ds p).regions = s.regions := (clearHeldMany_screens s ds p).regions_eq
@[simp] theorem clearHeldMany_quietCopy (s : State) (ds : List Nat) (p : Nat → Bool) :
    (s.clearHeldMany ds p).quietCopy = s.quietCopy := (clearHeldMany_screens s ds p).quietCopy_eq
@[simp] theorem clearHeldMany_fore (s : State) (ds : List Nat) (p : Nat → Bool) :
    (s.clearHeldMany ds p).fore = s.fore := (clearHeldMany_screens s ds p).fore_eq
@[simp] theorem clearHeldMany_aft (s : State) (ds : List Nat) (p : Nat → Bool) :
    (s.clearHeldMany ds p).aft = s.aft := (clearHeldMany_screens s ds p).aft_eq
@[simp] theorem clearHeldMany_address (s : State) (ds : List Nat) (p : Nat → Bool) :
    (s.clearHeldMany ds p).address = s.address := (clearHeldMany_screens s ds p).address_eq
@[simp] theorem clearHeldMany_watermark (s : State) (ds : List Nat) (p : Nat → Bool) :
    (s.clearHeldMany ds p).watermark = s.watermark := (clearHeldMany_screens s ds p).watermark_eq
@[simp] theorem clearHeldMany_replies (s : State) (ds : List Nat) (p : Nat → Bool) :
    (s.clearHeldMany ds p).replies = s.replies := (clearHeldMany_screens s ds p).replies_eq
@[simp] theorem clearHeldMany_reports (s : State) (ds : List Nat) (p : Nat → Bool) :
    (s.clearHeldMany ds p).reports = s.reports := (clearHeldMany_screens s ds p).reports_eq
@[simp] theorem clearHeldMany_reportArrival (s : State) (ds : List Nat) (p : Nat → Bool) :
    (s.clearHeldMany ds p).reportArrival = s.reportArrival := (clearHeldMany_screens s ds p).reportArrival_eq
@[simp] theorem clearHeldMany_reportSeq (s : State) (ds : List Nat) (p : Nat → Bool) :
    (s.clearHeldMany ds p).reportSeq = s.reportSeq := (clearHeldMany_screens s ds p).reportSeq_eq
@[simp] theorem clearHeldMany_draws (s : State) (ds : List Nat) (p : Nat → Bool) :
    (s.clearHeldMany ds p).draws = s.draws := (clearHeldMany_screens s ds p).draws_eq

end Sys2Proof.Machine
end

