-- ==== Sys2Proof/Laws/Parts.lean ====
section
/-! SUPPORT. What each shared operation can change, once for each: the parts of State outside its list are as they were. -/

namespace Sys2Proof.Machine

/-- The parts of State, one for each field. -/
inductive Part where
  | pending
  | now
  | straps
  | ship
  | node
  | displays
  | nodes
  | segments
  | dests
  | lists
  | programme
  | lastEvaluation
  | cabins
  | lossReported
  | notices
  | templates
  | selection
  | texts
  | regions
  | strings
  | quietCopy
  | fore
  | aft
  | address
  | watermark
  | replies
  | reports
  | reportArrival
  | reportSeq
  | draws
  deriving DecidableEq, Repr

/-- Two states agree in a part. -/
def State.Agree (s t : State) : Part → Prop
  | .pending => t.pending = s.pending
  | .now => t.now = s.now
  | .straps => t.straps = s.straps
  | .ship => t.ship = s.ship
  | .node => t.node = s.node
  | .displays => t.displays = s.displays
  | .nodes => t.nodes = s.nodes
  | .segments => t.segments = s.segments
  | .dests => t.dests = s.dests
  | .lists => t.lists = s.lists
  | .programme => t.programme = s.programme
  | .lastEvaluation => t.lastEvaluation = s.lastEvaluation
  | .cabins => t.cabins = s.cabins
  | .lossReported => t.lossReported = s.lossReported
  | .notices => t.notices = s.notices
  | .templates => t.templates = s.templates
  | .selection => t.selection = s.selection
  | .texts => t.texts = s.texts
  | .regions => t.regions = s.regions
  | .strings => t.strings = s.strings
  | .quietCopy => t.quietCopy = s.quietCopy
  | .fore => t.fore = s.fore
  | .aft => t.aft = s.aft
  | .address => t.address = s.address
  | .watermark => t.watermark = s.watermark
  | .replies => t.replies = s.replies
  | .reports => t.reports = s.reports
  | .reportArrival => t.reportArrival = s.reportArrival
  | .reportSeq => t.reportSeq = s.reportSeq
  | .draws => t.draws = s.draws

/-- From one state to another only the listed parts have changed. -/
def State.Only (s t : State) (ps : List Part) : Prop := ∀ p, p ∉ ps → s.Agree t p

theorem State.Agree.refl (s : State) (p : Part) : s.Agree s p := by cases p <;> rfl

theorem State.Agree.trans {s t u : State} {p : Part} (h : s.Agree t p) (g : t.Agree u p) : s.Agree u p := by
  cases p <;> exact Eq.trans g h

theorem State.Only.refl (s : State) (ps : List Part) : s.Only s ps := fun p _ => State.Agree.refl s p

theorem State.Only.trans {s t u : State} {ps : List Part} (h : s.Only t ps) (g : t.Only u ps) : s.Only u ps :=
  fun p hp => (h p hp).trans (g p hp)

theorem State.Only.mono {s t : State} {ps : List Part} (h : s.Only t ps) (qs : List Part) (hs : ∀ p ∈ ps, p ∈ qs) : s.Only t qs :=
  fun p hp => h p fun hm => hp (hs p hm)

/-- Folding an operation changes what one application can change. -/
theorem foldl_only {α : Type} {ps : List Part} (f : State → α → State) (h : ∀ (s : State) (a : α), s.Only (f s a) ps)
    (l : List α) (s : State) : s.Only (l.foldl f s) ps := by
  induction l generalizing s with
  | nil => exact State.Only.refl s ps
  | cons a l ih => exact (h s a).trans (ih _)

theorem State.ScreensOnly.only {s t : State} (h : s.ScreensOnly t) : s.Only t [.displays, .strings] := by
  intro p hp
  cases p
  case pending => exact h.pending_eq
  case now => exact h.now_eq
  case straps => exact h.straps_eq
  case ship => exact h.ship_eq
  case node => exact h.node_eq
  case displays => simp at hp
  case nodes => exact h.nodes_eq
  case segments => exact h.segments_eq
  case dests => exact h.dests_eq
  case lists => exact h.lists_eq
  case programme => exact h.programme_eq
  case lastEvaluation => exact h.lastEvaluation_eq
  case cabins => exact h.cabins_eq
  case lossReported => exact h.lossReported_eq
  case notices => exact h.notices_eq
  case templates => exact h.templates_eq
  case selection => exact h.selection_eq
  case texts => exact h.texts_eq
  case regions => exact h.regions_eq
  case strings => simp at hp
  case quietCopy => exact h.quietCopy_eq
  case fore => exact h.fore_eq
  case aft => exact h.aft_eq
  case address => exact h.address_eq
  case watermark => exact h.watermark_eq
  case replies => exact h.replies_eq
  case reports => exact h.reports_eq
  case reportArrival => exact h.reportArrival_eq
  case reportSeq => exact h.reportSeq_eq
  case draws => exact h.draws_eq

end Sys2Proof.Machine
end

