-- ==== Sys2Proof/Laws/Blocks.lean ====
section
/-! SUPPORT. What the operations of each block can change. -/

namespace Sys2Proof.Machine

/-- The parts a mark for update changes. -/
abbrev screenParts : List Part := [.displays, .strings]

/-- The parts a report changes. -/
abbrev reportParts : List Part := [.reports, .reportArrival]

/-- The parts a recount changes. -/
abbrev lossParts : List Part := [.lossReported, .reports, .reportArrival]

theorem markBy_only (s : State) (f : Nat → Display → Option Urgency) : s.Only (s.markBy f) screenParts := (markBy_screens s f).only

theorem markWhere_only (s : State) (p : Nat → Display → Bool) (u : Urgency) : s.Only (s.markWhere p u) screenParts :=
  (markWhere_screens s p u).only

theorem markAll_only (s : State) (u : Urgency) : s.Only (s.markAll u) screenParts := (markAll_screens s u).only

theorem mark_only (s : State) (d : Nat) (u : Urgency) : s.Only (s.mark d u) screenParts := (mark_screens s d u).only

theorem clearHeldMany_only (s : State) (ds : List Nat) (p : Nat → Bool) : s.Only (s.clearHeldMany ds p) screenParts :=
  (clearHeldMany_screens s ds p).only

/-! ### Reports -/

theorem addReport_only (s : State) (k : ReportKind) (a b : Nat) : s.Only (s.addReport k a b) reportParts := by
  intro p hp
  cases p <;> first | rfl | simp at hp

/-- R159, R160: queueing a report changes the Report Queue and its arrival counter alone. -/
theorem queueReport_only (s : State) (k : ReportKind) (a b : Nat) : s.Only (s.queueReport k a b) reportParts := by
  unfold State.queueReport
  split
  · intro p hp
    cases p <;> first | rfl | simp at hp
  · split
    · exact addReport_only _ _ _ _
    · split
      · refine State.Only.trans (t := { s with reports := s.reports.eraseP fun r => r.kind.cls == lowestClass s.reports }) ?_
          (addReport_only _ _ _ _)
        intro p hp
        cases p <;> first | rfl | simp at hp
      · exact State.Only.refl _ _

theorem reportLoss_only (s : State) (d n : Nat) : s.Only (s.reportLoss d n) lossParts := by
  unfold State.reportLoss
  split
  · exact State.Only.refl _ _
  · refine State.Only.trans (t := { s with lossReported := Tab.put s.lossReported d n 0 }) ?_
      ((queueReport_only _ _ _ _).mono _ (by decide))
    intro p hp
    cases p <;> first | rfl | simp at hp

/-- R93: a recount changes the last reported count and the Report Queue alone. -/
theorem recount_only (s : State) (d : Nat) : s.Only (s.recount d) lossParts := by
  unfold State.recount
  split
  · split
    · exact reportLoss_only _ _ _
    · exact State.Only.refl _ _
  · exact State.Only.refl _ _

theorem recountStation_only (s : State) (d : Option Nat) : s.Only (s.recountStation d) lossParts := by
  unfold State.recountStation
  split
  · exact recount_only _ _
  · exact State.Only.refl _ _

/-- R84: a PLACEMENT notification changes held values, the last reported counts and the Report Queue alone. -/
theorem placement_only (s : State) (d : Nat) (away : Bool) : s.Only (s.placement d away) (.displays :: lossParts) := by
  have held : s.Only (s.clearHeld d stationPosition) (.displays :: lossParts) := by
    intro p hp
    cases p <;> first | rfl | simp at hp
  unfold State.placement
  split
  · refine State.Only.trans (t := if away then s.clearHeld d stationPosition else s) ?_
      ((recountStation_only _ _).mono _ (by decide))
    split
    · exact held
    · exact State.Only.refl _ _
  · split
    · exact held
    · exact State.Only.refl _ _

/-! ### Ship State Unit -/

theorem onShip_only (s : State) (f : Ship → Ship) : s.Only (s.onShip f) [.ship] := by
  intro p hp
  cases p <;> first | rfl | simp at hp

theorem invalidateAll_only (s : State) : s.Only s.invalidateAll [.dests] := by
  intro p hp
  cases p <;> first | rfl | simp at hp

/-- What a change of the clock can change besides the clock. -/
abbrev clockParts : List Part := [.ship, .programme, .lastEvaluation, .notices, .displays, .strings, .quietCopy]

theorem evaluateQuiet_only (s : State) : s.Only s.evaluateQuiet [.ship, .displays, .strings, .quietCopy] := by
  unfold State.evaluateQuiet
  split
  · exact State.Only.refl _ _
  · have h1 : s.Only (s.onShip fun h => { h with quiet := s.quietNow }) [.ship, .displays, .strings, .quietCopy] :=
      (onShip_only _ _).mono _ (by decide)
    have h2 := ((markWhere_only (s.onShip fun h => { h with quiet := s.quietNow })
      (fun _ x => brightnessUnder (s.onShip fun h => { h with quiet := s.quietNow }).ship.phase s.ship.light s.ship.quiet x.cfg !=
          (s.onShip fun h => { h with quiet := s.quietNow }).brightness x.cfg ||
        (s.onShip fun h => { h with quiet := s.quietNow }).screenModeUnder s.ship.quiet x.cfg !=
          (s.onShip fun h => { h with quiet := s.quietNow }).screenMode x.cfg)
      (s.onShip fun h => { h with quiet := s.quietNow }).writeUrgency).mono [.ship, .displays, .strings, .quietCopy] (by decide))
    refine (h1.trans h2).trans ?_
    intro p hp
    cases p <;> first | rfl | simp at hp

theorem programmeEvaluation_only (s : State) (now : Nat) (first : Bool) :
    s.Only (s.programmeEvaluation now first) [.programme, .lastEvaluation, .displays, .strings] := by
  unfold State.programmeEvaluation
  refine State.Only.trans (t := { s with
    programme := evaluateProgramme s.programme s.node.retention now, lastEvaluation := some now }) ?_
    ((markWhere_only _ _ _).mono _ (by decide))
  intro p hp
  cases p <;> first | rfl | simp at hp

theorem noticeEvaluation_only (s : State) (now : Nat) : s.Only (s.noticeEvaluation now) [.notices, .displays, .strings] := by
  unfold State.noticeEvaluation
  refine State.Only.trans (t := { s with notices := evaluateNotices s.notices now }) ?_
    ((markBy_only _ _).mono _ (by decide))
  intro p hp
  cases p <;> first | rfl | simp at hp

/-- R5: the clock's notifications. -/
theorem clockNotify_only (s : State) (boundary first : Bool) : s.Only (s.clockNotify boundary first) clockParts := by
  unfold State.clockNotify
  refine State.Only.trans ?_ ((evaluateQuiet_only _).mono _ (by decide))
  split
  · exact (((programmeEvaluation_only _ _ _).mono _ (by decide)).trans ((noticeEvaluation_only _ _).mono _ (by decide))).trans
      ((markWhere_only _ _ _).mono _ (by decide))
  · exact (programmeEvaluation_only _ _ _).mono _ (by decide)

theorem advanceSecond_only (s : State) : s.Only s.advanceSecond clockParts := by
  unfold State.advanceSecond
  split
  · exact (onShip_only _ _).mono _ (by decide)
  · exact ((onShip_only _ _).mono _ (by decide)).trans (clockNotify_only _ _ _)

theorem setClock_only (s : State) (d m c : Nat) : s.Only (s.setClock d m c) clockParts := by
  unfold State.setClock
  split
  · exact State.Only.refl _ _
  · exact ((onShip_only _ _).mono _ (by decide)).trans (clockNotify_only _ _ _)

/-- What a change of phase can change. -/
abbrev phaseParts : List Part := [.ship, .dests, .cabins, .displays, .strings, .quietCopy]

theorem clearCabinFlags_only (s : State) : s.Only s.clearCabinFlags [.cabins] := by
  intro p hp
  cases p <;> first | rfl | simp at hp

theorem freeStrings_only (s : State) : s.Only s.freeStrings [.strings] := by
  intro p hp
  cases p <;> first | rfl | simp at hp

/-- R13: a change of phase. -/
theorem changePhase_only (s : State) (new : Phase) (drill : Bool) : s.Only (s.changePhase new drill) phaseParts := by
  unfold State.changePhase
  have h1 : ∀ f, s.Only (s.onShip f) phaseParts := fun f => (onShip_only s f).mono _ (by decide)
  have h2 : ∀ (t : State) (b : Bool), t.Only (if b then t.invalidateAll else t) phaseParts := by
    intro t b
    cases b
    · exact State.Only.refl _ _
    · exact (invalidateAll_only t).mono _ (by decide)
  have h3 : ∀ (t : State) (c : Prop) [Decidable c], t.Only (if c then t.clearCabinFlags else t) phaseParts := by
    intro t c _
    split
    · exact (clearCabinFlags_only t).mono _ (by decide)
    · exact State.Only.refl _ _
  have h4 : ∀ (t : State) (b : Bool), t.Only (if b then t.freeStrings else t) phaseParts := by
    intro t b
    cases b
    · exact State.Only.refl _ _
    · exact (freeStrings_only t).mono _ (by decide)
  have h5 : ∀ (t : State) (u : Urgency), t.Only (t.markAll u).evaluateQuiet phaseParts := fun t u =>
    ((markAll_only t u).mono _ (by decide)).trans ((evaluateQuiet_only _).mono _ (by decide))
  exact (((h1 _).trans (h2 _ _)).trans (h3 _ _)).trans ((h4 _ _).trans (h5 _ _))

theorem setDrill_only (s : State) (b : Bool) : s.Only (s.setDrill b) [.ship, .displays, .strings] := by
  unfold State.setDrill
  split
  · exact State.Only.refl _ _
  · exact ((onShip_only _ _).mono _ (by decide)).trans ((markAll_only _ _).mono _ (by decide))

/-- R9: a PHASE bulletin. -/
theorem takePhase_only (s : State) (q : Phase) (d : Bool) : s.Only (s.takePhase q d) (phaseParts ++ reportParts) := by
  have hc : ∀ p b, s.Only (s.changePhase p b) (phaseParts ++ reportParts) := fun p b => (changePhase_only s p b).mono _ (by decide)
  have hd : ∀ b, s.Only (s.setDrill b) (phaseParts ++ reportParts) := fun b => (setDrill_only s b).mono _ (by decide)
  have hl : ∀ p, s.Only (s.lineHeld p) (phaseParts ++ reportParts) := fun p => (queueReport_only _ _ _ _).mono _ (by decide)
  unfold State.takePhase
  split <;> first | exact State.Only.refl _ _ | exact hc _ _ | exact hd _ | exact hl _

theorem filterLine_only (s : State) : s.Only s.filterLine phaseParts := by
  have hl : ∀ t : State, t.Only t.lineAsserted phaseParts := by
    intro t
    unfold State.lineAsserted
    split <;> first | exact changePhase_only _ _ _ | exact (setDrill_only _ _).mono _ (by decide)
  unfold State.filterLine
  dsimp only
  split
  · exact ((onShip_only _ _).mono _ (by decide)).trans (hl _)
  · exact (onShip_only _ _).mono _ (by decide)

theorem holdExpires_only (s : State) : s.Only s.holdExpires phaseParts := by
  unfold State.holdExpires
  split
  · exact (onShip_only _ _).mono _ (by decide)
  · exact changePhase_only _ _ _

theorem silenceExpires_only (s : State) : s.Only s.silenceExpires [.ship, .displays, .strings] :=
  ((onShip_only _ _).mono _ (by decide)).trans ((markAll_only _ _).mono _ (by decide))

theorem bridgeAlive_only (s : State) : s.Only s.bridgeAlive phaseParts := by
  unfold State.bridgeAlive
  dsimp only
  split
  · have hr : ∀ t : State, t.Only t.applyRunOut phaseParts := by
      intro t
      unfold State.applyRunOut
      split
      · exact changePhase_only _ _ _
      · exact State.Only.refl _ _
    exact (((onShip_only _ _).mono _ (by decide)).trans ((markAll_only _ _).mono _ (by decide))).trans (hr _)
  · exact (onShip_only _ _).mono _ (by decide)

theorem takeClosures_only (s : State) (f : Nat) (st : List Nat) : s.Only (s.takeClosures f st) [.ship, .dests] := by
  unfold State.takeClosures
  split
  · exact State.Only.refl _ _
  · dsimp only
    split
    · exact ((onShip_only _ _).mono _ (by decide)).trans ((invalidateAll_only _).mono _ (by decide))
    · exact (onShip_only _ _).mono _ (by decide)

theorem takeLight_only (s : State) (l : Nat) : s.Only (s.takeLight l) [.ship, .displays, .strings] := by
  unfold State.takeLight
  split
  · exact State.Only.refl _ _
  · split
    · exact State.Only.refl _ _
    · exact ((onShip_only _ _).mono _ (by decide)).trans ((markWhere_only _ _ _).mono _ (by decide))

theorem cabinMark_only (s : State) (ns : List Nat) : s.Only (s.cabinMark ns) [.cabins, .displays, .strings] := by
  unfold State.cabinMark
  split
  · refine State.Only.trans (t := { s with
      cabins := Tab.mapAll s.cabins fun c => if ns.contains c.number then { c with swept := true } else c }) ?_
      ((markWhere_only _ _ _).mono _ (by decide))
    intro p hp
    cases p <;> first | rfl | simp at hp
  · exact State.Only.refl _ _

theorem assistClear_only (s : State) (ns : List Nat) : s.Only (s.assistClear ns) [.cabins, .displays, .strings] := by
  unfold State.assistClear
  split
  · refine State.Only.trans (t := { s with
      cabins := Tab.mapAll s.cabins fun c => if ns.contains c.number then { c with assist := false } else c }) ?_
      ((markWhere_only _ _ _).mono _ (by decide))
    intro p hp
    cases p <;> first | rfl | simp at hp
  · exact State.Only.refl _ _

/-- What a taken bulletin can change. -/
abbrev bulletinParts : List Part :=
  [.ship, .dests, .cabins, .displays, .strings, .quietCopy, .programme, .lastEvaluation, .notices, .reports, .reportArrival,
   .watermark]

theorem applyBulletin_only (s : State) (b : Bulletin) : s.Only (s.applyBulletin b) bulletinParts := by
  unfold State.applyBulletin
  split
  · exact (setClock_only _ _ _ _).mono _ (by decide)
  · split
    · exact (takePhase_only _ _ _).mono _ (by decide)
    · exact State.Only.refl _ _
  · exact (takeClosures_only _ _ _).mono _ (by decide)
  · exact (takeLight_only _ _).mono _ (by decide)
  · exact (cabinMark_only _ _).mono _ (by decide)
  · exact (assistClear_only _ _).mono _ (by decide)
  · exact State.Only.refl _ _

/-- R1, R15, R155: a BRIDGE bulletin that concerns the 820. -/
theorem takeBulletin_only (s : State) (q : Nat) (b : Bulletin) : s.Only (s.takeBulletin q b) bulletinParts := by
  unfold State.takeBulletin
  split
  · refine State.Only.trans (t := { s with watermark := some q }) ?_
      ((applyBulletin_only _ _).trans ((bridgeAlive_only _).mono _ (by decide)))
    intro p hp
    cases p <;> first | rfl | simp at hp
  · exact (bridgeAlive_only _).mono _ (by decide)

/-! ### Strings -/

/-- What a reply on a string can change. -/
abbrev replyParts : List Part := [.displays, .strings, .reports, .reportArrival, .cabins]

theorem setStr_only (s : State) (k : StringNo) (c : StringCtl) : s.Only (s.setStr k c) replyParts :=
  (setStr_screens s k c).only.mono _ (by decide)

theorem onRuntime_only (s : State) (d : Nat) (f : DisplayRuntime → DisplayRuntime) : s.Only (s.onRuntime d f) replyParts :=
  (onRuntime_screens s d f).only.mono _ (by decide)

theorem sendTry_only (s : State) (k : StringNo) (t : Txn) : s.Only (s.sendTry k t) replyParts := setStr_only _ _ _

theorem release_only (s : State) (k : StringNo) : s.Only (s.release k) replyParts := setStr_only _ _ _

theorem endTxn_only (s : State) (k : StringNo) : s.Only (s.endTxn k) replyParts := setStr_only _ _ _

theorem returnToPlace_only (s : State) (d : Nat) (q : Option (Urgency × Nat)) : s.Only (s.returnToPlace d q) replyParts := by
  unfold State.returnToPlace
  split
  · exact (enterAt_screens _ _ _ _).only.mono _ (by decide)
  · exact onRuntime_only _ _ _

theorem applyStale_only (s : State) (d : Nat) : s.Only (s.applyStale d) replyParts := by
  unfold State.applyStale
  split
  · exact State.Only.refl _ _
  · split
    · exact ((setDisplay_screens _ _ _).trans (mark_screens _ _ _)).only.mono _ (by decide)
    · exact State.Only.refl _ _

theorem reply_queueReport_only (s : State) (k : ReportKind) (a b : Nat) : s.Only (s.queueReport k a b) replyParts :=
  (queueReport_only _ _ _ _).mono _ (by decide)

theorem faultReported_only (s : State) (d : Nat) (c : FaultCause) : s.Only (s.faultReported d c) replyParts :=
  (onRuntime_only _ _ _).trans (reply_queueReport_only _ _ _ _)

theorem countFailure_only (s : State) (t : Txn) (c : FaultCause) : s.Only (s.countFailure t c) replyParts := by
  unfold State.countFailure
  split
  · exact State.Only.refl _ _
  · split
    · exact faultReported_only _ _ _
    · exact ((onRuntime_only _ _ _).trans (returnToPlace_only _ _ _)).trans (applyStale_only _ _)

theorem failTransaction_only (s : State) (k : StringNo) (t : Txn) (c : FaultCause) : s.Only (s.failTransaction k t c) replyParts := by
  unfold State.failTransaction
  split
  · exact ((release_only _ _).trans (endTxn_only _ _)).trans (countFailure_only _ _ _)
  · exact (endTxn_only _ _).trans (countFailure_only _ _ _)
  · exact ((release_only _ _).trans (endTxn_only _ _)).trans (onRuntime_only _ _ _)

/-- R140: the end of a failed try. -/
theorem failTry_only (s : State) (k : StringNo) (t : Txn) (c : FaultCause) : s.Only (s.failTry k t c) replyParts := by
  unfold State.failTry
  split
  · exact sendTry_only _ _ _
  · exact failTransaction_only _ _ _ _

theorem setCabin_only (s : State) (i : Nat) (c : Cabin) : s.Only (s.setCabin i c) replyParts := by
  intro p hp
  cases p <;> first | rfl | simp at hp

theorem servicePress_only (s : State) (i b : Nat) : s.Only (s.servicePress i b) replyParts := by
  unfold State.servicePress
  have h1 : ∀ c k a v, s.Only ((s.setCabin i c).queueReport k a v) replyParts := fun c k a v =>
    (setCabin_only _ _ _).trans (reply_queueReport_only _ _ _ _)
  have h2 : ∀ c k a v k' a' v', s.Only (((s.setCabin i c).queueReport k a v).queueReport k' a' v') replyParts :=
    fun c k a v k' a' v' => (h1 c k a v).trans (reply_queueReport_only _ _ _ _)
  split
  · exact State.Only.refl _ _
  · split
    · split
      · exact h1 _ _ _ _
      · split
        · exact h2 _ _ _ _ _ _ _
        · exact h1 _ _ _ _
    · split
      · exact h1 _ _ _ _
      · split
        · exact h2 _ _ _ _ _ _ _
        · exact h1 _ _ _ _
    · exact reply_queueReport_only _ _ _ _
    · exact State.Only.refl _ _

theorem assistPress_only (s : State) (i : Nat) : s.Only (s.assistPress i) replyParts := by
  unfold State.assistPress
  split
  · exact State.Only.refl _ _
  · exact (setCabin_only _ _ _).trans (reply_queueReport_only _ _ _ _)

/-- R86: the button events of a poll. -/
theorem takeEvents_only (s : State) (d : Nat) (cs : List Nat) : s.Only (s.takeEvents d cs) replyParts := by
  unfold State.takeEvents
  split
  · exact State.Only.refl _ _
  · split
    · exact State.Only.refl _ _
    · split
      · exact (foldl_only _ (fun t _ => assistPress_only t _) _ _).trans ((mark_only _ _ _).mono _ (by decide))
      · split
        · exact (foldl_only _ (fun t b => servicePress_only t _ b) _ _).trans ((mark_only _ _ _).mono _ (by decide))
        · exact State.Only.refl _ _

theorem mismatch_only (s : State) (k : StringNo) (t : Txn) : s.Only (s.mismatch k t) replyParts := by
  unfold State.mismatch
  split
  · exact ((release_only _ _).trans (endTxn_only _ _)).trans (faultReported_only _ _ _)
  · exact State.Only.refl _ _
  · exact ((release_only _ _).trans (endTxn_only _ _)).trans (onRuntime_only _ _ _)

theorem onReady_only (s : State) (k : StringNo) (t : Txn) (c : Nat) : s.Only (s.onReady k t c) replyParts := by
  unfold State.onReady
  split
  · exact endTxn_only _ _
  · split
    · split
      · exact sendTry_only _ _ _
      · exact ((((release_only _ _).trans (endTxn_only _ _)).trans (onRuntime_only _ _ _)).trans
          (reply_queueReport_only _ _ _ _)).trans ((mark_only _ _ _).mono _ (by decide))
      · exact State.Only.refl _ _
    · exact mismatch_only _ _ _

theorem onBusy_only (s : State) (k : StringNo) (t : Txn) (ms : Nat) : s.Only (s.onBusy k t ms) replyParts := by
  unfold State.onBusy
  dsimp only
  split
  · exact ((endTxn_only _ _).trans (onRuntime_only _ _ _)).trans (onRuntime_only _ _ _)
  · exact (((endTxn_only _ _).trans (onRuntime_only _ _ _)).trans (returnToPlace_only _ _ _)).trans (applyStale_only _ _)
  · exact (endTxn_only _ _).trans (onRuntime_only _ _ _)

theorem onRefresh_only (s : State) (k : StringNo) (t : Txn) (dg : Word16) (ms : Nat) :
    s.Only (s.onRefresh k t dg ms) replyParts :=
  (((release_only _ _).trans (endTxn_only _ _)).trans (onRuntime_only _ _ _)).trans (applyStale_only _ _)

theorem onEvents_only (s : State) (k : StringNo) (t : Txn) (cs : List Nat) : s.Only (s.onEvents k t cs) replyParts :=
  ((((endTxn_only _ _).trans (onRuntime_only _ _ _)).trans (returnToPlace_only _ _ _)).trans (applyStale_only _ _)).trans
    (takeEvents_only _ _ _)

/-- R140: a reply on a string. -/
theorem stringReply_only (s : State) (k : StringNo) (tag : Nat) (r : StringReply) : s.Only (s.stringReply k tag r) replyParts := by
  unfold State.stringReply
  split
  · exact State.Only.refl _ _
  · split
    · unfold State.answer
      split
      · exact onReady_only _ _ _ _
      · exact onBusy_only _ _ _ _
      · exact sendTry_only _ _ _
      · exact onRefresh_only _ _ _ _ _
      · exact onEvents_only _ _ _ _
      · exact failTry_only _ _ _ _
    · exact State.Only.refl _ _

theorem openTxn_screens (s : State) (k : StringNo) (t : Txn) : s.ScreensOnly (s.openTxn k t) := rfl

/-- R139: a take for a dispatch. -/
theorem takeDispatch_screens (s : State) (k : StringNo) (d : Nat) (u : Urgency) (n : Nat) :
    s.ScreensOnly (s.takeDispatch k d u n) := by
  unfold State.takeDispatch
  split
  · rfl
  · rename_i x _
    dsimp only
    have h := (leaveQueue_screens s d).trans (show (s.leaveQueue d).ScreensOnly ((s.leaveQueue d).writeHeld d x) from rfl)
    split
    · split
      · exact h.trans rfl
      · exact h.trans rfl
    · exact h.trans rfl

theorem takePoll_screens (s : State) (k : StringNo) (d : Nat) : s.ScreensOnly (s.takePoll k d) := by
  unfold State.takePoll
  split
  · rfl
  · exact (leaveQueue_screens s d).trans rfl

theorem takeProbe_screens (s : State) (k : StringNo) (d : Nat) : s.ScreensOnly (s.takeProbe k d) := rfl

/-! ### Solver -/

/-- What the end of a sweep can change. -/
abbrev sweepParts : List Part := [.dests, .displays, .strings, .lossReported, .reports, .reportArrival]

theorem setDest_only (s : State) (d : Nat) (t : Dest) : s.Only (s.setDest d t) sweepParts := by
  intro p hp
  cases p <;> first | rfl | simp at hp

theorem settle_only (s : State) (d : Nat) (t : Dest) : s.Only (s.settle d t) sweepParts := by
  unfold State.settle
  have h : s.Only ((s.setDest d t).markWhere ((s.setDest d t).showsDest fun n => n == d) s.writeUrgency) sweepParts :=
    (setDest_only _ _ _).trans ((markWhere_only _ _ _).mono _ (by decide))
  dsimp only
  split
  · exact h.trans ((recount_only _ _).mono _ (by decide))
  · exact h

/-- R48: the end of a sweep. -/
theorem sweepEnds_only (s : State) : s.Only s.sweepEnds sweepParts := by
  unfold State.sweepEnds
  split
  · split
    · unfold State.sweepDone
      dsimp only
      split
      · exact setDest_only _ _ _
      · exact settle_only _ _ _
    · exact State.Only.refl _ _
  · exact State.Only.refl _ _

theorem solverTakes_only (s : State) : s.Only s.solverTakes [.dests] := by
  unfold State.solverTakes
  split
  · exact State.Only.refl _ _
  · split
    · intro p hp
      cases p <;> first | rfl | simp at hp
    · exact State.Only.refl _ _

end Sys2Proof.Machine
end

