-- ==== Sys2Proof/Laws/Requests.lean ====
section
/-! SUPPORT. What a request can change, and what an arriving frame can. -/

namespace Sys2Proof.Machine

/-- What a request other than RESTART can change when it is carried out. -/
abbrev requestParts : List Part :=
  [.ship, .node, .displays, .nodes, .segments, .dests, .lists, .programme, .cabins, .lossReported, .notices, .templates,
   .selection, .texts, .regions, .strings, .quietCopy, .reports, .reportArrival]

/-- What any request can change. -/
abbrev restartParts : List Part := .fore :: .aft :: .replies :: requestParts

theorem request_screens {s t : State} (h : s.ScreensOnly t) : s.Only t requestParts := h.only.mono _ (by decide)

theorem request_markWhere (s : State) (p : Nat → Display → Bool) (u : Urgency) : s.Only (s.markWhere p u) requestParts :=
  request_screens (markWhere_screens _ _ _)

theorem request_invalidateAll (s : State) : s.Only s.invalidateAll requestParts := (invalidateAll_only s).mono _ (by decide)

theorem request_placement (s : State) (d : Nat) (b : Bool) : s.Only (s.placement d b) requestParts :=
  (placement_only s d b).mono _ (by decide)

theorem request_recountStation (s : State) (d : Option Nat) : s.Only (s.recountStation d) requestParts :=
  (recountStation_only s d).mono _ (by decide)

/-- A WRITE's outcome has changed only what a request can. -/
def WriteOnly (s : State) (w : WriteResult) : Prop := ∀ t b, w = .ok (t, b) → s.Only t requestParts

theorem writeOnly_error (s : State) (r : ResultCode) : WriteOnly s (.error r) := by
  intro t b h
  cases h

theorem writeOnly_ok {s t : State} (b : Bool) (h : s.Only t requestParts) : WriteOnly s (.ok (t, b)) := by
  intro t' b' e
  cases e
  exact h

theorem setNode_only (s : State) (n : NodeParams) : s.Only (s.setNode n) requestParts := by
  unfold State.setNode
  have h1 : s.Only ({ s with node := n } : State) requestParts := by
    intro p hp
    cases p <;> first | rfl | simp at hp
  have h2 : ∀ (t : State) (c : Prop) [Decidable c], t.Only (if c then t.invalidateAll else t) requestParts := by
    intro t c _
    split
    · exact request_invalidateAll t
    · exact State.Only.refl _ _
  have h3 : ∀ (t : State) (c : Prop) [Decidable c], t.Only (if c then t.markAll t.writeUrgency else t) requestParts := by
    intro t c _
    split
    · exact request_screens (markAll_screens _ _)
    · exact State.Only.refl _ _
  have h4 : ∀ (t : State) (c : Prop) [Decidable c], t.Only (if c then t.evaluateQuiet else t) requestParts := by
    intro t c _
    split
    · exact (evaluateQuiet_only t).mono _ (by decide)
    · exact State.Only.refl _ _
  exact ((h1.trans (h2 _ _)).trans (h3 _ _)).trans (h4 _ _)

theorem requeue_screens (s : State) (d : Nat) (x : Display) (b : DisplayConfig) (r : DisplayRuntime) :
    s.ScreensOnly (s.requeue d x b r) := by
  unfold State.requeue
  split
  · split
    · exact ((leaveQueue_screens _ _).trans (setDisplay_screens _ _ _)).trans (enter_screens _ _ _)
    · split
      · exact ((leaveQueue_screens _ _).trans (setDisplay_screens _ _ _)).trans (enterAt_screens _ _ _ _)
      · exact setDisplay_screens _ _ _
  · exact setDisplay_screens _ _ _

theorem changeDisplay_only (s : State) (d : Nat) (x : Display) (b : DisplayConfig) : s.Only (s.changeDisplay d x b) requestParts := by
  unfold State.changeDisplay
  have h1 := request_screens (requeue_screens s d x b (x.rt.replaced x.cfg b))
  have h2 : ∀ (t : State) (c : Bool), t.Only (if c then t.mark d t.writeUrgency else t) requestParts := by
    intro t c
    cases c
    · exact State.Only.refl _ _
    · exact request_screens (mark_screens _ _ _)
  have h3 : ∀ (t : State) (c : Prop) [Decidable c] (v : Bool), t.Only (if c then t.placement d v else t) requestParts := by
    intro t c _ v
    split
    · exact request_placement _ _ _
    · exact State.Only.refl _ _
  exact (h1.trans (h2 _ _)).trans (h3 _ _ _)

theorem createDisplay_only (s : State) (d : Nat) (c : DisplayConfig) : s.Only (s.createDisplay d c) requestParts :=
  (request_screens ((setDisplay_screens _ _ _).trans (mark_screens _ _ _))).trans (request_placement _ _ _)

theorem relist_only (s : State) (p : Nat → Bool) : s.Only (s.relist p) requestParts :=
  request_screens ((clearHeldMany_screens _ _ _).trans (markWhere_screens _ _ _))

theorem cabinChanged_only (s : State) (old : Option Cabin) (c : Cabin) : s.Only (s.cabinChanged old c) requestParts := by
  have h1 : s.Only (s.cabinHeld old c) requestParts := by
    unfold State.cabinHeld
    split
    · exact request_screens (clearHeldMany_screens _ _ _)
    · exact State.Only.refl _ _
  have h2 : ∀ t : State, t.Only (t.cabinMarks old c) requestParts := by
    intro t
    unfold State.cabinMarks
    split
    · exact State.Only.refl _ _
    · exact request_markWhere _ _ _
  have h3 : ∀ t : State, t.Only (t.cabinRecounts old c) requestParts := by
    intro t
    unfold State.cabinRecounts
    split
    · split
      · exact request_recountStation _ _
      · exact (request_recountStation _ _).trans (request_recountStation _ _)
    · exact request_recountStation _ _
  unfold State.cabinChanged
  dsimp only
  split
  · exact (h1.trans (h2 _)).trans (h3 _)
  · exact h1.trans (h2 _)

theorem writeTable_only (s : State) (o t i : Nat) (fs : FieldList) : WriteOnly s (s.writeTable o t i fs) := by
  have one : ∀ (u : State), (∀ p, p ∉ requestParts → s.Agree u p) → s.Only u requestParts := fun u h => h
  unfold State.writeTable
  split
  · unfold State.writeEmpty
    split
    · split
      · exact writeOnly_ok _ (State.Only.refl _ _)
      · exact writeOnly_error _ _
    · exact writeOnly_ok _ (request_invalidateAll _)
    · exact writeOnly_ok _ (request_invalidateAll _)
    · refine writeOnly_ok _ ?_
      intro p hp
      cases p <;> first | rfl | simp at hp
    · exact writeOnly_ok _ (State.Only.refl _ _)
  split
  · unfold State.writeNode
    split
    · exact writeOnly_error _ _
    · exact writeOnly_ok _ (setNode_only _ _)
  · unfold State.writeDisplay
    split
    · exact writeOnly_error _ _
    · split
      · dsimp only
        split
        · exact writeOnly_error _ _
        · exact writeOnly_ok _ (createDisplay_only _ _ _)
      · dsimp only
        split
        · exact writeOnly_error _ _
        · split
          · exact writeOnly_error _ _
          · exact writeOnly_ok _ (changeDisplay_only _ _ _ _)
  · unfold State.writeString
    dsimp only
    split
    · exact writeOnly_error _ _
    · split
      · exact writeOnly_error _ _
      · exact writeOnly_ok _ (request_screens (setStr_screens _ _ _))
  · unfold State.writeNodes
    split
    · exact writeOnly_error _ _
    · refine writeOnly_ok _ (State.Only.trans (one _ ?_) (request_invalidateAll _))
      intro p hp
      cases p <;> first | rfl | simp at hp
  · unfold State.writeSegment
    dsimp only
    split
    · exact writeOnly_error _ _
    split
    · exact writeOnly_error _ _
    split
    · exact writeOnly_error _ _
    split
    · exact writeOnly_error _ _
    · refine writeOnly_ok _ (State.Only.trans (one _ ?_) (request_invalidateAll _))
      intro p hp
      cases p <;> first | rfl | simp at hp
  · unfold State.writeDest
    split
    · exact writeOnly_error _ _
    split
    · exact writeOnly_error _ _
    · refine writeOnly_ok _ (one _ ?_)
      intro p hp
      cases p <;> first | rfl | simp at hp
  · unfold State.writeList
    split
    · exact writeOnly_error _ _
    · refine writeOnly_ok _ (State.Only.trans (one _ ?_) (relist_only _ _))
      intro p hp
      cases p <;> first | rfl | simp at hp
  · unfold State.writeProgramme
    split
    · exact writeOnly_error _ _
    split
    · split
      · exact writeOnly_error _ _
      · refine writeOnly_ok _ (State.Only.trans (one _ ?_) (request_markWhere _ _ _))
        intro p hp
        cases p <;> first | rfl | simp at hp
    · split
      · exact writeOnly_error _ _
      · unfold State.updateEntry
        dsimp only
        split
        · exact writeOnly_ok _ (State.Only.refl _ _)
        · refine writeOnly_ok _ (State.Only.trans (one _ ?_) (request_markWhere _ _ _))
          intro p hp
          cases p <;> first | rfl | simp at hp
  · unfold State.writeCabin
    dsimp only
    split
    · exact writeOnly_error _ _
    split
    · exact writeOnly_error _ _
    split
    · exact writeOnly_error _ _
    · exact writeOnly_ok _ (((setCabin_only _ _ _).mono _ (by decide)).trans (cabinChanged_only _ _ _))
  · unfold State.writeNotice
    dsimp only
    split
    · exact writeOnly_error _ _
    split
    · exact writeOnly_error _ _
    · refine writeOnly_ok _ ?_
      have h : ∀ ns, s.Only ({ s with notices := ns } : State) requestParts := by
        intro ns p hp
        cases p <;> first | rfl | simp at hp
      split
      · exact h _
      · exact (h _).trans (request_screens (markBy_screens _ _))
  · unfold State.writeText
    split
    · exact writeOnly_error _ _
    · refine writeOnly_ok _ (State.Only.trans (one _ ?_) (request_screens (markAll_screens _ _)))
      intro p hp
      cases p <;> first | rfl | simp at hp
  · unfold State.writeTemplate
    split
    · exact writeOnly_error _ _
    split
    · exact writeOnly_error _ _
    · refine writeOnly_ok _ (State.Only.trans (one _ ?_) (request_markWhere _ _ _))
      intro p hp
      cases p <;> first | rfl | simp at hp
  · unfold State.writeSelection
    split
    · exact writeOnly_error _ _
    · refine writeOnly_ok _ (State.Only.trans (one _ ?_) (request_markWhere _ _ _))
      intro p hp
      cases p <;> first | rfl | simp at hp
  · unfold State.writeRegion
    dsimp only
    split
    · exact writeOnly_error _ _
    split
    · exact writeOnly_error _ _
    · refine writeOnly_ok _ (one _ ?_)
      intro p hp
      cases p <;> first | rfl | simp at hp
  · exact writeOnly_error _ _

end Sys2Proof.Machine
end

