-- ==== Sys2Proof/Laws/Responder.lean ====
section
/-! SUPPORT. What CLEAR, CLEAR_TABLE, the whole of a request and an arriving frame can change; a refusal changes nothing. -/

namespace Sys2Proof.Machine

theorem removeDisplay_only (s : State) (d : Nat) : s.Only (s.removeDisplay d) requestParts := by
  unfold State.removeDisplay
  refine State.Only.trans (t := s.leaveQueue d) (request_screens (leaveQueue_screens _ _)) ?_
  refine State.Only.trans (t := { s.leaveQueue d with displays := Tab.discard (s.leaveQueue d).displays d }) ?_
    (request_placement _ _ _)
  intro p hp
  cases p <;> first | rfl | simp at hp

/-- A CLEAR's outcome has changed only what a request can. -/
def ClearOnly (s : State) (w : Except ResultCode State) : Prop := ∀ t, w = .ok t → s.Only t requestParts

theorem clearOnly_error (s : State) (r : ResultCode) : ClearOnly s (.error r) := by
  intro t h
  cases h

theorem clearOnly_ok {s t : State} (h : s.Only t requestParts) : ClearOnly s (.ok t) := by
  intro t' e
  cases e
  exact h

theorem clearDisplays_only (s : State) (hit : Nat → Bool) : ClearOnly s (s.clearDisplays hit) := by
  unfold State.clearDisplays
  dsimp only
  split
  · exact clearOnly_error _ _
  · exact clearOnly_ok (foldl_only _ (fun t d => removeDisplay_only t d) _ _)

theorem clearString_only (s : State) (i : Nat) : ClearOnly s (s.clearString i) := by
  unfold State.clearString
  split
  · exact clearOnly_error _ _
  · exact clearOnly_ok (request_screens (setStr_screens _ _ _))

theorem clearStrings_only (s : State) : ClearOnly s s.clearStrings := by
  unfold State.clearStrings
  split
  · refine clearOnly_ok ?_
    intro p hp
    cases p <;> first | rfl | simp at hp
  · exact clearOnly_error _ _

theorem clearNodes_only (s : State) (hit : Nat → Bool) : s.Only (s.clearNodes hit) requestParts := by
  unfold State.clearNodes
  split
  · exact State.Only.refl _ _
  · refine State.Only.trans (t := { s with nodes := Tab.without s.nodes hit }) ?_ (request_invalidateAll _)
    intro p hp
    cases p <;> first | rfl | simp at hp

theorem clearSegments_only (s : State) (hit : Nat → Bool) : s.Only (s.clearSegments hit) requestParts := by
  unfold State.clearSegments
  split
  · exact State.Only.refl _ _
  · refine State.Only.trans (t := { s with segments := Tab.without s.segments hit }) ?_ (request_invalidateAll _)
    intro p hp
    cases p <;> first | rfl | simp at hp

theorem destRemoved_only (s : State) (d : Nat) (t : Dest) : s.Only (s.destRemoved d t) requestParts := by
  unfold State.destRemoved
  split
  · exact (reportLoss_only _ _ _).mono _ (by decide)
  · exact State.Only.refl _ _

theorem clearHeldOf_only (s : State) (hit : Nat → Bool) : s.Only (s.clearHeldOf hit) requestParts := by
  intro p hp
  cases p <;> first | rfl | simp at hp

theorem clearDest_only (s : State) (d : Nat) : s.Only (s.clearDest d) requestParts := by
  unfold State.clearDest
  split
  · exact State.Only.refl _ _
  · dsimp only
    refine State.Only.trans ?_ (destRemoved_only _ _ _)
    refine State.Only.trans ?_ (request_markWhere _ _ _)
    refine State.Only.trans (t := s.clearHeldOf fun n => n == d) (clearHeldOf_only s _) ?_
    intro p hp
    cases p <;> first | rfl | simp at hp

theorem clearList_only (s : State) (i : Nat) : s.Only (s.clearList i) requestParts := by
  unfold State.clearList
  refine State.Only.trans (t := { s with lists := Tab.discard s.lists i }) ?_ (relist_only _ _)
  intro p hp
  cases p <;> first | rfl | simp at hp

theorem clearProgramme_only (s : State) (id : Nat) : s.Only (s.clearProgramme id) requestParts := by
  unfold State.clearProgramme
  split
  · exact State.Only.refl _ _
  · refine State.Only.trans (t := { s with programme := removeEntry id s.programme }) ?_ (request_markWhere _ _ _)
    intro p hp
    cases p <;> first | rfl | simp at hp

theorem removeCabin_only (s : State) (i : Nat) : s.Only (s.removeCabin i) requestParts := by
  unfold State.removeCabin
  split
  · exact State.Only.refl _ _
  · refine State.Only.trans ?_ (request_screens (mark_screens _ _ _))
    refine State.Only.trans (t := { s with cabins := Tab.discard s.cabins i }) ?_ (request_screens (clearHeld_screens _ _ _))
    intro p hp
    cases p <;> first | rfl | simp at hp

theorem clearCabin_only (s : State) (i : Nat) : s.Only (s.clearCabin i) requestParts := by
  unfold State.clearCabin
  split
  · exact State.Only.refl _ _
  · exact (removeCabin_only _ _).trans (request_recountStation _ _)

theorem clearCabins_only (s : State) : s.Only s.clearCabins requestParts :=
  (foldl_only _ (fun t i => removeCabin_only t i) _ _).trans
    (foldl_only _ (fun t d => (recount_only t d).mono _ (by decide)) _ _)

theorem clearNotice_only (s : State) (i : Nat) : s.Only (s.clearNotice i) requestParts := by
  unfold State.clearNotice
  split
  · exact State.Only.refl _ _
  · refine State.Only.trans (t := { s with notices := Tab.discard s.notices i }) ?_ (request_screens (markBy_screens _ _))
    intro p hp
    cases p <;> first | rfl | simp at hp

theorem clearTexts_only (s : State) (o : Nat) (hit : Nat → Bool) : s.Only (s.clearTexts o hit) requestParts := by
  unfold State.clearTexts
  refine State.Only.trans (t := { s with texts := Tab.without s.texts hit }) ?_ (request_screens (markAll_screens _ _))
  intro p hp
  cases p <;> first | rfl | simp at hp

theorem clearTemplate_only (s : State) (i : Nat) : s.Only (s.clearTemplate i) requestParts := by
  unfold State.clearTemplate State.markTemplates
  split
  · exact State.Only.refl _ _
  · refine State.Only.trans (t := { s with templates := Tab.discard s.templates i }) ?_ (request_markWhere _ _ _)
    intro p hp
    cases p <;> first | rfl | simp at hp

theorem clearSelection_only (s : State) (i : Nat) : s.Only (s.clearSelection i) requestParts := by
  unfold State.clearSelection State.markSelection
  refine State.Only.trans (t := s.setSelection i none) ?_ (request_markWhere _ _ _)
  intro p hp
  cases p <;> first | rfl | simp at hp

theorem clearSelections_only (s : State) : s.Only s.clearSelections requestParts :=
  foldl_only _ (fun t i => clearSelection_only t i) _ _

theorem setRegion_only (s : State) (i : Nat) (r : Region) : s.Only (s.setRegion i r) requestParts := by
  intro p hp
  cases p <;> first | rfl | simp at hp

theorem clearEntry_only (s : State) (o t i : Nat) : ClearOnly s (s.clearEntry o t i) := by
  unfold State.clearEntry
  dsimp only
  split
  · exact clearOnly_ok (setNode_only _ _)
  · exact clearDisplays_only _ _
  · exact clearString_only _ _
  · exact clearOnly_ok (clearNodes_only _ _)
  · exact clearOnly_ok (clearSegments_only _ _)
  · exact clearOnly_ok (clearDest_only _ _)
  · exact clearOnly_ok (clearList_only _ _)
  · exact clearOnly_ok (clearProgramme_only _ _)
  · exact clearOnly_ok (clearCabin_only _ _)
  · exact clearOnly_ok (clearNotice_only _ _)
  · exact clearOnly_ok (clearTexts_only _ _ _)
  · exact clearOnly_ok (clearTemplate_only _ _)
  · exact clearOnly_ok (clearSelection_only _ _)
  · exact clearOnly_ok (setRegion_only _ _ _)
  · exact clearOnly_error _ _

theorem clearAll_only (s : State) (o t : Nat) : ClearOnly s (s.clearAll o t) := by
  unfold State.clearAll
  dsimp only
  split
  · exact clearOnly_ok (setNode_only _ _)
  · exact clearDisplays_only _ _
  · exact clearStrings_only _
  · exact clearOnly_ok (clearNodes_only _ _)
  · exact clearOnly_ok (clearSegments_only _ _)
  · exact clearOnly_ok (foldl_only _ (fun t i => clearDest_only t i) _ _)
  · exact clearOnly_ok (foldl_only _ (fun t i => clearList_only t i) _ _)
  · exact clearOnly_ok (foldl_only _ (fun t i => clearProgramme_only t i) _ _)
  · exact clearOnly_ok (clearCabins_only _)
  · exact clearOnly_ok (foldl_only _ (fun t i => clearNotice_only t i) _ _)
  · exact clearOnly_ok (clearTexts_only _ _ _)
  · exact clearOnly_ok (foldl_only _ (fun t i => clearTemplate_only t i) _ _)
  · exact clearOnly_ok (clearSelections_only _)
  · refine clearOnly_ok ?_
    intro p hp
    cases p <;> first | rfl | simp at hp
  · exact clearOnly_error _ _

theorem warmRestart_only (s : State) : s.Only s.warmRestart restartParts := by
  unfold State.warmRestart State.restartDisplays
  dsimp only
  refine State.Only.trans ?_ ((request_screens (markAll_screens _ _)).mono _ (by decide))
  intro p hp
  cases p <;> first | rfl | simp at hp

theorem adjustSteps_only (s : State) (k v c : Nat) : s.Only (s.adjustSteps k v c) requestParts := by
  unfold State.adjustSteps
  refine State.Only.trans ?_ (request_markWhere _ _ _)
  intro p hp
  cases p <;> first | rfl | simp at hp

/-! ### Answers -/

/-- An answer's state has changed only some parts, and is the state before where the request is refused. -/
structure AnswerOk (ps : List Part) (s : State) (a : Answer) : Prop where
  only : s.Only a.state ps
  refused : 2 ≤ a.code.code → a.state = s ∧ a.data = []

theorem refuse_ok (ps : List Part) (s : State) (r : ResultCode) : AnswerOk ps s (s.refuse r) :=
  ⟨State.Only.refl _ _, fun _ => ⟨rfl, rfl⟩⟩

theorem checked_ok {ps : List Part} {s : State} (cs : List (Bool × ResultCode)) {a : Answer} (h : AnswerOk ps s a) :
    AnswerOk ps s (s.checked cs a) := by
  unfold State.checked
  split
  · exact refuse_ok _ _ _
  · exact h

theorem done_ok {ps : List Part} {s t : State} (h : s.Only t ps) : AnswerOk ps s t.done :=
  ⟨h, fun g => absurd g (by simp [State.done, ResultCode.code])⟩

theorem doneWith_ok (ps : List Part) (s : State) (e : Bool × FieldList) : AnswerOk ps s (s.doneWith e) :=
  ⟨State.Only.refl _ _, fun g => absurd g (by simp [State.doneWith, ResultCode.code])⟩

theorem ofWrite_ok {s : State} {w : WriteResult} (h : WriteOnly s w) : AnswerOk requestParts s (s.ofWrite w) := by
  unfold State.ofWrite
  split
  · exact refuse_ok _ _ _
  · rename_i t b
    refine ⟨h t b rfl, fun g => absurd g ?_⟩
    cases b <;> simp [ResultCode.code]

theorem ofClear_ok {s : State} {w : Except ResultCode State} (h : ClearOnly s w) : AnswerOk requestParts s (s.ofClear w) := by
  unfold State.ofClear
  split
  · exact refuse_ok _ _ _
  · exact done_ok (h _ rfl)

/-- R163: a request other than RESTART changes only what a request can, and a refused one nothing. -/
theorem respond_plain (s : State) (o : Nat) (r : Request) (hr : r ≠ .restart) : AnswerOk requestParts s (s.respond o r) := by
  unfold State.respond
  split
  · exact checked_ok _ (ofWrite_ok (writeTable_only _ _ _ _ _))
  · exact checked_ok _ (doneWith_ok _ _ _)
  · exact checked_ok _ (ofClear_ok (clearEntry_only _ _ _ _))
  · exact checked_ok _ (ofClear_ok (clearAll_only _ _ _))
  · exact checked_ok _ (done_ok (adjustSteps_only _ _ _ _))
  · exact checked_ok _ (done_ok (request_screens (setStr_screens _ _ _)))
  · exact checked_ok _ (done_ok (request_screens (setStr_screens _ _ _)))
  · exact checked_ok _ (done_ok (request_screens (onRuntime_screens _ _ _)))
  · exact absurd rfl hr
  · exact doneWith_ok _ _ _
  · exact checked_ok _ (doneWith_ok _ _ _)
  · exact doneWith_ok _ _ _
  · exact refuse_ok _ _ _

/-- R163: a request changes only what a request can, and a refused one nothing. -/
theorem respond_ok (s : State) (o : Nat) (r : Request) : AnswerOk restartParts s (s.respond o r) := by
  by_cases hr : r = .restart
  · subst hr
    exact checked_ok _ (done_ok (warmRestart_only s))
  · have h := respond_plain s o r hr
    exact ⟨h.only.mono _ (by decide), h.refused⟩

/-! ### Frames -/

/-- What an arriving frame can change. -/
abbrev frameParts : List Part := .lastEvaluation :: .watermark :: .draws :: restartParts

theorem setPort_only (s : State) (p : Port) (l : LinkPort) : s.Only (s.setPort p l) [.fore, .aft] := by
  intro q hq
  cases p <;> cases q <;> first | rfl | simp at hq

theorem takeRequest_only (s : State) (p : Port) (f : Frame) (r : Request) : s.Only (s.takeRequest p f r) frameParts := by
  have h := ((respond_ok s f.origin r).only).mono frameParts (by decide)
  unfold State.takeRequest
  dsimp only
  split
  · split
    · exact State.Only.refl _ _
    · refine h.trans ?_
      unfold State.oweReply
      split <;> (intro q hq; cases q <;> first | rfl | simp at hq)
  · exact h

theorem act_only (s : State) (p : Port) (f : Frame) (c : Content) : s.Only (s.act p f c) frameParts := by
  unfold State.act
  split
  · split
    · exact (takeBulletin_only _ _ _).mono _ (by decide)
    · exact State.Only.refl _ _
  · split
    · exact takeRequest_only _ _ _ _
    · exact State.Only.refl _ _
  · exact State.Only.refl _ _

theorem forward_only (s : State) (p : Port) (f : Frame) : s.Only (s.forward p f) frameParts := by
  unfold State.forward
  dsimp only
  split
  · exact (setPort_only _ _ _).mono _ (by decide)
  · exact State.Only.refl _ _

/-- R151 to R154: an arriving frame. -/
theorem frameArrives_only (s : State) (p : Port) (f : Frame) (c : Content) : s.Only (s.frameArrives p f c) frameParts := by
  have h : s.Only (if s.concerns f.dest then s.act p f c else s) frameParts := by
    split
    · exact act_only _ _ _ _
    · exact State.Only.refl _ _
  unfold State.frameArrives
  split
  · dsimp only
    split
    · exact h.trans (forward_only _ _ _)
    · exact h
  · exact State.Only.refl _ _

theorem bytesArrive_only (s : State) (p : Port) (bs : List Byte) : s.Only (s.bytesArrive p bs) frameParts := by
  unfold State.bytesArrive
  split
  · exact frameArrives_only _ _ _ _
  · exact State.Only.refl _ _

end Sys2Proof.Machine
end

