-- ==== Sys2Proof/Laws/Arrivals.lean ====
section
/-! SUPPORT. What an arriving bulletin or request comes to, said once in the situations that the statements name. -/

namespace Sys2Proof.Machine

theorem concerns_iff (s : State) (dest : Nat) : s.concerns dest = true ↔ s.ConcernedBy dest := by
  unfold State.concerns State.ConcernedBy
  simp only [Bool.or_eq_true, beq_iff_eq, Option.any_eq_true, or_assoc]

theorem ownFrame_iff (s : State) (f : Frame) : s.ownFrame f = true ↔ f.origin = originController ∧ s.address = some f.node := by
  unfold State.ownFrame
  simp only [Bool.and_eq_true, beq_iff_eq]

/-- A BRIDGE bulletin that concerns the 820 is taken or ignored, and then forwarded where R152 says so. -/
theorem bulletinArrives_hears {s : State} {a : Arrival} (h : s.Hears a) {b : Bulletin} (hl : b.bytes.length ≤ 1024) :
    s.bulletinArrives a b =
      if s.forwards (a.bulletinFrame b) then (s.takeBulletin a.seq b).forward a.port (a.bulletinFrame b)
      else s.takeBulletin a.seq b := by
  obtain ⟨hu, ho, hc⟩ := h
  have hown : s.ownFrame (a.bulletinFrame b) = false := by
    simp [State.ownFrame, Arrival.bulletinFrame, ho, originBridge, originController]
  have hcon : s.concerns (a.bulletinFrame b).dest = true := (concerns_iff _ _).2 hc
  have ho' : (a.bulletinFrame b).origin = originBridge := ho
  have hl' : (a.bulletinFrame b).body.length ≤ Config.maxBodyLength := hl
  simp only [State.bulletinArrives, State.frameArrives, hu, hown, hcon, decide_eq_true hl', Bool.and_true, Bool.not_false,
    if_true, State.act, ho']
  rfl

/-- A forwarded copy touches the other port's queue alone. -/
theorem forward_queues (s : State) (p : Port) (f : Frame) :
    { s.forward p f with fore := s.fore, aft := s.aft } = s := by
  unfold State.forward
  dsimp only
  split
  · cases p <;> rfl
  · rfl

/-- A node-addressed request is not forwarded. -/
theorem not_forwards {s : State} {f : Frame} (h : s.address = some f.dest) : s.forwards f = false := by
  simp [State.forwards, h]

/-- R162: a warm restart on a port. -/
theorem warmRestart_fore (s : State) : s.warmRestart.fore = s.fore.restarted := by
  show (State.markAll _ _).fore = _
  rw [(markAll_screens _ _).fore_eq]
  rfl

theorem warmRestart_aft (s : State) : s.warmRestart.aft = s.aft.restarted := by
  show (State.markAll _ _).aft = _
  rw [(markAll_screens _ _).aft_eq]
  rfl

/-- An answer keeps the ports' states (R162, R175). -/
theorem respond_up (s : State) (o : Nat) (r : Request) (p : Port) : ((s.respond o r).state.port p).up = (s.port p).up := by
  by_cases hr : r = .restart
  · subst hr
    have hw : (s.warmRestart.port p).up = (s.port p).up := by
      cases p
      · show s.warmRestart.fore.up = s.fore.up
        rw [warmRestart_fore]
        rfl
      · show s.warmRestart.aft.up = s.aft.up
        rw [warmRestart_aft]
        rfl
    simp only [State.respond, State.answerRestart, State.checked]
    split
    · rfl
    · exact hw
  · have h := (respond_plain s o r hr).only
    cases p
    · exact congrArg LinkPort.up (h .fore (by decide))
    · exact congrArg LinkPort.up (h .aft (by decide))

/-- R156, R157: a node-addressed request that finds room is answered. -/
theorem requestArrives_asked {s : State} {a : Arrival} (h : s.Asked a) {r : Request} (hl : r.bytes.length ≤ 1024)
    (hk : r.kindCode.isSome = true) :
    s.requestArrives a r =
      (s.respond a.origin r).state.answered a (s.respond a.origin r).code.code (r.kindCode.getD 0)
        (s.respond a.origin r).data := by
  obtain ⟨⟨hu, hn⟩, ho, hd, hr⟩ := h
  have hown : s.ownFrame (a.requestFrame r) = false := by
    simpa [State.ownFrame, Arrival.requestFrame] using fun h => fun h2 => hn ⟨h, h2⟩
  have hcon : s.concerns (a.requestFrame r).dest = true := (concerns_iff _ _).2 (Or.inl hd)
  have hl' : (a.requestFrame r).body.length ≤ Config.maxBodyLength := hl
  have hf : s.forwards (a.requestFrame r) = false := not_forwards hd
  obtain ⟨k, hk⟩ := Option.isSome_iff_exists.1 hk
  have hd' : s.address = some (a.requestFrame r).dest := hd
  have ho' : (a.requestFrame r).origin ≤ originController := ho
  have hup := respond_up s a.origin r a.port
  simp only [State.requestArrives, State.frameArrives, hu, hown, hcon, decide_eq_true hl', Bool.and_true, Bool.not_false,
    if_true, State.act, ho', hf, State.takeRequest, ← hd', Nat.not_le.2 hr, if_false, State.oweReply]
  have hup' : ((s.respond (a.requestFrame r).origin r).state.port a.port).up = true := by rw [← hu]; exact hup
  simp only [hup', if_true, State.answered, State.replyBody, State.kindByte, requestDraws, hk, replyDest]
  rfl

end Sys2Proof.Machine
end

