-- ==== Sys2Proof/Laws/Tables.lean ====
section
/-! SUPPORT. Reads after writes of an indexed table, and its canonical form kept by every table operation. -/

namespace Sys2Proof

variable {α : Type}

/-! ### Reads after writes -/

@[simp] theorem Tab.fetch_nil (k : Nat) : Tab.fetch ([] : Tab α) k = none := rfl

theorem Tab.fetch_cons (i : Nat) (x : α) (t : Tab α) (k : Nat) :
    Tab.fetch ((i, x) :: t) k = if i = k then some x else Tab.fetch t k := rfl

@[simp] theorem Tab.fetch_store_same (t : Tab α) (k : Nat) (v : α) : Tab.fetch (Tab.store t k v) k = some v := by
  induction t with
  | nil => simp [Tab.store, Tab.fetch]
  | cons p t ih =>
    obtain ⟨i, x⟩ := p
    simp only [Tab.store]
    split
    · simp [Tab.fetch]
    · split
      · simp [Tab.fetch]
      · rename_i h1 h2
        simp only [Tab.fetch, if_neg (fun e => h2 (Eq.symm e)), ih]

theorem Tab.fetch_store_ne (t : Tab α) {k j : Nat} (v : α) (h : j ≠ k) : Tab.fetch (Tab.store t k v) j = Tab.fetch t j := by
  induction t with
  | nil => simp [Tab.store, Tab.fetch, Ne.symm h]
  | cons p t ih =>
    obtain ⟨i, x⟩ := p
    simp only [Tab.store]
    split
    · simp [Tab.fetch, Ne.symm h]
    · split
      · rename_i h2
        subst h2
        simp [Tab.fetch, Ne.symm h]
      · simp only [Tab.fetch, ih]

theorem Tab.fetch_store (t : Tab α) (k j : Nat) (v : α) :
    Tab.fetch (Tab.store t k v) j = if j = k then some v else Tab.fetch t j := by
  by_cases h : j = k
  · subst h
    simp
  · rw [Tab.fetch_store_ne t v h, if_neg h]

theorem Tab.fetch_filter_index (t : Tab α) (p : Nat → Bool) (j : Nat) :
    Tab.fetch (t.filter fun e => p e.1) j = if p j then Tab.fetch t j else none := by
  induction t with
  | nil => simp
  | cons e t ih =>
    obtain ⟨i, x⟩ := e
    simp only [List.filter_cons]
    by_cases hp : p i
    · simp only [hp, if_true, Tab.fetch_cons, ih]
      by_cases h : i = j
      · subst h
        simp [hp]
      · simp [h]
    · rw [if_neg hp, ih, Tab.fetch_cons]
      by_cases h : i = j
      · subst h
        simp [hp]
      · simp [h]

theorem Tab.fetch_discard (t : Tab α) (k j : Nat) : Tab.fetch (Tab.discard t k) j = if j = k then none else Tab.fetch t j := by
  unfold Tab.discard
  rw [Tab.fetch_filter_index t (fun i => i != k) j]
  by_cases h : j = k <;> simp [h]

theorem Tab.fetchD_put [DecidableEq α] (t : Tab α) (k j : Nat) (v d : α) :
    Tab.fetchD (Tab.put t k v d) j d = if j = k then v else Tab.fetchD t j d := by
  unfold Tab.put Tab.fetchD
  by_cases hv : v = d
  · simp only [hv, if_true, Tab.fetch_discard]
    split <;> simp
  · simp only [hv, if_false, Tab.fetch_store]
    split <;> simp

theorem Tab.fetch_mapWith (t : Tab α) (f : Nat → α → α) (j : Nat) :
    Tab.fetch (Tab.mapWith t f) j = (Tab.fetch t j).map (f j) := by
  induction t with
  | nil => rfl
  | cons e t ih =>
    obtain ⟨i, x⟩ := e
    simp only [Tab.mapWith, List.map_cons, Tab.fetch_cons] at ih ⊢
    by_cases h : i = j
    · subst h
      simp
    · simp [h, ih]

theorem Tab.fetch_mapAll (t : Tab α) (f : α → α) (j : Nat) : Tab.fetch (Tab.mapAll t f) j = (Tab.fetch t j).map f :=
  Tab.fetch_mapWith t (fun _ => f) j

theorem Tab.fetch_change (t : Tab α) (k j : Nat) (f : α → α) :
    Tab.fetch (Tab.change t k f) j = if j = k then (Tab.fetch t j).map f else Tab.fetch t j := by
  unfold Tab.change
  cases e : Tab.fetch t k with
  | none =>
    by_cases h : j = k
    · subst h
      simp [e]
    · simp [h]
  | some x =>
    simp only [Tab.fetch_store]
    by_cases h : j = k
    · subst h
      simp [e]
    · simp [h]

/-- A listed entry is among the entries. -/
theorem Tab.mem_of_fetch {t : Tab α} {k : Nat} {x : α} (h : Tab.fetch t k = some x) : (k, x) ∈ t := by
  induction t with
  | nil => cases h
  | cons e t ih =>
    obtain ⟨i, y⟩ := e
    simp only [Tab.fetch_cons] at h
    split at h
    · rename_i hi
      cases h
      simp [hi]
    · exact List.mem_cons_of_mem _ (ih h)

/-- An index that is not listed is no entry's. -/
theorem Tab.fetch_none_iff {t : Tab α} {k : Nat} : Tab.fetch t k = none ↔ ∀ e ∈ t, e.1 ≠ k := by
  induction t with
  | nil => simp
  | cons e t ih =>
    obtain ⟨i, y⟩ := e
    simp only [Tab.fetch_cons, List.mem_cons, forall_eq_or_imp]
    by_cases h : i = k <;> simp [h, ih]

/-- In canonical form every entry is the listed one of its index. -/
theorem Tab.fetch_of_mem {t : Tab α} (hr : Machine.Tab.Rising t) {k : Nat} {x : α} (h : (k, x) ∈ t) : Tab.fetch t k = some x := by
  induction t with
  | nil => cases h
  | cons e t ih =>
    obtain ⟨i, y⟩ := e
    obtain ⟨h1, h2⟩ := List.pairwise_cons.1 hr
    simp only [Tab.fetch_cons]
    rcases List.mem_cons.1 h with he | hm
    · cases he
      simp
    · have := h1 _ hm
      simp only at this
      rw [if_neg (by omega)]
      exact ih h2 hm

/-! ### The canonical form -/

theorem Tab.store_rising {t : Tab α} (h : Machine.Tab.Rising t) (k : Nat) (v : α) : Machine.Tab.Rising (Tab.store t k v) := by
  induction t with
  | nil => simp [Tab.store, Machine.Tab.Rising]
  | cons e t ih =>
    obtain ⟨i, x⟩ := e
    obtain ⟨h1, h2⟩ := List.pairwise_cons.1 h
    simp only [Tab.store]
    split
    · rename_i hk
      refine List.pairwise_cons.2 ⟨?_, h⟩
      intro p hp
      rcases List.mem_cons.1 hp with rfl | hp
      · exact hk
      · exact Nat.lt_trans hk (h1 p hp)
    · split
      · rename_i hk
        subst hk
        exact List.pairwise_cons.2 ⟨h1, h2⟩
      · rename_i hk1 hk2
        refine List.pairwise_cons.2 ⟨?_, ih h2⟩
        intro p hp
        have : p.1 = k ∨ p ∈ t := by
          clear ih h h1 h2
          induction t with
          | nil =>
            simp only [Tab.store, List.mem_singleton] at hp
            exact Or.inl (by rw [hp])
          | cons e t ih =>
            obtain ⟨m, y⟩ := e
            simp only [Tab.store] at hp
            split at hp
            · rcases List.mem_cons.1 hp with rfl | hp
              · exact Or.inl rfl
              · exact Or.inr hp
            · split at hp
              · rcases List.mem_cons.1 hp with rfl | hp
                · exact Or.inl rfl
                · exact Or.inr (List.mem_cons_of_mem _ hp)
              · rcases List.mem_cons.1 hp with rfl | hp
                · exact Or.inr (by simp)
                · rcases ih hp with h | h
                  · exact Or.inl h
                  · exact Or.inr (List.mem_cons_of_mem _ h)
        rcases this with h3 | h3
        · simp only
          omega
        · exact h1 p h3

/-- Storing at a listed index keeps the indices. -/
theorem Tab.store_indices {t : Tab α} (h : Machine.Tab.Rising t) {k : Nat} {x : α} (hk : Tab.fetch t k = some x) (v : α) :
    (Tab.store t k v).map (·.1) = t.map (·.1) := by
  induction t with
  | nil => cases hk
  | cons e t ih =>
    obtain ⟨i, y⟩ := e
    obtain ⟨h1, h2⟩ := List.pairwise_cons.1 h
    simp only [Tab.fetch_cons] at hk
    simp only [Tab.store]
    by_cases hi : i = k
    · subst hi
      simp
    · rw [if_neg hi] at hk
      have hl : i < k := h1 _ (Tab.mem_of_fetch hk)
      rw [if_neg (by omega), if_neg (by omega), List.map_cons, ih h2 hk, List.map_cons]

theorem Tab.filter_rising {t : Tab α} (h : Machine.Tab.Rising t) (p : Nat × α → Bool) : Machine.Tab.Rising (t.filter p) :=
  List.Pairwise.filter p h

theorem Tab.discard_rising {t : Tab α} (h : Machine.Tab.Rising t) (k : Nat) : Machine.Tab.Rising (Tab.discard t k) :=
  Tab.filter_rising h _

theorem Tab.put_rising [DecidableEq α] {t : Tab α} (h : Machine.Tab.Rising t) (k : Nat) (v d : α) :
    Machine.Tab.Rising (Tab.put t k v d) := by
  unfold Tab.put
  split
  · exact Tab.discard_rising h k
  · exact Tab.store_rising h k v

theorem Tab.mapWith_rising {t : Tab α} (h : Machine.Tab.Rising t) (f : Nat → α → α) :
    Machine.Tab.Rising (Tab.mapWith t f) := by
  unfold Tab.mapWith Machine.Tab.Rising
  rw [List.pairwise_map]
  exact h

theorem Tab.mapAll_rising {t : Tab α} (h : Machine.Tab.Rising t) (f : α → α) : Machine.Tab.Rising (Tab.mapAll t f) :=
  Tab.mapWith_rising h fun _ => f

theorem Tab.change_rising {t : Tab α} (h : Machine.Tab.Rising t) (k : Nat) (f : α → α) :
    Machine.Tab.Rising (Tab.change t k f) := by
  unfold Tab.change
  split
  · exact Tab.store_rising h _ _
  · exact h

/-! ### Filtered tables and the cells at the start of a solve -/

open Machine

/-- In canonical form, entries that read as an unlisted one may be left out. -/
theorem Tab.fetchD_filter_ne [DecidableEq α] {t : Tab α} (hr : Tab.Rising t) (d : α) (n : Nat) :
    Tab.fetchD (t.filter fun e => e.2 != d) n d = Tab.fetchD t n d := by
  have key : ∀ x, x ≠ d → (Tab.fetch (t.filter fun e => e.2 != d) n = some x ↔ Tab.fetch t n = some x) := by
    intro x hx
    constructor
    · intro h
      exact Tab.fetch_of_mem hr (List.mem_of_mem_filter (Tab.mem_of_fetch h))
    · intro h
      exact Tab.fetch_of_mem (Tab.filter_rising hr _) (List.mem_filter.2 ⟨Tab.mem_of_fetch h, by simp [hx]⟩)
  simp only [Tab.fetchD]
  cases h : Tab.fetch t n with
  | some x =>
    by_cases hx : x = d
    · subst hx
      cases h' : Tab.fetch (t.filter fun e => e.2 != x) n with
      | none => rfl
      | some y =>
        by_cases hy : y = x
        · simp [hy]
        · rw [key y hy, h] at h'
          cases h'
          rfl
    · rw [(key x hx).2 h]
  | none =>
    cases h' : Tab.fetch (t.filter fun e => e.2 != d) n with
    | none => rfl
    | some y =>
      by_cases hy : y = d
      · simp [hy]
      · rw [key y hy, h] at h'
        cases h'

/-- Equal entries put at several indices. -/
theorem Tab.fetch_foldl_store (ns : List Nat) (t : Tab α) (v : α) (n : Nat) :
    Tab.fetch (ns.foldl (fun t n => Tab.store t n v) t) n = if n ∈ ns then some v else Tab.fetch t n := by
  induction ns generalizing t with
  | nil => simp
  | cons m ns ih =>
    rw [List.foldl_cons, ih, Tab.fetch_store]
    by_cases h : n ∈ ns <;> by_cases e : n = m <;> simp [h, e]

/-- R47: every cell at the start of a solve. -/
theorem cellAt_startCells {old : Tab Cell} (hr : Tab.Rising old) (targets : List Nat) (n : Nat) :
    cellAt (startCells old targets) n =
      if n ∈ targets then { effort := some 0, length := 0, hop := none }
      else { cellAt old n with effort := none, hop := none } := by
  unfold cellAt startCells
  by_cases h : n ∈ targets
  · simp [Tab.fetchD, Tab.fetch_foldl_store, h]
  · have := Tab.fetchD_filter_ne (Tab.mapAll_rising hr fun c => { c with effort := none, hop := none }) unlistedCell n
    simp only [Tab.fetchD, Tab.fetch_foldl_store, h, if_false, Tab.fetch_mapAll] at this ⊢
    rw [this]
    cases Tab.fetch old n <;> rfl

end Sys2Proof
end

