-- ==== Sys2Proof/Laws/Displays.lean ====
section
/-! SUPPORT. What a place in a queue and a mark for update make of the display they name, and that they leave the others (R131,
R132). -/

namespace Sys2Proof.Machine

@[simp] theorem display_setStr (s : State) (k : StringNo) (c : StringCtl) (d : Nat) : (s.setStr k c).display d = s.display d := rfl

@[simp] theorem display_setDisplay_same (s : State) (d : Nat) (x : Display) : (s.setDisplay d x).display d = some x :=
  Tab.fetch_store_same _ _ _

theorem display_setDisplay_ne (s : State) {d j : Nat} (x : Display) (h : j ≠ d) : (s.setDisplay d x).display j = s.display j :=
  Tab.fetch_store_ne _ _ h

@[simp] theorem display_leaveQueue (s : State) (d j : Nat) : (s.leaveQueue d).display j = s.display j := by
  unfold State.leaveQueue
  split
  · rfl
  · split <;> rfl

theorem display_enterAt (s : State) (d : Nat) (u : Urgency) (n j : Nat) :
    (s.enterAt d u n).display j =
      if j = d then (s.display d).map fun x => { x with rt := { x.rt with state := .queued u } } else s.display j := by
  unfold State.enterAt
  cases h : s.display d with
  | none =>
    by_cases hj : j = d
    · subst hj
      simp [h]
    · simp [hj]
  | some x =>
    by_cases hj : j = d
    · subst hj
      simp
    · simp only [if_neg hj]
      rw [display_setDisplay_ne _ _ hj, display_setStr]

theorem display_enter (s : State) (d : Nat) (u : Urgency) (j : Nat) :
    (s.enter d u).display j =
      if j = d then (s.display d).map fun x => { x with rt := { x.rt with state := .queued u } } else s.display j := by
  unfold State.enter
  cases h : s.display d with
  | none =>
    by_cases hj : j = d
    · subst hj
      simp [h]
    · simp [hj]
  | some x =>
    simp only [display_enterAt, display_setStr, h]

/-- R132: a mark changes the display it names as its table says, and no other. -/
theorem display_mark (s : State) (d : Nat) (u : Urgency) (j : Nat) :
    (s.mark d u).display j = if j = d then (s.display d).map (·.markedAt u) else s.display j := by
  unfold State.mark
  cases h : s.display d with
  | none =>
    by_cases hj : j = d
    · subst hj
      simp [h]
    · simp [hj]
  | some x =>
    obtain ⟨cfg, rt⟩ := x
    obtain ⟨state, stale⟩ := rt
    cases state with
    | faulted =>
      by_cases hj : j = d
      · subst hj
        simp [h, Display.markedAt, UpdateState.raised]
      · simp [hj]
    | clean => simp [display_enter, h, Display.markedAt, UpdateState.raised]
    | queued v =>
      by_cases hh : u.code < v.code
      · simp [Urgency.higher, hh, display_enter, h, Display.markedAt, UpdateState.raised]
      · by_cases hj : j = d
        · subst hj
          simp [Urgency.higher, hh, h, Display.markedAt, UpdateState.raised]
        · simp [Urgency.higher, hh, hj]
    | opened =>
      by_cases hj : j = d
      · subst hj
        cases stale with
        | none => simp [Display.markedAt, UpdateState.raised]
        | some v => cases u <;> cases v <;> simp [Display.markedAt, UpdateState.raised, Urgency.max, Urgency.code]
      · rw [if_neg hj]
        exact display_setDisplay_ne _ _ hj

/-- R132: a second mark at the same urgency changes nothing more. -/
@[simp] theorem markedAt_markedAt (x : Display) (u : Urgency) : (x.markedAt u).markedAt u = x.markedAt u := by
  obtain ⟨cfg, rt⟩ := x
  obtain ⟨state, stale⟩ := rt
  cases state with
  | queued v => cases u <;> cases v <;> rfl
  | opened => cases stale with
    | none => cases u <;> rfl
    | some v => cases u <;> cases v <;> rfl
  | clean => cases u <;> rfl
  | faulted => rfl

/-- R132: nor does a later one at no higher urgency. -/
theorem markedAt_absorbs (x : Display) {u v : Urgency} (h : u.code ≤ v.code) : (x.markedAt u).markedAt v = x.markedAt u := by
  obtain ⟨cfg, rt⟩ := x
  obtain ⟨state, stale⟩ := rt
  cases state with
  | queued w => cases u <;> cases v <;> cases w <;> first | rfl | exact absurd h (by decide)
  | opened => cases stale with
    | none => cases u <;> cases v <;> first | rfl | exact absurd h (by decide)
    | some w => cases u <;> cases v <;> cases w <;> first | rfl | exact absurd h (by decide)
  | clean => cases u <;> cases v <;> first | rfl | exact absurd h (by decide)
  | faulted => rfl

@[simp] theorem markedAt_cfg (x : Display) (u : Urgency) : (x.markedAt u).cfg = x.cfg := rfl

end Sys2Proof.Machine
end

