-- ==== Sys2Proof/Laws/Evaluations.lean ====
section
/-! SUPPORT. The operations of a clock evaluation, of composition and of a template WRITE, each in the terms of the spec that the
statements use. -/

namespace Sys2Proof.Machine

/-! ### The clock evaluation (R72, R74, R98) -/

/-- R72: the move of one entry. -/
theorem ProgEntry.byClock_eq_movedAt (e : ProgEntry) (now : Nat) : e.byClock now = e.movedAt now := by
  obtain ⟨id, day, start, duration, venue, category, deck, title, status⟩ := e
  have h : ∀ st, ({ id, day, start, duration, venue, category, deck, title, status := st } : ProgEntry).stop =
      day * 1440 + start + duration := fun _ => rfl
  have a : ∀ st, ({ id, day, start, duration, venue, category, deck, title, status := st } : ProgEntry).absStart =
      day * 1440 + start := fun _ => rfl
  cases status <;> simp only [ProgEntry.byClock, ProgEntry.movedAt, statusAt, h, a] <;>
    split_ifs <;> rfl

/-- R74: what is pruned. -/
theorem ProgEntry.prunable_iff (e : ProgEntry) (retention now : Nat) :
    e.prunable retention now = true ↔ e.Outlived retention now := by
  rw [ProgEntry.prunable, Bool.and_eq_true, decide_eq_true_iff, Bool.or_eq_true, beq_iff_eq, beq_iff_eq]
  exact Iff.rfl

/-- R72, R74: the table that an evaluation leaves. -/
theorem evaluateProgramme_eq (t : List ProgEntry) (retention now : Nat) :
    evaluateProgramme t retention now = (t.map (·.movedAt now)).filter fun e => ¬e.Outlived retention now := by
  simp only [evaluateProgramme, ProgEntry.byClock_eq_movedAt]
  congr 1
  funext e
  have h := ProgEntry.prunable_iff e retention now
  cases hp : e.prunable retention now <;> simp_all

/-- R98: a notice that counts. -/
theorem Notice.counts_iff (n : Notice) (p : Phase) : n.counts p = true ↔ n.current = true ∧ n.AboveFloor p := by
  cases p <;> simp [Notice.counts, noticeFloor, Phase.emergency, Notice.AboveFloor] <;> omega

/-- R96: the scope of a notice. -/
theorem Notice.scope_iff (n : Notice) (c : DisplayConfig) : n.scope c = true ↔ n.InScope c := Bool.and_eq_true_iff

/-- R102: the urgency of a notice mark. -/
theorem State.noticeUrgency_eq (s : State) (priority : Nat) :
    s.noticeUrgency priority = noticeUrgencyAt s.ship.phase priority := by
  unfold State.noticeUrgency noticeUrgencyAt
  cases s.ship.phase <;> rfl

/-- R102: the side of a change on which the notice counts. -/
theorem State.countingSide_eq_some (s : State) (n : Option Notice) (o : Notice) :
    s.countingSide n = some o ↔ n = some o ∧ o.current = true ∧ o.AboveFloor s.ship.phase := by
  cases n with
  | none => simp [State.countingSide]
  | some x =>
    by_cases h : x.counts s.ship.phase = true
    · simp only [State.countingSide, h, if_true, Option.some.injEq]
      exact ⟨fun e => ⟨e, e ▸ (x.counts_iff _).1 h⟩, And.left⟩
    · simp only [State.countingSide, h]
      refine ⟨fun e => by simp at e, fun e => absurd ((x.counts_iff _).2 ?_) h⟩
      cases e.1
      exact e.2

/-- R102: a change of a slot marks the displays in scope on a side where the notice counts. -/
theorem State.noticeMark_isSome (s : State) (before after : Option Notice) (c : DisplayConfig) :
    (s.noticeMark before after c).isSome = true ↔ ∃ o, (after = some o ∨ before = some o) ∧ o.CountsFor s.ship.phase c := by
  have hb := s.countingSide_eq_some before
  have ha := s.countingSide_eq_some after
  unfold State.noticeMark Notice.CountsFor
  simp only [← Notice.scope_iff]
  cases hx : s.countingSide before <;> cases hy : s.countingSide after <;> rw [hx] at hb <;> rw [hy] at ha <;> grind

/-- R102: the mark is no less urgent than the priority of each side on which the notice counts asks. -/
theorem State.noticeMark_urgency (s : State) (before after : Option Notice) (c : DisplayConfig) (u : Urgency) (o : Notice)
    (h : s.noticeMark before after c = some u) (hs : after = some o ∨ before = some o) (hc : o.current = true)
    (hf : o.AboveFloor s.ship.phase) : u.code ≤ (noticeUrgencyAt s.ship.phase o.priority).code := by
  have hm : ∀ p q, p ≤ q → (noticeUrgencyAt s.ship.phase q).code ≤ (noticeUrgencyAt s.ship.phase p).code := by
    intro p q hpq
    unfold noticeUrgencyAt
    split_ifs <;> first | rfl | omega | decide
  have hb := s.countingSide_eq_some before o
  have ha := s.countingSide_eq_some after o
  unfold State.noticeMark at h
  simp only [State.noticeUrgency_eq] at h
  cases hx : s.countingSide before <;> cases hy : s.countingSide after <;> rw [hx] at hb h <;> rw [hy] at ha h <;> grind

/-! ### Composition (R84, R114, R115) -/

/-- R114: a text id resolved. -/
theorem State.resolve_textValue (s : State) (t : Option Nat) (g : Nat) : s.TextValue t g (s.resolve t g) := by
  refine ⟨fun h => by subst h; rfl, ?_⟩
  rintro n own english rfl rfl rfl
  rfl

/-- R84: the linked cabin of a present display. -/
theorem State.linkedCabin_iff (s : State) (d : Nat) (x : Display) (c : Cabin) (h : s.display d = some x) :
    s.linkedCabin d = some c ↔ s.LinkedTo d x c := by
  unfold State.linkedCabin State.LinkedTo
  cases hc : s.cabinNaming d with
  | none => simp
  | some e =>
    have hd : e.2.display = d := by simpa using List.find?_some hc
    obtain ⟨i, b⟩ := e
    cases hx : x.cfg.cls <;> simp_all [State.linked]

/-- R58: the destination of a route position of a present display. -/
theorem State.positionDest_iff (s : State) (d : Nat) (x : Display) (p n : Nat) (h : s.display d = some x) :
    s.positionDest d x p = some n ↔ s.RoutePosition d x p n := by
  unfold State.positionDest State.RoutePosition State.listItems
  by_cases hp : p < 8
  · have h8 : p ≠ 8 := by omega
    cases x.cfg.list <;> simp [hp, h8]
  · by_cases h8 : p = 8
    · subst h8
      have hl := State.linkedCabin_iff s d x
      cases hc : s.linkedCabin d with
      | none =>
        have hn : ∀ c, ¬s.LinkedTo d x c := fun c hc' => by simp [(hl c h).2 hc'] at hc
        simp only [State.LinkedTo] at hn
        simp
        grind
      | some c =>
        have hs := (hl c h).1 hc
        simp only [State.LinkedTo] at hs
        simp
        grind
    · simp [hp, h8]

/-! ### Slots (R107) -/

/-- R107: a box clipped. -/
theorem Box.clip_eq_fit (b : Box) (g : Grid) : b.clip g = Box.fit b g := by
  simp [Box.clip, Box.fit, clampTo]

/-- R107: the slot that stands once a WRITE's slot is read and clipped. -/
theorem read_clip {x : RawSlot} {y : Slot} (g : Grid) (h : RawSlot.read x = some y) :
    y.clip g = slotTaken x g y.source y.condition := by
  unfold RawSlot.read at h
  split at h
  · split at h
    · cases h
    · cases h
      rename_i src _ _ _ _
      simp only [Slot.clip, slotTaken, Box.clip_eq_fit, clampTo, argumentTaken, Source.argumentLimit]
      cases src <;> rfl
  · cases h

end Sys2Proof.Machine
end

