-- ==== Sys2Proof/Laws/Fields.lean ====
section
/-! SUPPORT. Field lists (R165): what a list supplies does not depend on its order, and the entry that a WRITE leaves is the one
that the statements describe. -/

namespace Sys2Proof.Machine

/-! ### The order of a field list -/

/-- R165: a field list without a number twice supplies the same in any order. -/
theorem supplied_perm {fs gs : FieldList} (h : fs.Perm gs) (hn : (gs.map (·.1)).Nodup) (n : Nat) : supplied fs n = supplied gs n := by
  induction h with
  | nil => rfl
  | cons p _ ih =>
    rw [List.map_cons, List.nodup_cons] at hn
    simp only [supplied, List.find?_cons] at ih ⊢
    split
    · rfl
    · exact ih hn.2
  | swap p q l =>
    have hpq : p.1 ≠ q.1 := by
      intro h
      simp [h] at hn
    simp only [supplied, List.find?_cons]
    cases hp : p.1 == n <;> cases hq : q.1 == n <;> simp only
    exact absurd ((beq_iff_eq.1 hp).trans (beq_iff_eq.1 hq).symm) hpq
  | trans h1 h2 ih1 ih2 => exact (ih1 ((h2.map _).nodup_iff.2 hn)).trans (ih2 hn)

theorem supplies_eq (fs : FieldList) (n : Nat) : supplies fs n = (supplied fs n).isSome := by
  induction fs with
  | nil => rfl
  | cons p fs ih => by_cases h : p.1 = n <;> simp_all [supplies, supplied]

theorem supplies_perm {fs gs : FieldList} (h : fs.Perm gs) (n : Nat) : supplies fs n = supplies gs n := h.any_eq

theorem unknownField_perm {fs gs : FieldList} (h : fs.Perm gs) (t : Nat) : unknownField t fs = unknownField t gs := h.any_eq

theorem numbersAdjusted_perm {fs gs : FieldList} (h : fs.Perm gs) (t : Nat) : numbersAdjusted t fs = numbersAdjusted t gs := h.any_eq

theorem kindsOk_perm {fs gs : FieldList} (h : fs.Perm gs) (t : Nat) : kindsOk t fs = kindsOk t gs := h.all_eq

/-- R165: a field number that appears twice. -/
theorem hasDuplicate_eq_false_iff (fs : FieldList) : hasDuplicate fs = false ↔ (fs.map (·.1)).Nodup := by
  induction fs with
  | nil => simp [hasDuplicate]
  | cons p fs ih =>
    obtain ⟨n, v⟩ := p
    simp only [hasDuplicate, Bool.or_eq_false_iff, ih, List.map_cons, List.nodup_cons, List.mem_map, List.any_eq_false, beq_iff_eq,
      not_exists, not_and]

/-! ### The pairs of a WRITE, field by field -/

@[simp] theorem supplied_nil (n : Nat) : supplied [] n = none := rfl

@[simp] theorem supplied_given (n m : Nat) (v : Option FieldValue) (fs : FieldList) :
    supplied (given n v ++ fs) m = if n = m then v.or (supplied fs m) else supplied fs m := by
  cases v <;> by_cases h : n = m <;> simp [given, supplied, h]

@[simp] theorem supplied_given_last (n m : Nat) (v : Option FieldValue) : supplied (given n v) m = if n = m then v else none := by
  simpa using supplied_given n m v []

theorem given_keys (n : Nat) (v : Option FieldValue) : ((given n v).map (·.1)).Sublist [n] := by
  cases v <;> simp [given]

theorem SegmentWrite.pairs_nodup (w : SegmentWrite) : (w.pairs.map (·.1)).Nodup := by
  have h : (w.pairs.map (·.1)).Sublist ([1] ++ [2] ++ [3] ++ [4] ++ [5] ++ [6] ++ [7] ++ [8] ++ [9]) := by
    simp only [SegmentWrite.pairs, List.map_append]
    exact ((((((((given_keys _ _).append (given_keys _ _)).append (given_keys _ _)).append (given_keys _ _)).append
      (given_keys _ _)).append (given_keys _ _)).append (given_keys _ _)).append (given_keys _ _)).append (given_keys _ _)
  exact h.nodup (by decide)

theorem CabinWrite.pairs_nodup (w : CabinWrite) : (w.pairs.map (·.1)).Nodup := by
  have h : (w.pairs.map (·.1)).Sublist ([1] ++ [2] ++ [3] ++ [4] ++ [5] ++ [6] ++ [7]) := by
    simp only [CabinWrite.pairs, List.map_append]
    exact ((((((given_keys _ _).append (given_keys _ _)).append (given_keys _ _)).append (given_keys _ _)).append
      (given_keys _ _)).append (given_keys _ _)).append (given_keys _ _)
  exact h.nodup (by decide)

theorem NoticeWrite.pairs_nodup (w : NoticeWrite) : (w.pairs.map (·.1)).Nodup := by
  have h : (w.pairs.map (·.1)).Sublist ([1] ++ [2] ++ [3] ++ [4] ++ [5] ++ [6]) := by
    simp only [NoticeWrite.pairs, List.map_append]
    exact (((((given_keys _ _).append (given_keys _ _)).append (given_keys _ _)).append (given_keys _ _)).append
      (given_keys _ _)).append (given_keys _ _)
  exact h.nodup (by decide)

theorem DisplayWrite.pairs_nodup (w : DisplayWrite) : (w.pairs.map (·.1)).Nodup := by
  have h : (w.pairs.map (·.1)).Sublist
      ([1] ++ [2] ++ [3] ++ [4] ++ [5] ++ [6] ++ [7] ++ [8] ++ [9] ++ [10] ++ [11] ++ [12] ++ [13]) := by
    simp only [DisplayWrite.pairs, List.map_append]
    exact ((((((((((((given_keys _ _).append (given_keys _ _)).append (given_keys _ _)).append (given_keys _ _)).append
      (given_keys _ _)).append (given_keys _ _)).append (given_keys _ _)).append (given_keys _ _)).append (given_keys _ _)).append
      (given_keys _ _)).append (given_keys _ _)).append (given_keys _ _)).append (given_keys _ _)
  exact h.nodup (by decide)

theorem DestWrite.pairs_nodup (w : DestWrite) : (w.pairs.map (·.1)).Nodup := by
  have h : (w.pairs.map (·.1)).Sublist ([1] ++ [2] ++ [3]) := by
    simp only [DestWrite.pairs, List.map_append]
    exact ((given_keys _ _).append (given_keys _ _)).append (given_keys _ _)
  exact h.nodup (by decide)

theorem ProgrammeWrite.pairs_nodup (w : ProgrammeWrite) : (w.pairs.map (·.1)).Nodup := by
  have h : (w.pairs.map (·.1)).Sublist ([1] ++ [2] ++ [3] ++ [4] ++ [5] ++ [6] ++ [7] ++ [8]) := by
    simp only [ProgrammeWrite.pairs, List.map_append]
    exact (((((((given_keys _ _).append (given_keys _ _)).append (given_keys _ _)).append (given_keys _ _)).append
      (given_keys _ _)).append (given_keys _ _)).append (given_keys _ _)).append (given_keys _ _)
  exact h.nodup (by decide)

theorem numField_eq (t : Nat) (fs : FieldList) (n old : Nat) (v : Option Nat) (h : supplied fs n = v.map .number) :
    numField t fs n old = v.elim old (bring t n) := by
  cases v <;> simp [numField, h]

theorem optField_eq (t : Nat) (fs : FieldList) (n : Nat) (old : Option Nat) (v : Option (Option Nat))
    (h : supplied fs n = v.map optValue) : optField t fs n old = v.elim old fun x => x.map (bring t n) := by
  rcases v with _ | _ | _ <;> simp [optField, h, optValue]

theorem flagField_eq (fs : FieldList) (n : Nat) (old : Bool) (v : Option Bool) (h : supplied fs n = v.map .flag) :
    flagField fs n old = v.getD old := by
  cases v <;> simp [flagField, h]

theorem listField_eq (fs : FieldList) (n : Nat) (old : List Nat) (v : Option (List Nat)) (h : supplied fs n = v.map .list) :
    listField fs n old = v.getD old := by
  cases v <;> simp [listField, h]

/-! ### The entries that a WRITE leaves -/

/-- R23 to R25: the configuration after a WRITE. -/
theorem DisplayConfig.written_eq (w : DisplayWrite) (c : DisplayConfig) {fs : FieldList} (h : fs.Perm w.pairs) :
    c.written fs = w.leaves c := by
  have hs := supplied_perm h w.pairs_nodup
  have hk : stringNo (w.string.elim c.string.val (bring 1 1)) = w.string.elim c.string fun v => Fin.ofNat 8 (min 7 v) := by
    cases w.string with
    | none => exact Fin.ext (Nat.mod_eq_of_lt c.string.isLt)
    | some v => simp [stringNo, bring, maskWidth, fieldRange, clampTo]
  have hc : (DisplayClass.ofCode (w.cls.elim c.cls.code (bring 1 3))).getD c.cls = (w.cls.bind DisplayClass.ofCode).getD c.cls := by
    cases w.cls with
    | none => cases c.cls <;> rfl
    | some v => rfl
  have hp : bring 1 2 = fun v => max 1 (min 63 v) := rfl
  have h15 : ∀ n ∈ [4, 6, 12, 13], bring 1 n = min 15 := by
    intro n hn
    simp only [List.mem_cons, List.not_mem_nil, or_false] at hn
    rcases hn with rfl | rfl | rfl | rfl <;> exact funext fun v => Nat.zero_max _
  have hg : bring 1 7 = min 3 := funext fun v => Nat.zero_max _
  have hl : bring 1 8 = min 63 := funext fun v => Nat.zero_max _
  have ho : bring 1 11 = min 1440 := funext fun v => Nat.zero_max _
  have hm : ∀ n ∈ [9, 10], ∀ (v : Option Nat) (b : BitVec 16),
      BitVec.ofNat 16 (v.elim b.toNat (bring 1 n)) = v.elim b (BitVec.ofNat 16) := by
    intro n hn v b
    cases v with
    | none => simp
    | some v =>
      simp only [List.mem_cons, List.not_mem_nil, or_false] at hn
      rcases hn with rfl | rfl <;> exact BitVec.eq_of_toNat_eq (by simp [bring, maskWidth])
  unfold DisplayConfig.written DisplayWrite.leaves
  rw [numField_eq 1 fs 1 _ w.string (by rw [hs]; simp [DisplayWrite.pairs]),
    numField_eq 1 fs 2 _ w.position (by rw [hs]; simp [DisplayWrite.pairs]),
    numField_eq 1 fs 3 _ w.cls (by rw [hs]; simp [DisplayWrite.pairs]),
    numField_eq 1 fs 4 _ w.deck (by rw [hs]; simp [DisplayWrite.pairs]),
    numField_eq 1 fs 5 _ w.node (by rw [hs]; simp [DisplayWrite.pairs]),
    numField_eq 1 fs 6 _ w.facing (by rw [hs]; simp [DisplayWrite.pairs]),
    numField_eq 1 fs 7 _ w.language (by rw [hs]; simp [DisplayWrite.pairs]),
    optField_eq 1 fs 8 _ w.list (by rw [hs]; simp [DisplayWrite.pairs]),
    numField_eq 1 fs 9 _ w.categoryMask (by rw [hs]; simp [DisplayWrite.pairs]),
    numField_eq 1 fs 10 _ w.deckMask (by rw [hs]; simp [DisplayWrite.pairs]),
    numField_eq 1 fs 11 _ w.horizon (by rw [hs]; simp [DisplayWrite.pairs]),
    numField_eq 1 fs 12 _ w.dayStep (by rw [hs]; simp [DisplayWrite.pairs]),
    numField_eq 1 fs 13 _ w.nightStep (by rw [hs]; simp [DisplayWrite.pairs]), hk, hc, hp, h15 4 (by decide), h15 6 (by decide),
    h15 12 (by decide), h15 13 (by decide), hg, hl, ho, hm 9 (by decide), hm 10 (by decide)]
  cases w.node <;> rfl

/-- R40, R54: the destination after a WRITE, but for its cells. -/
theorem Dest.written_eq (w : DestWrite) (e : Dest) {fs : FieldList} (h : fs.Perm w.pairs) :
    e.written fs = { w.leaves e with cells := e.invalidated.cells } := by
  have hs := supplied_perm h w.pairs_nodup
  have hk : (DestKind.ofCode (w.kind.elim e.kind.code (bring 5 2))).getD e.kind = (w.kind.bind DestKind.ofCode).getD e.kind := by
    cases w.kind with
    | none => cases e.kind <;> rfl
    | some v => rfl
  have hn : bring 5 1 = min 1023 := funext fun v => Nat.zero_max _
  unfold Dest.written DestWrite.leaves
  rw [optField_eq 5 fs 1 _ w.name (by rw [hs]; simp [DestWrite.pairs]), numField_eq 5 fs 2 _ w.kind (by rw [hs]; simp [DestWrite.pairs]),
    listField_eq fs 3 _ w.targets (by rw [hs]; simp [DestWrite.pairs]), hk, hn]
  rfl

/-- R67 to R69: the entry after a WRITE that updates it. -/
theorem ProgEntry.written_eq (w : ProgrammeWrite) (e : ProgEntry) {fs : FieldList} (h : fs.Perm w.pairs) :
    e.written fs = w.leaves e := by
  have hs := supplied_perm h w.pairs_nodup
  have hb : ∀ p ∈ [(1, 255), (2, 1439), (3, 720), (4, 31), (5, 15), (6, 15), (7, 1023)], bring 7 p.1 = min p.2 := by
    intro p hp
    simp only [List.mem_cons, List.not_mem_nil, or_false] at hp
    rcases hp with rfl | rfl | rfl | rfl | rfl | rfl | rfl <;> exact funext fun v => Nat.zero_max _
  have h8 : numField 7 fs 8 0 = w.status.getD 0 := by
    rw [numField_eq 7 fs 8 _ w.status (by rw [hs]; simp [ProgrammeWrite.pairs])]
    cases w.status <;> rfl
  have hst : (w.status.getD 0 = 3) = (w.status = some 3) := by cases w.status <;> simp
  unfold ProgEntry.written ProgrammeWrite.leaves
  simp only [h8, hst]
  rw [numField_eq 7 fs 1 _ w.day (by rw [hs]; simp [ProgrammeWrite.pairs]),
    numField_eq 7 fs 2 _ w.start (by rw [hs]; simp [ProgrammeWrite.pairs]),
    numField_eq 7 fs 3 _ w.duration (by rw [hs]; simp [ProgrammeWrite.pairs]),
    optField_eq 7 fs 4 _ w.venue (by rw [hs]; simp [ProgrammeWrite.pairs]),
    numField_eq 7 fs 5 _ w.category (by rw [hs]; simp [ProgrammeWrite.pairs]),
    numField_eq 7 fs 6 _ w.deck (by rw [hs]; simp [ProgrammeWrite.pairs]),
    numField_eq 7 fs 7 _ w.title (by rw [hs]; simp [ProgrammeWrite.pairs]), hb (1, 255) (by decide), hb (2, 1439) (by decide),
    hb (3, 720) (by decide), hb (4, 31) (by decide), hb (5, 15) (by decide), hb (6, 15) (by decide), hb (7, 1023) (by decide)]

/-- R72: an entry at an absolute minute. -/
theorem byClock_eq (e : ProgEntry) (t : Nat) : e.byClock t = e.clocked (some t) := by
  have hs : (e.day * 1440 + e.start + e.duration ≤ t) = (e.stop ≤ t) := rfl
  have ha : (e.day * 1440 + e.start ≤ t) = (e.absStart ≤ t) := rfl
  have he : ∀ st, e.status = st → ({ e with status := st } : ProgEntry) = e := by rintro _ rfl; rfl
  by_cases h1 : e.stop ≤ t <;> by_cases h2 : e.absStart ≤ t <;> cases h : e.status <;>
    simp [ProgEntry.byClock, ProgEntry.clocked, statusAt, h, hs, ha, h1, h2, he]

/-- R69: an entry set against the clock. -/
theorem byClockNow_eq (s : State) (e : ProgEntry) : s.byClockNow e = e.clocked s.nowMinute := by
  unfold State.byClockNow
  cases s.nowMinute with
  | none => rfl
  | some t => exact byClock_eq e t

/-- R39: the segment after a WRITE. -/
theorem Segment.written_eq (w : SegmentWrite) (g : Segment) {fs : FieldList} (h : fs.Perm w.pairs) : g.written fs = w.leaves g := by
  have hs := supplied_perm h w.pairs_nodup
  have hd : (w.direction.elim (if g.oneWay then 1 else 0) (bring 4 6) == 1) = w.direction.elim g.oneWay fun v => v == 1 := by
    cases w.direction with
    | none => cases g.oneWay <;> rfl
    | some v => rfl
  have hk : (SegmentKind.ofCode (w.kind.elim g.kind.code (bring 4 3))).getD g.kind = (w.kind.bind SegmentKind.ofCode).getD g.kind := by
    cases w.kind with
    | none => cases g.kind <;> rfl
    | some v => rfl
  have hl : bring 4 4 = fun v => max 1 (min 4095 v) := rfl
  have hh : bring 4 5 = fun v => min 15 v := funext fun v => Nat.zero_max _
  have hc : bring 4 7 = min 127 := funext fun v => Nat.zero_max _
  unfold Segment.written SegmentWrite.leaves
  rw [numField_eq 4 fs 1 _ w.a (by rw [hs]; simp [SegmentWrite.pairs]), numField_eq 4 fs 2 _ w.b (by rw [hs]; simp [SegmentWrite.pairs]),
    numField_eq 4 fs 3 _ w.kind (by rw [hs]; simp [SegmentWrite.pairs]),
    numField_eq 4 fs 4 _ w.length (by rw [hs]; simp [SegmentWrite.pairs]),
    numField_eq 4 fs 5 _ w.heading (by rw [hs]; simp [SegmentWrite.pairs]),
    numField_eq 4 fs 6 _ w.direction (by rw [hs]; simp [SegmentWrite.pairs]),
    optField_eq 4 fs 7 _ w.closure (by rw [hs]; simp [SegmentWrite.pairs]),
    flagField_eq fs 8 _ w.musterOnly (by rw [hs]; simp [SegmentWrite.pairs]),
    flagField_eq fs 9 _ w.enabled (by rw [hs]; simp [SegmentWrite.pairs]), hd, hk, hl, hh, hc]
  cases w.a <;> cases w.b <;> rfl

/-- R97: the notice after a WRITE. -/
theorem Notice.written_eq (w : NoticeWrite) (n : Notice) (origin : Nat) (now : Option Nat) {fs : FieldList} (h : fs.Perm w.pairs) :
    n.written origin fs now =
      { w.leaves origin n with current := (w.leaves origin n).isCurrent now } := by
  have hs := supplied_perm h w.pairs_nodup
  have ht : bring 9 4 = fun v => min 1023 v := funext fun v => Nat.zero_max _
  have hb : bring 9 5 = min 368639 := funext fun v => Nat.zero_max _
  have he : bring 9 6 = min 368639 := funext fun v => Nat.zero_max _
  have h1 : supplied fs 1 = w.priority.map .number := by rw [hs]; simp [NoticeWrite.pairs]
  have hp : noticePriority origin fs n.priority = w.priority.elim n.priority fun v => max 1 (min (priorityLimit origin) v) := by
    unfold noticePriority priorityLimit
    rw [numField_eq 9 fs 1 _ w.priority h1, supplies_eq, h1]
    cases w.priority with
    | none => simp
    | some v =>
      have hb : bring 9 1 v = max 1 (min 15 v) := rfl
      by_cases ho : origin = originContent <;> simp [ho, hb]
      omega
  have hc : BitVec.ofNat 6 (w.classMask.elim n.classMask.toNat (bring 9 2)) = w.classMask.elim n.classMask (BitVec.ofNat 6) := by
    cases w.classMask with
    | none => simp
    | some v => exact BitVec.eq_of_toNat_eq (by simp [bring, maskWidth])
  have hd : BitVec.ofNat 16 (w.deckMask.elim n.deckMask.toNat (bring 9 3)) =
      w.deckMask.elim n.deckMask fun v => BitVec.ofNat 16 (min 65535 v) := by
    cases w.deckMask with
    | none => simp
    | some v => simp [bring, maskWidth, fieldRange, clampTo]
  unfold Notice.written NoticeWrite.leaves
  rw [hp, numField_eq 9 fs 2 _ w.classMask (by rw [hs]; simp [NoticeWrite.pairs]),
    numField_eq 9 fs 3 _ w.deckMask (by rw [hs]; simp [NoticeWrite.pairs]),
    numField_eq 9 fs 4 _ w.text (by rw [hs]; simp [NoticeWrite.pairs]),
    optField_eq 9 fs 5 _ w.start (by rw [hs]; simp [NoticeWrite.pairs]),
    optField_eq 9 fs 6 _ w.stop (by rw [hs]; simp [NoticeWrite.pairs]), hc, hd, ht, hb, he]

/-- R98: a notice is current by the clock. -/
theorem Notice.isCurrent_iff (s : State) (n : Notice) : n.isCurrent s.nowMinute = true ↔ s.CurrentNow n := by
  unfold Notice.isCurrent State.nowMinute State.CurrentNow Ship.absMinute
  cases n.start <;> cases n.stop <;> cases s.ship.valid <;> simp

/-- R81, R82: the cabin after a WRITE. -/
theorem Cabin.written_leaves (w : CabinWrite) (c : Cabin) {fs : FieldList} (h : fs.Perm w.pairs) : w.Leaves c (c.written fs) := by
  have hs := supplied_perm h w.pairs_nodup
  have ho : (w.occupancy.elim (if c.occupied then 1 else 0) (bring 8 5) == 1) = w.occupancy.elim c.occupied fun v => v == 1 := by
    cases w.occupancy with
    | none => cases c.occupied <;> rfl
    | some v => rfl
  have hg : (w.group.elim c.group fun v => v.map (bring 8 4)) = w.group.getD c.group := by
    rcases w.group with _ | _ | _ <;> rfl
  have ht : bring 8 3 = min 31 := funext fun v => Nat.zero_max _
  have hl : bring 8 6 = min 3 := funext fun v => Nat.zero_max _
  have hr : bring 8 7 = min 1023 := funext fun v => Nat.zero_max _
  have hv : (c.occupied && !w.occupancy.elim c.occupied fun v => v == 1) = true ↔ w.Vacates c := by
    unfold CabinWrite.Vacates
    cases w.occupancy <;> cases c.occupied <;> simp
  have he : c.written fs =
      { c with
        number := w.number.getD c.number
        display := w.display.getD c.display
        station := w.station.elim c.station fun v => v.map (min 31)
        group := w.group.getD c.group
        occupied := w.occupancy.elim c.occupied fun v => v == 1
        language := w.language.elim c.language fun v => v.map (min 3)
        greeting := w.greeting.elim c.greeting fun v => v.map (min 1023)
        dnd := c.dnd && !(c.occupied && !w.occupancy.elim c.occupied fun v => v == 1)
        mur := c.mur && !(c.occupied && !w.occupancy.elim c.occupied fun v => v == 1) } := by
    unfold Cabin.written
    rw [numField_eq 8 fs 1 _ w.number (by rw [hs]; simp [CabinWrite.pairs]),
      numField_eq 8 fs 2 _ w.display (by rw [hs]; simp [CabinWrite.pairs]),
      optField_eq 8 fs 3 _ w.station (by rw [hs]; simp [CabinWrite.pairs]),
      optField_eq 8 fs 4 _ w.group (by rw [hs]; simp [CabinWrite.pairs]),
      numField_eq 8 fs 5 _ w.occupancy (by rw [hs]; simp [CabinWrite.pairs]),
      optField_eq 8 fs 6 _ w.language (by rw [hs]; simp [CabinWrite.pairs]),
      optField_eq 8 fs 7 _ w.greeting (by rw [hs]; simp [CabinWrite.pairs]), ho, hg, ht, hl, hr]
    cases w.number <;> cases w.display <;> rfl
  rw [he]
  refine ⟨rfl, fun h => ?_, fun h => ?_⟩
  · simp [hv.2 h]
  · rw [← hv, Bool.not_eq_true] at h
    simp [h]

/-- R82: a WRITE leaves one cabin. -/
theorem CabinWrite.Leaves.unique {w : CabinWrite} {c x y : Cabin} (hx : w.Leaves c x) (hy : w.Leaves c y) : x = y := by
  rw [hx.fields, hy.fields]
  by_cases h : w.Vacates c
  · rw [(hx.vacated h).1, (hx.vacated h).2, (hy.vacated h).1, (hy.vacated h).2]
  · rw [(hx.flags h).1, (hx.flags h).2, (hy.flags h).1, (hy.flags h).2]

end Sys2Proof.Machine
end

