-- ==== Sys2Proof/Laws/Layouts.lean ====
section
/-! SUPPORT. Numbers come back through the byte layouts of chapter 11. -/

namespace Sys2Proof

theorem byteOf_toNat (n : Nat) : (byteOf n).toNat = n % 256 := by
  simp [byteOf, BitVec.toNat_ofNat]

theorem byteOf_toNat_of_lt {n : Nat} (h : n < 256) : (byteOf n).toNat = n := by
  rw [byteOf_toNat]
  omega

theorem num16_be16 {n : Nat} (h : n < 65536) : num16 (byteOf (n / 256)) (byteOf n) = n := by
  simp only [num16, byteOf_toNat]
  omega

theorem num32_be32 {n : Nat} (h : n < 4294967296) :
    num32 (byteOf (n / 16777216)) (byteOf (n / 65536)) (byteOf (n / 256)) (byteOf n) = n := by
  simp only [num32, byteOf_toNat]
  omega

theorem flagOf_flagByte (b : Bool) : flagOf (flagByte b) = b := by
  cases b <;> decide

theorem readU16s_writeU16s (ns : List Nat) (h : ∀ n ∈ ns, n < 65536) (rest : List Byte) :
    readU16s ns.length (writeU16s ns ++ rest) = some (ns, rest) := by
  induction ns with
  | nil => rfl
  | cons n ns ih =>
    have hn := h n (by simp)
    have ih' := ih fun m hm => h m (by simp [hm])
    simp only [writeU16s, List.flatMap_cons, be16, List.cons_append, List.nil_append, List.length_cons,
      readU16s]
    rw [show List.flatMap be16 ns = writeU16s ns from rfl, ih']
    simp [num16_be16 hn]

theorem writeU16s_length (ns : List Nat) : (writeU16s ns).length = 2 * ns.length := by
  induction ns with
  | nil => rfl
  | cons n ns ih =>
    simp only [writeU16s, List.flatMap_cons, List.length_append, be16, List.length_cons, List.length_nil] at ih ⊢
    omega

theorem be16_length (n : Nat) : (be16 n).length = 2 := rfl

theorem be32_length (n : Nat) : (be32 n).length = 4 := rfl

/-- A CRC takes two bytes. -/
theorem crcBytes_length (bs : List Byte) : (crcBytes bs).length = 2 := rfl

/-! ### The bodies, kind by kind, so that no proof unfolds the whole of a parser -/

theorem parseBulletin_time (d1 d0 m1 m0 c : Byte) :
    parseBulletin [byteOf 0, d1, d0, m1, m0, c] = .time (num16 d1 d0) (num16 m1 m0) c.toNat := rfl

theorem parseBulletin_phase (p d : Byte) : parseBulletin [byteOf 1, p, d] = .phase p.toNat (flagOf d) := rfl

theorem parseBulletin_closures (f c : Byte) (st : List Byte) :
    parseBulletin (byteOf 2 :: f :: c :: st) =
      if c.toNat = st.length then .closures f.toNat (st.map (·.toNat)) else .other := rfl

theorem parseBulletin_light (l : Byte) : parseBulletin [byteOf 3, l] = .light l.toNat := rfl

theorem parseBulletin_cabinMark (bs : List Byte) :
    parseBulletin (byteOf 4 :: bs) = match readCabinList bs with
      | some ns => .cabinMark ns
      | none => .other := rfl

theorem parseBulletin_assistClear (bs : List Byte) :
    parseBulletin (byteOf 5 :: bs) = match readCabinList bs with
      | some ns => .assistClear ns
      | none => .other := rfl

theorem parseRequest_write (t i1 i0 p : Byte) (bs : List Byte) :
    parseRequest (byteOf 0 :: t :: i1 :: i0 :: p :: bs) = match readPairs p.toNat bs with
      | some (fs, []) => .write t.toNat (num16 i1 i0) fs
      | _ => .malformed (some 0) := rfl

theorem parseRequest_read (t i1 i0 : Byte) : parseRequest [byteOf 1, t, i1, i0] = .read t.toNat (num16 i1 i0) := rfl

theorem parseRequest_clear (t i1 i0 : Byte) : parseRequest [byteOf 2, t, i1, i0] = .clear t.toNat (num16 i1 i0) := rfl

theorem parseRequest_clearTable (t : Byte) : parseRequest [byteOf 3, t] = .clearTable t.toNat := rfl

theorem parseRequest_adjustSteps (k v1 v0 c : Byte) :
    parseRequest [byteOf 4, k, v1, v0, c] = .adjustSteps k.toNat (num16 v1 v0) c.toNat := rfl

theorem parseRequest_holdString (k : Byte) : parseRequest [byteOf 5, k] = .holdString k.toNat := rfl

theorem parseRequest_freeString (k : Byte) : parseRequest [byteOf 6, k] = .freeString k.toNat := rfl

theorem parseRequest_retryDisplay (d1 d0 : Byte) : parseRequest [byteOf 7, d1, d0] = .retryDisplay (num16 d1 d0) := rfl

theorem parseRequest_restart : parseRequest [byteOf 8] = .restart := rfl

theorem parseRequest_status : parseRequest [byteOf 9] = .status := rfl

theorem parseRequest_displayStatus (d1 d0 : Byte) : parseRequest [byteOf 10, d1, d0] = .displayStatus (num16 d1 d0) := rfl

theorem parseRequest_identify : parseRequest [byteOf 11] = .identify := rfl

theorem parseReply_ready (c : Byte) : StringReply.parse 129 [c] = some (.ready c.toNat) := rfl

theorem parseReply_busy (h l : Byte) : StringReply.parse 130 [h, l] = some (.busy (num16 h l)) := rfl

theorem parseReply_ack : StringReply.parse 131 [] = some .ack := rfl

theorem parseReply_nak : StringReply.parse 132 [] = some .nak := rfl

theorem parseReply_refresh (h l : Byte) : StringReply.parse 133 [h, l] = some (.refresh (num16 h l)) := rfl

theorem parseReply_events (e : Byte) (es : List Byte) :
    StringReply.parse 134 (e :: es) =
      if e.toNat = es.length ∧ e.toNat ≤ 4 then some (.events (es.map (·.toNat))) else none := rfl

end Sys2Proof
end

