-- ==== Sys2Proof/Laws/PerInstr.lean ====
section
/-! SUPPORT. Laws stated for each command apart, over the command as it is written. -/

namespace Sys2Proof.Laws.SpelledOnce

/-- What arrives as one command arrives in one way alone: its arrival and its content, or its string, tag and content, can be
read back from the command, and no command stands for both a bulletin and a request. -/
def Statement (i : Instr) : Prop :=
  (∀ (a b : Arrival) (q r : Request), q.command a = some i → r.command b = some i → a = b ∧ q = r) ∧
    (∀ (a b : Arrival) (q r : Bulletin), q.command a = some i → r.command b = some i → a = b ∧ q = r) ∧
    (∀ (j k : StringNo) (m n : Nat) (q r : StringReply), q.command j m = some i → r.command k n = some i →
      j = k ∧ m = n ∧ q = r) ∧
    (∀ (a b : Arrival) (q : Request) (r : Bulletin), q.command a = some i → r.command b ≠ some i)

theorem request_once (a b : Arrival) (q r : Request) (i : Instr) (h : q.command a = some i) (g : r.command b = some i) :
    a = b ∧ q = r := by
  cases q <;> cases r <;> simp_all [Request.command] <;> (subst h; simp_all)

theorem bulletin_once (a b : Arrival) (q r : Bulletin) (i : Instr) (h : q.command a = some i) (g : r.command b = some i) :
    a = b ∧ q = r := by
  cases q <;> cases r <;> simp_all [Bulletin.command] <;> (subst h; simp_all)

theorem reply_once (j k : StringNo) (m n : Nat) (q r : StringReply) (i : Instr) (h : q.command j m = some i)
    (g : r.command k n = some i) : j = k ∧ m = n ∧ q = r := by
  cases q <;> cases r <;> simp_all [StringReply.command] <;> (subst h; simp_all)

theorem request_no_bulletin (a b : Arrival) (q : Request) (r : Bulletin) (i : Instr) (h : q.command a = some i) :
    r.command b ≠ some i := by
  cases q <;> cases r <;> simp_all [Request.command, Bulletin.command] <;> (subst h; simp_all)

theorem every (i : Instr) : Statement i :=
  ⟨fun a b q r => request_once a b q r i, fun a b q r => bulletin_once a b q r i,
    fun j k m n q r => reply_once j k m n q r i, fun a b q r => request_no_bulletin a b q r i⟩

theorem powerOnReset (straps : BitVec 8) : Statement (.powerOnReset straps) := every _

theorem musterInChange (level : Bool) : Statement (.musterInChange level) := every _

theorem musterLineChange : Statement .musterLineChange := every _

theorem clockSecondAdvance : Statement .clockSecondAdvance := every _

theorem standDownHoldExpiry : Statement .standDownHoldExpiry := every _

theorem bridgeSilenceExpiry : Statement .bridgeSilenceExpiry := every _

theorem lineSignalChange (p : Port) (present : Bool) : Statement (.lineSignalChange p present) := every _

theorem portUp (p : Port) : Statement (.portUp p) := every _

theorem portDown (p : Port) : Statement (.portDown p) := every _

theorem frameReceive (p : Port) (bytes : List Byte) : Statement (.frameReceive p bytes) := every _

theorem timeBulletin (a : Arrival) (day minute second : Nat) : Statement (.timeBulletin a day minute second) := every _

theorem phaseBulletin (a : Arrival) (phase : Nat) (drill : Bool) : Statement (.phaseBulletin a phase drill) := every _

theorem closuresBulletin (a : Arrival) (first : Nat) (states : List Nat) : Statement (.closuresBulletin a first states) := every _

theorem lightBulletin (a : Arrival) (level : Nat) : Statement (.lightBulletin a level) := every _

theorem cabinMarkBulletin (a : Arrival) (cabins : List Nat) : Statement (.cabinMarkBulletin a cabins) := every _

theorem assistClearBulletin (a : Arrival) (cabins : List Nat) : Statement (.assistClearBulletin a cabins) := every _

theorem write (a : Arrival) (table index : Nat) (fields : FieldList) : Statement (.write a table index fields) := every _

theorem read (a : Arrival) (table index : Nat) : Statement (.read a table index) := every _

theorem clear (a : Arrival) (table index : Nat) : Statement (.clear a table index) := every _

theorem clearTable (a : Arrival) (table : Nat) : Statement (.clearTable a table) := every _

theorem adjustSteps (a : Arrival) (kind value code : Nat) : Statement (.adjustSteps a kind value code) := every _

theorem holdString (a : Arrival) (string : Nat) : Statement (.holdString a string) := every _

theorem freeString (a : Arrival) (string : Nat) : Statement (.freeString a string) := every _

theorem retryDisplay (a : Arrival) (display : Nat) : Statement (.retryDisplay a display) := every _

theorem restart (a : Arrival) : Statement (.restart a) := every _

theorem status (a : Arrival) : Statement (.status a) := every _

theorem displayStatus (a : Arrival) (display : Nat) : Statement (.displayStatus a display) := every _

theorem identify (a : Arrival) : Statement (.identify a) := every _

theorem transmitBegin (p : Port) : Statement (.transmitBegin p) := every _

theorem transmitEnd (p : Port) : Statement (.transmitEnd p) := every _

theorem dispatchTake (k : StringNo) : Statement (.dispatchTake k) := every _

theorem pollTake (k : StringNo) : Statement (.pollTake k) := every _

theorem probeTake (k : StringNo) : Statement (.probeTake k) := every _

theorem ready (k : StringNo) (tag cls : Nat) : Statement (.ready k tag cls) := every _

theorem busy (k : StringNo) (tag ms : Nat) : Statement (.busy k tag ms) := every _

theorem ack (k : StringNo) (tag : Nat) : Statement (.ack k tag) := every _

theorem nak (k : StringNo) (tag : Nat) : Statement (.nak k tag) := every _

theorem refresh (k : StringNo) (tag ms : Nat) : Statement (.refresh k tag ms) := every _

theorem events (k : StringNo) (tag : Nat) (codes : List Nat) : Statement (.events k tag codes) := every _

theorem stringReplyDiscard (k : StringNo) (bytes : List Byte) : Statement (.stringReplyDiscard k bytes) := every _

theorem replyTimeout (k : StringNo) : Statement (.replyTimeout k) := every _

theorem refreshBusyReached (display : Nat) : Statement (.refreshBusyReached display) := every _

theorem minRefreshExpiry (display : Nat) : Statement (.minRefreshExpiry display) := every _

theorem pollDue (display : Nat) : Statement (.pollDue display) := every _

theorem probeDue (display : Nat) : Statement (.probeDue display) := every _

theorem solverTake : Statement .solverTake := every _

theorem sweepEnd : Statement .sweepEnd := every _

end Sys2Proof.Laws.SpelledOnce
end

