-- ==== Sys2Proof/Laws/Screens.lean ====
section
/-! SUPPORT. What the string operations leave of the controllers and of the displays: reads after a controller is written, and
what marks and queue places never touch. -/

namespace Sys2Proof.Machine

/-- Two states that agree in every part are one. -/
theorem State.eq_of_agree {s t : State} (h : ∀ p, s.Agree t p) : t = s := by
  have h1 := h .pending; have h2 := h .now; have h3 := h .straps; have h4 := h .ship; have h5 := h .node
  have h6 := h .displays; have h7 := h .nodes; have h8 := h .segments; have h9 := h .dests; have h10 := h .lists
  have h11 := h .programme; have h12 := h .lastEvaluation; have h13 := h .cabins; have h14 := h .lossReported
  have h15 := h .notices; have h16 := h .templates; have h17 := h .selection; have h18 := h .texts; have h19 := h .regions
  have h20 := h .strings; have h21 := h .quietCopy; have h22 := h .fore; have h23 := h .aft; have h24 := h .address
  have h25 := h .watermark; have h26 := h .replies; have h27 := h .reports; have h28 := h .reportArrival
  have h29 := h .reportSeq; have h30 := h .draws
  simp only [State.Agree] at *
  cases s; cases t
  simp only [State.mk.injEq]
  exact ⟨h1, h2, h3, h4, h5, h6, h7, h8, h9, h10, h11, h12, h13, h14, h15, h16, h17, h18, h19, h20, h21, h22, h23, h24,
    h25, h26, h27, h28, h29, h30⟩

/-! ### Reads of a controller -/

@[simp] theorem str_setStr_same (s : State) (k : StringNo) (c : StringCtl) : (s.setStr k c).str k = c := by
  simp [State.setStr, State.str]

theorem str_setStr_ne (s : State) {k j : StringNo} (c : StringCtl) (h : j ≠ k) : (s.setStr k c).str j = s.str j := by
  have : k.val ≠ j.val := fun e => h (Fin.ext e.symm)
  simp [State.setStr, State.str, this]

theorem str_setStr (s : State) (k j : StringNo) (c : StringCtl) :
    (s.setStr k c).str j = if j = k then c else s.str j := by
  by_cases h : j = k
  · subst h
    simp
  · rw [if_neg h, str_setStr_ne s c h]

@[simp] theorem str_setDisplay (s : State) (d : Nat) (x : Display) (k : StringNo) : (s.setDisplay d x).str k = s.str k := rfl

@[simp] theorem str_onRuntime (s : State) (d : Nat) (f : DisplayRuntime → DisplayRuntime) (k : StringNo) :
    (s.onRuntime d f).str k = s.str k := rfl

@[simp] theorem setStr_setStr (s : State) (k : StringNo) (c e : StringCtl) : (s.setStr k c).setStr k e = s.setStr k e := by
  simp [State.setStr]

theorem display_onRuntime (s : State) (d j : Nat) (f : DisplayRuntime → DisplayRuntime) :
    (s.onRuntime d f).display j =
      if j = d then (s.display d).map fun x => { x with rt := f x.rt } else s.display j := by
  unfold State.onRuntime State.display
  simp only [Tab.fetch_change]
  by_cases h : j = d
  · subst h
    rfl
  · simp [h]

/-! ### What a place in a queue leaves of the controllers -/

/-- A controller but for its queues and its entry counter. -/
def StringCtl.apart (c : StringCtl) : StringCtl := { c with safety := [], service := [], routine := [], counter := 0 }

@[simp] theorem apart_setQueue (c : StringCtl) (u : Urgency) (q : List QEntry) : (c.setQueue u q).apart = c.apart := by
  cases u <;> rfl

/-- What controllers that agree apart from their queues agree in. -/
theorem apart_fields {c e : StringCtl} (h : c.apart = e.apart) :
    c.enabled = e.enabled ∧ c.timeout = e.timeout ∧ c.pollPeriod = e.pollPeriod ∧ c.state = e.state ∧ c.run = e.run ∧
      c.cursor = e.cursor ∧ c.tag = e.tag ∧ c.txn = e.txn ∧ c.lineOut = e.lineOut := by
  cases c; cases e
  simp only [StringCtl.apart, StringCtl.mk.injEq] at h
  simp [h]

theorem enterAt_apart (s : State) (d : Nat) (u : Urgency) (n : Nat) (k : StringNo) :
    ((s.enterAt d u n).str k).apart = (s.str k).apart := by
  unfold State.enterAt
  split
  · rfl
  · rename_i x _
    rw [str_setDisplay, str_setStr]
    split
    · rename_i h
      rw [apart_setQueue, h]
    · rfl

theorem enter_apart (s : State) (d : Nat) (u : Urgency) (k : StringNo) : ((s.enter d u).str k).apart = (s.str k).apart := by
  unfold State.enter
  split
  · rfl
  · rw [enterAt_apart, str_setStr]
    split
    · rename_i h
      rw [h]
      rfl
    · rfl

theorem leaveQueue_apart (s : State) (d : Nat) (k : StringNo) : ((s.leaveQueue d).str k).apart = (s.str k).apart := by
  unfold State.leaveQueue
  split
  · rfl
  · split
    · rw [str_setStr]
      split
      · rename_i h
        rw [apart_setQueue, h]
      · rfl
    all_goals rfl

theorem mark_apart (s : State) (d : Nat) (u : Urgency) (k : StringNo) : ((s.mark d u).str k).apart = (s.str k).apart := by
  unfold State.mark
  split
  · rfl
  · split
    · rfl
    · exact enter_apart s d u k
    · split
      · rw [enter_apart, leaveQueue_apart]
      · rfl
    · rfl

theorem marks_apart (s : State) (ms : List (Nat × Urgency)) (k : StringNo) : ((s.marks ms).str k).apart = (s.str k).apart := by
  induction ms generalizing s with
  | nil => rfl
  | cons m ms ih => exact (ih (s.mark m.1 m.2)).trans (mark_apart s m.1 m.2 k)

theorem markWhere_apart (s : State) (p : Nat → Display → Bool) (u : Urgency) (k : StringNo) :
    ((s.markWhere p u).str k).apart = (s.str k).apart := marks_apart _ _ _

theorem markAll_apart (s : State) (u : Urgency) (k : StringNo) : ((s.markAll u).str k).apart = (s.str k).apart :=
  marks_apart _ _ _

theorem returnToPlace_apart (s : State) (d : Nat) (p : Option (Urgency × Nat)) (k : StringNo) :
    ((s.returnToPlace d p).str k).apart = (s.str k).apart := by
  unfold State.returnToPlace
  split
  · exact enterAt_apart _ _ _ _ _
  · rfl

theorem applyStale_apart (s : State) (d : Nat) (k : StringNo) : ((s.applyStale d).str k).apart = (s.str k).apart := by
  unfold State.applyStale
  split
  · rfl
  · split
    · exact mark_apart _ _ _ _
    · rfl

/-! ### What the ends of transactions leave of a display -/

theorem display_returnToPlace (s : State) (d : Nat) (p : Option (Urgency × Nat)) (j : Nat) :
    (s.returnToPlace d p).display j =
      if j = d then
        (s.display d).map fun x =>
          { x with rt := { x.rt with state := match p with
            | some (u, _) => .queued u
            | none => .clean } }
      else s.display j := by
  unfold State.returnToPlace
  split
  · exact display_enterAt _ _ _ _ _
  · exact display_onRuntime _ _ _ _

/-- R132: the stale flag of a display is cleared, and the display marked at the stale urgency. -/
theorem display_applyStale (s : State) (d j : Nat) :
    (s.applyStale d).display j =
      if j = d then
        (s.display d).map fun x =>
          match x.rt.stale with
          | some u => ({ x with rt := { x.rt with stale := none } } : Display).markedAt u
          | none => x
      else s.display j := by
  unfold State.applyStale
  cases h : s.display d with
  | none =>
    by_cases hj : j = d
    · subst hj
      simp [h]
    · simp [hj]
  | some x =>
    cases hs : x.rt.stale with
    | none =>
      by_cases hj : j = d
      · subst hj
        simp [h, hs]
      · simp [hj, hs]
    | some u =>
      simp only [hs, display_mark, display_setDisplay_same, Option.map_some]
      by_cases hj : j = d
      · simp [hj]
      · simp only [if_neg hj]
        exact display_setDisplay_ne _ _ hj

end Sys2Proof.Machine
end

