-- ==== Sys2Proof/Laws/Rounds.lean ====
section
/-! SUPPORT. What a round of marks does (R132): everything that one mark can do, several marks in one step, and marks that nothing is
left to do for. -/

namespace Sys2Proof.Machine

/-! ### Places in the queues -/

theorem mem_insertPlace (lt : QEntry → QEntry → Bool) (e f : QEntry) (q : List QEntry) : f ∈ insertPlace lt e q ↔ f = e ∨ f ∈ q := by
  induction q with
  | nil => simp [insertPlace]
  | cons g q ih =>
    unfold insertPlace
    split
    · simp
    · simp only [List.mem_cons, ih]
      tauto

theorem queue_setQueue (c : StringCtl) (u v : Urgency) (q : List QEntry) : (c.setQueue u q).queue v = if v = u then q else c.queue v := by
  cases u <;> cases v <;> rfl

theorem StringCtl.PlacesOf.refl (d : Nat) (c : StringCtl) : c.PlacesOf d c := ⟨rfl, fun _ _ _ => Iff.rfl⟩

theorem StringCtl.PlacesOf.trans {d : Nat} {a b c : StringCtl} (h : a.PlacesOf d b) (g : b.PlacesOf d c) : a.PlacesOf d c :=
  ⟨by rw [g.1, h.1], fun u e he => (g.2 u e he).trans (h.2 u e he)⟩

theorem placesOf_counter (d : Nat) (c : StringCtl) (n : Nat) : c.PlacesOf d { c with counter := n } :=
  ⟨rfl, fun u _ _ => by cases u <;> rfl⟩

theorem placesOf_insert (d n : Nat) (c : StringCtl) (u : Urgency) (lt : QEntry → QEntry → Bool) :
    c.PlacesOf d (c.setQueue u (insertPlace lt { display := d, stamp := n } (c.queue u))) := by
  refine ⟨by cases u <;> rfl, fun v e he => ?_⟩
  rw [queue_setQueue]
  split
  · rename_i h
    rw [mem_insertPlace, h]
    exact ⟨fun g => g.resolve_left (by rintro rfl; exact he rfl), Or.inr⟩
  · rfl

theorem placesOf_remove (d : Nat) (c : StringCtl) (u : Urgency) : c.PlacesOf d (c.setQueue u (removePlace d (c.queue u))) := by
  refine ⟨by cases u <;> rfl, fun v e he => ?_⟩
  rw [queue_setQueue]
  split
  · rename_i h
    simp [removePlace, h, he]
  · rfl

/-- What an entry into a queue does to the strings. -/
theorem str_enterAt {s : State} {d : Nat} {x : Display} (h : s.display d = some x) (u : Urgency) (n : Nat) :
    (∀ j, j ≠ x.cfg.string → (s.enterAt d u n).str j = s.str j) ∧
      (s.str x.cfg.string).PlacesOf d ((s.enterAt d u n).str x.cfg.string) := by
  unfold State.enterAt
  rw [h]
  refine ⟨fun j hj => ?_, ?_⟩
  · exact str_setStr_ne s _ hj
  · have := str_setStr_same s x.cfg.string
      ((s.str x.cfg.string).setQueue u (insertPlace (s.before u) { display := d, stamp := n } ((s.str x.cfg.string).queue u)))
    exact this.symm ▸ placesOf_insert _ _ _ _ _

theorem str_enter {s : State} {d : Nat} {x : Display} (h : s.display d = some x) (u : Urgency) :
    (∀ j, j ≠ x.cfg.string → (s.enter d u).str j = s.str j) ∧
      (s.str x.cfg.string).PlacesOf d ((s.enter d u).str x.cfg.string) := by
  unfold State.enter
  rw [h]
  obtain ⟨h1, h2⟩ := str_enterAt (s := s.setStr x.cfg.string { s.str x.cfg.string with counter := (s.str x.cfg.string).counter + 1 })
    (d := d) (x := x) h u (s.str x.cfg.string).counter
  refine ⟨fun j hj => (h1 j hj).trans (str_setStr_ne s _ hj), ?_⟩
  rw [str_setStr_same] at h2
  exact (placesOf_counter d _ _).trans h2

theorem str_leaveQueue {s : State} {d : Nat} {x : Display} (h : s.display d = some x) :
    (∀ j, j ≠ x.cfg.string → (s.leaveQueue d).str j = s.str j) ∧
      (s.str x.cfg.string).PlacesOf d ((s.leaveQueue d).str x.cfg.string) := by
  cases hs : x.rt.state with
  | queued u =>
    rw [show s.leaveQueue d = s.setStr x.cfg.string ((s.str x.cfg.string).setQueue u (removePlace d ((s.str x.cfg.string).queue u))) by
      simp [State.leaveQueue, h, hs], str_setStr_same]
    exact ⟨fun j hj => str_setStr_ne s _ hj, placesOf_remove _ _ _⟩
  | clean => simp [State.leaveQueue, h, hs, StringCtl.PlacesOf.refl]
  | opened => simp [State.leaveQueue, h, hs, StringCtl.PlacesOf.refl]
  | faulted => simp [State.leaveQueue, h, hs, StringCtl.PlacesOf.refl]

/-! ### One mark -/

/-- R132: a mark that moves its display to no queue leaves the strings. -/
theorem mark_strings_still {s : State} {d : Nat} {u : Urgency}
    (h : ∀ x, s.display d = some x → (x.markedAt u).rt.state = x.rt.state) : (s.mark d u).strings = s.strings := by
  unfold State.mark
  cases hx : s.display d with
  | none => rfl
  | some x =>
    have h := h x hx
    cases hs : x.rt.state with
    | faulted => simp [hs]
    | opened => simp [hs, State.setDisplay]
    | clean => simp [Display.markedAt, UpdateState.raised, hs] at h
    | queued v =>
      have hv : u.higher v = false := by
        cases u <;> cases v <;> first | rfl | simp [Display.markedAt, UpdateState.raised, hs, Urgency.code] at h
      simp [hs, hv]

/-- R131, R132: a mark that moves its display to a queue does so with a fresh stamp, out of the queue it was in. -/
theorem mark_str_moved {s : State} {d : Nat} {u : Urgency} {x : Display} (hx : s.display d = some x)
    (h : (x.markedAt u).rt.state ≠ x.rt.state) :
    (x.markedAt u).rt.state = .queued u ∧ (∀ j, j ≠ x.cfg.string → (s.mark d u).str j = s.str j) ∧
      (s.str x.cfg.string).PlacesOf d ((s.mark d u).str x.cfg.string) ∧
      ((s.mark d u).str x.cfg.string).counter = (s.str x.cfg.string).counter + 1 ∧
      ∀ v e, e.display = d →
        (e ∈ ((s.mark d u).str x.cfg.string).queue v ↔
          (v = u ∧ e.stamp = (s.str x.cfg.string).counter) ∨ (x.rt.state ≠ .queued v ∧ e ∈ (s.str x.cfg.string).queue v)) := by
  have enter : ∀ s' : State, s'.display d = some x →
      ((s'.enter d u).str x.cfg.string).counter = (s'.str x.cfg.string).counter + 1 ∧
        ∀ v e, e.display = d → (e ∈ ((s'.enter d u).str x.cfg.string).queue v ↔
          (v = u ∧ e.stamp = (s'.str x.cfg.string).counter) ∨ e ∈ (s'.str x.cfg.string).queue v) := by
    intro s' h'
    have e1 : (s'.enter d u).str x.cfg.string =
        ({ s'.str x.cfg.string with counter := (s'.str x.cfg.string).counter + 1 } : StringCtl).setQueue u
          (insertPlace ((s'.setStr x.cfg.string { s'.str x.cfg.string with counter := (s'.str x.cfg.string).counter + 1 }).before u)
            { display := d, stamp := (s'.str x.cfg.string).counter } ((s'.str x.cfg.string).queue u)) := by
      have a : s'.enter d u = (s'.setStr x.cfg.string
          { s'.str x.cfg.string with counter := (s'.str x.cfg.string).counter + 1 }).enterAt d u (s'.str x.cfg.string).counter := by
        simp only [State.enter, h']
      have b : (s'.setStr x.cfg.string { s'.str x.cfg.string with counter := (s'.str x.cfg.string).counter + 1 }).display d = some x := h'
      rw [a]
      simp only [State.enterAt, b, str_setDisplay, str_setStr_same]
      cases u <;> rfl
    rw [e1]
    refine ⟨by cases u <;> rfl, fun v e he => ?_⟩
    rw [queue_setQueue]
    split
    · rename_i hv
      subst hv
      rw [mem_insertPlace]
      refine or_congr ⟨fun g => ⟨rfl, by rw [g]⟩, fun g => ?_⟩ Iff.rfl
      obtain ⟨a, b⟩ := e
      obtain rfl : a = d := he
      obtain ⟨-, rfl⟩ := g
      rfl
    · rename_i hv
      simp only [hv, false_and, false_or]
      cases v <;> rfl
  cases hs : x.rt.state with
  | faulted => simp [Display.markedAt, UpdateState.raised, hs] at h
  | opened => simp [Display.markedAt, UpdateState.raised, hs] at h
  | clean =>
    have e : s.mark d u = s.enter d u := by simp [State.mark, hx, hs]
    obtain ⟨h1, h2⟩ := str_enter hx u
    obtain ⟨h3, h4⟩ := enter s hx
    rw [e]
    exact ⟨by simp [Display.markedAt, UpdateState.raised, hs], h1, h2, h3, fun v f hf => by simp [h4 v f hf]⟩
  | queued w =>
    have hu : u.code < w.code := by
      by_contra g
      simp [Display.markedAt, UpdateState.raised, hs, g] at h
    have e : s.mark d u = (s.leaveQueue d).enter d u := by simp [State.mark, hx, hs, Urgency.higher, hu]
    have hl : (s.leaveQueue d).display d = some x := by rw [display_leaveQueue, hx]
    have el : (s.leaveQueue d).str x.cfg.string =
        (s.str x.cfg.string).setQueue w (removePlace d ((s.str x.cfg.string).queue w)) := by
      simp [State.leaveQueue, hx, hs]
    obtain ⟨h1, h2⟩ := str_enter hl u
    obtain ⟨h3, h4⟩ := enter (s.leaveQueue d) hl
    obtain ⟨g1, g2⟩ := str_leaveQueue hx
    have hc : ((s.leaveQueue d).str x.cfg.string).counter = (s.str x.cfg.string).counter := by rw [el]; cases w <;> rfl
    rw [e]
    refine ⟨by simp [Display.markedAt, UpdateState.raised, hs, hu], fun j hj => (h1 j hj).trans (g1 j hj), g2.trans h2,
      by rw [h3, hc], fun v f hf => ?_⟩
    rw [h4 v f hf, hc, el, queue_setQueue]
    by_cases hv : v = w
    · subst hv
      simp [removePlace, hf]
    · have : UpdateState.queued w ≠ .queued v := fun g => hv (by cases g; rfl)
      simp [hv, this]

/-! ### Several marks in one step -/

/-- The marks of a list are of its displays. -/
theorem marks_display_other (ms : List (Nat × Urgency)) (s : State) {d : Nat} (h : ∀ m ∈ ms, m.1 ≠ d) :
    (s.marks ms).display d = s.display d := by
  induction ms generalizing s with
  | nil => rfl
  | cons m ms ih =>
    refine (ih (s.mark m.1 m.2) fun n hn => h n (List.mem_cons_of_mem _ hn)).trans ?_
    rw [display_mark, if_neg (h m List.mem_cons_self).symm]

/-- A list that marks each display at one urgency alone. -/
def AtOne (ms : List (Nat × Urgency)) : Prop := ∀ a ∈ ms, ∀ b ∈ ms, a.1 = b.1 → a.2 = b.2

theorem marks_display (ms : List (Nat × Urgency)) (s : State) (hc : AtOne ms) {d : Nat} {u : Urgency} (h : (d, u) ∈ ms) :
    (s.marks ms).display d = (s.display d).map (·.markedAt u) := by
  induction ms generalizing s with
  | nil => cases h
  | cons m ms ih =>
    have hc' : AtOne ms := fun a ha b hb => hc a (List.mem_cons_of_mem _ ha) b (List.mem_cons_of_mem _ hb)
    show ((s.mark m.1 m.2).marks ms).display d = _
    by_cases hm : (d, u) ∈ ms
    · rw [ih (s.mark m.1 m.2) hc' hm, display_mark]
      split
      · rename_i hd
        obtain rfl : u = m.2 := hc _ h _ List.mem_cons_self hd
        rw [hd]
        cases s.display m.1 <;> simp
      · rfl
    · obtain rfl : (d, u) = m := by
        rcases List.mem_cons.1 h with h | h
        · exact h
        · exact absurd h hm
      rw [marks_display_other ms, display_mark, if_pos rfl]
      rintro ⟨a, b⟩ hn rfl
      obtain rfl : b = u := hc _ (List.mem_cons_of_mem _ hn) _ h rfl
      exact hm hn

/-- The display that a mark names is stored anew, if it changes at all. -/
theorem mark_displays (s : State) (d : Nat) (u : Urgency) :
    (s.mark d u).displays = s.displays ∨
      ∃ x y, s.display d = some x ∧ (s.mark d u).displays = Tab.store s.displays d y := by
  have hl : (s.leaveQueue d).displays = s.displays := by
    unfold State.leaveQueue
    split
    · rfl
    · split <;> rfl
  have he : ∀ s' : State, s'.displays = s.displays → ∀ x, s.display d = some x →
      ∃ y, (s'.enter d u).displays = Tab.store s.displays d y := by
    intro s' h x hx
    have h' : s'.display d = some x := by rw [State.display, h]; exact hx
    exact ⟨{ x with rt := { x.rt with state := .queued u } }, by
      simp only [State.enter, State.enterAt, h', show ∀ c, (s'.setStr x.cfg.string c).display d = some x from fun _ => h']
      exact congrArg (Tab.store · _ _) h⟩
  cases hx : s.display d with
  | none => exact Or.inl (by simp [State.mark, hx])
  | some x =>
    cases hs : x.rt.state with
    | faulted => exact Or.inl (by simp [State.mark, hx, hs])
    | clean =>
      obtain ⟨y, hy⟩ := he s rfl x hx
      exact Or.inr ⟨x, y, rfl, by simp [State.mark, hx, hs, hy]⟩
    | opened => exact Or.inr ⟨x, _, rfl, by simp only [State.mark, hx, hs]; rfl⟩
    | queued v =>
      by_cases hv : u.higher v = true
      · obtain ⟨y, hy⟩ := he _ hl x hx
        exact Or.inr ⟨x, y, rfl, by simp [State.mark, hx, hs, hv, hy]⟩
      · exact Or.inl (by simp [State.mark, hx, hs, hv])

theorem marks_indices (ms : List (Nat × Urgency)) (s : State) (h : Tab.Rising s.displays) :
    Tab.Rising (s.marks ms).displays ∧ (s.marks ms).displays.map (·.1) = s.displays.map (·.1) := by
  induction ms generalizing s with
  | nil => exact ⟨h, rfl⟩
  | cons m ms ih =>
    rcases mark_displays s m.1 m.2 with e | ⟨x, y, hx, e⟩
    · obtain ⟨h1, h2⟩ := ih (s.mark m.1 m.2) (by rw [e]; exact h)
      exact ⟨h1, h2.trans (by rw [e])⟩
    · obtain ⟨h1, h2⟩ := ih (s.mark m.1 m.2) (by rw [e]; exact Tab.store_rising h _ _)
      exact ⟨h1, h2.trans (by rw [e]; exact Tab.store_indices h hx _)⟩

/-- One mark as it stands among others. -/
theorem mark_strings (s : State) (d : Nat) (u : Urgency) (k : StringNo) :
    (s.str k).PlacesOf d ((s.mark d u).str k) ∧ (¬s.Rises (s.mark d u) k d → (s.mark d u).str k = s.str k) := by
  cases hx : s.display d with
  | none =>
    rw [show s.mark d u = s by simp [State.mark, hx]]
    exact ⟨StringCtl.PlacesOf.refl _ _, fun _ => rfl⟩
  | some x =>
    have hm : (s.mark d u).display d = some (x.markedAt u) := by rw [display_mark, if_pos rfl, hx]; rfl
    by_cases h : (x.markedAt u).rt.state = x.rt.state
    · have e : (s.mark d u).str k = s.str k := congrArg (·[k]) (mark_strings_still fun y hy => by
        rw [hx] at hy
        cases hy
        exact h)
      rw [e]
      exact ⟨StringCtl.PlacesOf.refl _ _, fun _ => rfl⟩
    · obtain ⟨-, h1, h2, -⟩ := mark_str_moved hx h
      by_cases hk : k = x.cfg.string
      · subst hk
        exact ⟨h2, fun hn => absurd ⟨x, _, hx, hm, rfl, h⟩ hn⟩
      · rw [h1 k hk]
        exact ⟨StringCtl.PlacesOf.refl _ _, fun _ => rfl⟩

theorem atOne_of_rising {ms : List (Nat × Urgency)} (h : (ms.map (·.1)).Pairwise (· < ·)) : AtOne ms := by
  induction ms with
  | nil => exact nofun
  | cons m ms ih =>
    rw [List.map_cons, List.pairwise_cons] at h
    have hlt : ∀ n ∈ ms, m.1 < n.1 := fun n hn => h.1 _ (List.mem_map_of_mem hn)
    intro a ha b hb hab
    rcases List.mem_cons.1 ha with ha | ha <;> rcases List.mem_cons.1 hb with hb | hb
    · rw [ha, hb]
    · exact absurd hab (ha ▸ Nat.ne_of_lt (hlt b hb))
    · exact absurd hab (hb ▸ Nat.ne_of_gt (hlt a ha))
    · exact ih h.2 a ha b hb hab

theorem AtOne.tail {m : Nat × Urgency} {ms : List (Nat × Urgency)} (h : AtOne (m :: ms)) : AtOne ms :=
  fun a ha b hb => h a (List.mem_cons_of_mem _ ha) b (List.mem_cons_of_mem _ hb)

/-- The first of several marks makes its display what it is after all of them. -/
theorem marks_first {m : Nat × Urgency} {ms : List (Nat × Urgency)} (s : State) (h : AtOne (m :: ms)) :
    ((s.mark m.1 m.2).marks ms).display m.1 = (s.mark m.1 m.2).display m.1 := by
  have e : (s.mark m.1 m.2).display m.1 = (s.display m.1).map (·.markedAt m.2) := by rw [display_mark, if_pos rfl]
  have e' : ((s.mark m.1 m.2).marks ms).display m.1 = (s.display m.1).map (·.markedAt m.2) :=
    marks_display (m :: ms) s h List.mem_cons_self
  rw [e, e']

theorem rises_cons {m : Nat × Urgency} {ms : List (Nat × Urgency)} (s : State) (h : AtOne (m :: ms)) (k : StringNo) (d : Nat) :
    (s.Rises ((s.mark m.1 m.2).marks ms) k d ↔
      if d = m.1 then s.Rises (s.mark m.1 m.2) k d else (s.mark m.1 m.2).Rises ((s.mark m.1 m.2).marks ms) k d) ∧
      ¬(s.mark m.1 m.2).Rises ((s.mark m.1 m.2).marks ms) k m.1 := by
  refine ⟨?_, ?_⟩
  · split
    · rename_i hd
      subst hd
      unfold State.Rises
      rw [marks_first s h]
    · rename_i hd
      unfold State.Rises
      rw [show (s.mark m.1 m.2).display d = s.display d by rw [display_mark, if_neg hd]]
  · rintro ⟨x, y, hx, hy, -, hne⟩
    rw [marks_first s h, hx] at hy
    cases hy
    exact hne rfl

/-- R132: several marks change the strings in the queues and the entry counters alone, and by the displays alone that rise. -/
theorem marks_strings (ms : List (Nat × Urgency)) (s : State) (h : AtOne ms) (k : StringNo) :
    ((s.marks ms).str k).apart = (s.str k).apart ∧
      (∀ u e, ¬s.Rises (s.marks ms) k e.display → (e ∈ ((s.marks ms).str k).queue u ↔ e ∈ (s.str k).queue u)) ∧
      ((∀ d, ¬s.Rises (s.marks ms) k d) → (s.marks ms).str k = s.str k) := by
  refine ⟨marks_apart s ms k, ?_⟩
  induction ms generalizing s with
  | nil => exact ⟨fun _ _ _ => Iff.rfl, fun _ => rfl⟩
  | cons m ms ih =>
    obtain ⟨h1, h2⟩ := ih (s.mark m.1 m.2) h.tail
    obtain ⟨g1, g2⟩ := mark_strings s m.1 m.2 k
    have hr := rises_cons s h k
    refine ⟨fun u e he => ?_, fun hn => ?_⟩
    · show e ∈ (((s.mark m.1 m.2).marks ms).str k).queue u ↔ _
      replace he : ¬s.Rises ((s.mark m.1 m.2).marks ms) k e.display := he
      by_cases hd : e.display = m.1
      · rw [(hr _).1, if_pos hd] at he
        refine (h1 u e (hd ▸ (hr m.1).2)).trans ?_
        rw [g2 (hd ▸ he)]
      · rw [(hr _).1, if_neg hd] at he
        exact (h1 u e he).trans (g1.2 u e hd)
    · replace hn : ∀ d, ¬s.Rises ((s.mark m.1 m.2).marks ms) k d := hn
      refine (h2 fun d => ?_).trans (g2 ?_)
      · by_cases hd : d = m.1
        · exact hd ▸ (hr m.1).2
        · have := hn d
          rwa [(hr d).1, if_neg hd] at this
      · have := hn m.1
        rwa [(hr m.1).1, if_pos rfl] at this

/-- R131, R132: each display that rises takes a fresh stamp, in the order of the list, and leaves the queue it was in. -/
theorem marks_order (ms : List (Nat × Urgency)) (s : State) (h : (ms.map (·.1)).Pairwise (· < ·)) (k : StringNo) :
    ∃ ds : List Nat, ds.Pairwise (· < ·) ∧ (∀ d, d ∈ ds ↔ s.Rises (s.marks ms) k d) ∧
      ((s.marks ms).str k).counter = (s.str k).counter + ds.length ∧
      ∀ (n d : Nat) (x y : Display) (u : Urgency), ds[n]? = some d → s.display d = some x → (s.marks ms).display d = some y →
        y.rt.state = .queued u →
        ∀ v e, e.display = d →
          (e ∈ ((s.marks ms).str k).queue v ↔
            (v = u ∧ e.stamp = (s.str k).counter + n) ∨ (x.rt.state ≠ .queued v ∧ e ∈ (s.str k).queue v)) := by
  induction ms generalizing s with
  | nil => exact ⟨[], List.Pairwise.nil, fun d => ⟨nofun, fun ⟨x, y, hx, hy, _, hne⟩ => by
      rw [show s.marks [] = s from rfl, hx] at hy
      cases hy
      exact absurd rfl hne⟩, rfl, fun n d x y u h => by simp at h⟩
  | cons m ms ih =>
    rw [List.map_cons, List.pairwise_cons] at h
    obtain ⟨hlt, hp⟩ := h
    have hc : AtOne (m :: ms) := atOne_of_rising (List.pairwise_cons.2 ⟨hlt, hp⟩)
    obtain ⟨ds, h1, h2, h3, h4⟩ := ih (s.mark m.1 m.2) hp
    have hr := rises_cons s hc k
    have hds : ∀ d ∈ ds, m.1 < d := by
      intro d hd
      obtain ⟨x, y, hx, hy, -, hne⟩ := (h2 d).1 hd
      by_cases hm : d ∈ ms.map (·.1)
      · exact hlt d hm
      · rw [marks_display_other ms _ (fun n hn hd' => hm (by rw [← hd']; exact List.mem_map_of_mem hn)), hx] at hy
        cases hy
        exact absurd rfl hne
    have hother : ∀ d ∈ ds, (s.mark m.1 m.2).display d = s.display d := fun d hd => by
      rw [display_mark, if_neg (Nat.ne_of_gt (hds d hd))]
    obtain ⟨g1, g2⟩ := mark_strings s m.1 m.2 k
    by_cases hm : s.Rises (s.mark m.1 m.2) k m.1
    · obtain ⟨x, y, hx, hy, rfl, hne⟩ := id hm
      rw [display_mark, if_pos rfl, hx] at hy
      obtain rfl : x.markedAt m.2 = y := by simpa using hy
      obtain ⟨e1, -, -, e2, e3⟩ := mark_str_moved hx hne
      refine ⟨m.1 :: ds, List.pairwise_cons.2 ⟨hds, h1⟩, fun d => ?_, ?_, ?_⟩
      · refine Iff.trans ?_ (hr d).1.symm
        by_cases hd : d = m.1
        · subst hd
          rw [if_pos rfl]
          simpa using hm
        · rw [if_neg hd, ← h2 d]
          simp [hd]
      · refine Eq.trans h3 ?_
        rw [e2, List.length_cons]
        omega
      · intro n d z w u hn hz hw hu v f hf
        cases n with
        | zero =>
          obtain rfl : m.1 = d := by simpa using hn
          rw [hx] at hz
          cases hz
          rw [show (s.marks (m :: ms)).display m.1 = (s.mark m.1 m.2).display m.1 from marks_first s hc, display_mark, if_pos rfl,
            hx] at hw
          obtain rfl : x.markedAt m.2 = w := by simpa using hw
          obtain rfl : m.2 = u := by simpa [e1] using hu
          have := ((marks_strings ms (s.mark m.1 m.2) hc.tail x.cfg.string).2.1 v f (hf ▸ (hr m.1).2)).trans (e3 v f hf)
          exact this
        | succ n =>
          have hn' : ds[n]? = some d := hn
          have hd := List.mem_of_getElem? hn'
          have := h4 n d z w u hn' (by rw [hother d hd, hz]) hw hu v f hf
          refine this.trans ?_
          rw [e2, g1.2 v f (by rw [hf]; exact Nat.ne_of_gt (hds d hd)),
            show (s.str x.cfg.string).counter + 1 + n = (s.str x.cfg.string).counter + (n + 1) by omega]
    · refine ⟨ds, h1, fun d => ?_, ?_, ?_⟩
      · refine Iff.trans ?_ (hr d).1.symm
        by_cases hd : d = m.1
        · subst hd
          rw [if_pos rfl]
          exact ⟨fun h => absurd (hds _ h) (Nat.lt_irrefl _), fun h => absurd h hm⟩
        · rw [if_neg hd, ← h2 d]
      · rw [← g2 hm]
        exact h3
      · intro n d z w u hn hz hw hu v f hf
        have hd := List.mem_of_getElem? hn
        have := h4 n d z w u hn (by rw [hother d hd, hz]) hw hu v f hf
        rwa [g2 hm] at this

/-- R132: several marks in one step, each display at one urgency, are a round of marks. -/
theorem marks_round (ms : List (Nat × Urgency)) (s : State) (h : AtOne ms)
    (hp : Tab.Rising s.displays → (ms.map (·.1)).Pairwise (· < ·)) : s.Marks (s.marks ms) fun d _ u => (d, u) ∈ ms where
  absent d hd := by
    by_cases hm : ∃ m ∈ ms, m.1 = d
    · obtain ⟨⟨a, u⟩, hm, rfl⟩ := hm
      rw [marks_display ms s h hm, hd]
      rfl
    · rw [marks_display_other ms s (fun m hm' hd' => hm ⟨m, hm', hd'⟩), hd]
  unmarked d x hx hn := by rw [marks_display_other ms s (fun m hm hd => hn m.2 (by rw [← hd]; exact hm)), hx]
  marked d x u hx hu := by rw [marks_display ms s h hu.1, hx]; rfl
  strings k := by
    have := (marks_strings ms s h k).1
    generalize (s.marks ms).str k = c, s.str k = e at this
    obtain ⟨h1, h2, h3, h4, h5, h6, h7, h8, h9⟩ := apart_fields this
    simp only [← h1, ← h2, ← h3, ← h4, ← h5, ← h6, ← h7, ← h8, ← h9]
  still k := (marks_strings ms s h k).2.2
  places k := (marks_strings ms s h k).2.1
  indices hr := (marks_indices ms s hr).2
  order hr k := marks_order ms s (hp hr) k

/-- The urgencies of a round may be said in other words, and only of the displays that are there. -/
theorem State.Marks.congr_marks {s t : State} {m m' : Nat → Display → Urgency → Prop} (h : s.Marks t m)
    (hm : ∀ d x, s.display d = some x → ∀ u, m d x u ↔ m' d x u) : s.Marks t m' where
  absent := h.absent
  unmarked d x hx hn := h.unmarked d x hx fun u hu => hn u ((hm d x hx u).1 hu)
  marked d x u hx hu := h.marked d x u hx ⟨(hm d x hx u).2 hu.1, fun v hv => hu.2 v ((hm d x hx v).1 hv)⟩
  strings := h.strings
  still := h.still
  places := h.places
  indices := h.indices
  order := h.order

/-- R132: a round that reaches no display changes nothing. -/
theorem State.Marks.none {s : State} {m : Nat → Display → Urgency → Prop} (h : ∀ d x u, s.display d = some x → ¬m d x u) : s.Marks s m :=
  (marks_round [] s nofun fun _ => List.Pairwise.nil).congr_marks fun d x hx u => ⟨nofun, fun hu => absurd hu (h d x u hx)⟩

/-- R132: in a table in canonical form a block's marks in one step reach each display at the urgency that the block gives it. -/
theorem markBy_round (s : State) (h : Tab.Rising s.displays) (f : Nat → Display → Option Urgency) :
    s.Marks (s.markBy f) fun d x u => f d x = some u := by
  have hp : ((s.displays.filterMap fun e => (f e.1 e.2).map fun u => (e.1, u)).map (·.1)).Pairwise (· < ·) := by
    rw [List.map_filterMap]
    refine List.Pairwise.filterMap _ (fun a b hab c hc d hd => ?_) h
    cases ha : f a.1 a.2 <;> cases hb : f b.1 b.2 <;> simp [ha, hb] at hc hd
    subst hc hd
    exact hab
  refine (marks_round _ s (atOne_of_rising hp) fun _ => hp).congr_marks fun d x hx u => ?_
  rw [List.mem_filterMap]
  refine ⟨?_, fun hu => ⟨(d, x), Tab.mem_of_fetch hx, by simp [hu]⟩⟩
  rintro ⟨⟨i, y⟩, he, hu⟩
  cases hf : f i y with
  | none => simp [hf] at hu
  | some v =>
    simp only [hf, Option.map_some, Option.some.injEq, Prod.mk.injEq] at hu
    obtain ⟨rfl, rfl⟩ := hu
    rw [State.display, Tab.fetch_of_mem h he] at hx
    cases hx
    exact hf

theorem markWhere_round (s : State) (h : Tab.Rising s.displays) (p : Nat → Display → Bool) (u : Urgency) :
    s.Marks (s.markWhere p u) fun d x v => p d x = true ∧ v = u := by
  refine (markBy_round s h _).congr_marks fun d x _ v => ?_
  by_cases hp : p d x = true <;> simp [hp, eq_comm]

/-- R132: every present display marked at one urgency, in a table of any form. -/
theorem markAll_round (s : State) (u : Urgency) : s.Marks (s.markAll u) fun _ _ v => v = u := by
  have he : (s.displays.filterMap fun e => (some u).map fun v => (e.1, v)) = s.displays.map fun e => (e.1, u) := by
    rw [← List.filterMap_eq_map]
    rfl
  have hm : s.markAll u = s.marks (s.displays.map fun e => (e.1, u)) := congrArg s.marks he
  rw [hm]
  refine (marks_round _ s ?_ fun h => ?_).congr_marks fun d x hx v => ?_
  · intro a ha b hb _
    obtain ⟨_, _, rfl⟩ := List.mem_map.1 ha
    obtain ⟨_, _, rfl⟩ := List.mem_map.1 hb
    rfl
  · rw [List.map_map]
    exact List.pairwise_map.2 h
  · rw [List.mem_map]
    exact ⟨fun ⟨_, _, hv⟩ => by cases hv; rfl, fun hv => ⟨(d, x), Tab.mem_of_fetch hx, by rw [hv]⟩⟩

/-- A round of marks is of the displays and the strings alone. -/
theorem State.Marks.congr {s s' t t' : State} {m : Nat → Display → Urgency → Prop} (h : s.Marks t m)
    (h1 : s'.displays = s.displays) (h2 : s'.strings = s.strings) (h3 : t'.display = t.display) (h4 : t'.strings = t.strings)
    (h5 : Tab.Rising s.displays → t'.displays.map (·.1) = t.displays.map (·.1)) : s'.Marks t' m := by
  have a : s'.display = s.display := funext fun d => congrArg (Tab.fetch · d) h1
  have b : s'.str = s.str := funext fun k => congrArg (·[k]) h2
  have c : t'.str = t.str := funext fun k => congrArg (·[k]) h4
  have e : s'.Rises t' = s.Rises t := by
    unfold State.Rises
    rw [a, h3]
  constructor
  · rw [a, h3]; exact h.absent
  · rw [a, h3]; exact h.unmarked
  · rw [a, h3]; exact h.marked
  · rw [b, c]; exact h.strings
  · rw [b, c, e]; exact h.still
  · rw [b, c, e]; exact h.places
  · intro hr
    rw [h1] at hr ⊢
    exact (h5 hr).trans (h.indices hr)
  · rw [h1, a, b, c, e, h3]
    exact h.order

/-- A round keeps the canonical form of the displays. -/
theorem State.Marks.rising {s t : State} {m : Nat → Display → Urgency → Prop} (h : s.Marks t m) (hr : Tab.Rising s.displays) :
    Tab.Rising t.displays := by
  have hp : (t.displays.map (·.1)).Pairwise (· < ·) := by
    rw [h.indices hr]
    exact List.pairwise_map.2 hr
  exact List.pairwise_map.1 hp

/-- R132: marks that nothing is left to do for leave the displays and the strings. -/
theorem marks_absorbed (ms : List (Nat × Urgency)) (s : State)
    (h : ∀ m ∈ ms, ∀ x, s.display m.1 = some x → x.markedAt m.2 = x) :
    (s.marks ms).display = s.display ∧ (s.marks ms).strings = s.strings := by
  induction ms generalizing s with
  | nil => exact ⟨rfl, rfl⟩
  | cons m ms ih =>
    have h0 : (s.mark m.1 m.2).display = s.display := by
      funext j
      rw [display_mark]
      split
      · rename_i hj
        subst hj
        cases hx : s.display m.1 with
        | none => rfl
        | some x => exact congrArg some (h m List.mem_cons_self x hx)
      · rfl
    obtain ⟨h1, h2⟩ := ih (s.mark m.1 m.2) fun n hn x hx => h n (List.mem_cons_of_mem _ hn) x (h0 ▸ hx)
    exact ⟨h1.trans h0, h2.trans (mark_strings_still fun x hx => by rw [h m List.mem_cons_self x hx])⟩

/-- R132: every present display marked twice, the second time at no higher urgency, is as good as once. -/
theorem State.Marks.again {r s t : State} {u v : Urgency} (h : r.Marks s fun _ _ w => w = u) (g : s.Marks t fun _ _ w => w = v)
    (huv : u.code ≤ v.code) : r.Marks t fun _ _ w => w = u := by
  have hd : t.display = s.display := by
    funext d
    cases hx : r.display d with
    | none => rw [h.absent d hx, g.absent d (h.absent d hx)]
    | some x =>
      have hs := h.marked d x u hx ⟨rfl, fun w hw => Nat.le_of_eq (by rw [hw])⟩
      rw [hs, g.marked d _ v hs ⟨rfl, fun w hw => Nat.le_of_eq (by rw [hw])⟩, markedAt_absorbs x huv]
  have hn : ∀ k d, ¬s.Rises t k d := by
    rintro k d ⟨x, y, hx, hy, -, hne⟩
    rw [hd, hx] at hy
    cases hy
    exact hne rfl
  refine h.congr rfl rfl hd (Vector.ext fun i hi => g.still ⟨i, hi⟩ (hn _)) fun hr => g.indices (h.rising hr)

/-- R132: after every present display is marked, a round at no higher urgency has nothing left to do. -/
theorem markWhere_absorbed {s t : State} {u v : Urgency} (h : s.Marks t fun _ _ w => w = u) (g : u.code ≤ v.code)
    (p : Nat → Display → Bool) : (t.markWhere p v).display = t.display ∧ (t.markWhere p v).strings = t.strings := by
  refine marks_absorbed _ t fun m hm x hx => ?_
  obtain ⟨e, -, hv⟩ := List.mem_filterMap.1 hm
  have hv : m.2 = v := by
    by_cases hp : p e.1 e.2 = true
    · simp only [hp, if_true, Option.map_some, Option.some.injEq] at hv
      rw [← hv]
    · simp [hp] at hv
  cases hz : s.display m.1 with
  | none =>
    rw [h.absent _ hz] at hx
    cases hx
  | some z =>
    rw [h.marked _ z u hz ⟨rfl, fun w hw => Nat.le_of_eq (by rw [hw])⟩] at hx
    cases hx
    rw [hv]
    exact markedAt_absorbs z g

end Sys2Proof.Machine
end

