-- ==== Sys2Proof/Laws/Phases.lean ====
section
/-! SUPPORT. Everything that judging quiet hours anew brings (R19, R35, R128), an entry to a phase (R10, R12, R13, R53, R91, R130) and
the end of LINK_LOST (R16). -/

namespace Sys2Proof.Machine

/-! ### Quiet hours and the entry to a phase -/

/-- R19: quiet hours as the model judges them are those of the rule. -/
theorem quietNow_iff (s : State) :
    s.quietNow = true ↔ s.ship.phase = .normal ∧ s.ship.valid = true ∧ s.node.QuietMinute s.ship.minute := by
  have hw : ∀ a b m : Nat, inQuietWindow a b m = true ↔ (a < b ∧ a ≤ m ∧ m < b) ∨ (b < a ∧ (a ≤ m ∨ m < b)) := by
    intro a b m
    unfold inQuietWindow
    split
    · simp; omega
    · split
      · simp; omega
      · simp; omega
  simp [State.quietNow, NodeParams.QuietMinute, hw, and_assoc]

/-- R16, R24, R55: the write urgency. -/
theorem State.writeUrgency_eq (s : State) : s.writeUrgency = emergencyUrgency s.ship.phase := by
  unfold State.writeUrgency emergencyUrgency
  cases s.ship.phase <;> rfl

/-- R35: what a light level or quiet hours decide of a display. -/
theorem State.showsApart_iff (s t : State) (hp : t.ship.phase = s.ship.phase) (hn : t.notices = s.notices) (c : DisplayConfig) :
    s.ShowsApart t c ↔
      (brightnessUnder t.ship.phase s.ship.light s.ship.quiet c != t.brightness c ||
        t.screenModeUnder s.ship.quiet c != t.screenMode c) = true := by
  have a : t.activeNoticeFor c = s.activeNoticeFor c := by
    unfold State.activeNoticeFor
    rw [hn, hp]
  have b : s.screenMode c = t.screenModeUnder s.ship.quiet c := by
    unfold State.screenMode State.screenModeUnder
    rw [a, hp]
  have d : s.brightness c = brightnessUnder t.ship.phase s.ship.light s.ship.quiet c := by
    unfold State.brightness
    rw [hp]
  rw [State.ShowsApart, b, d]
  simp only [Bool.or_eq_true, bne_iff_ne, ne_eq]
  exact or_congr (not_congr eq_comm) (not_congr eq_comm)

/-- R19, R35, R128: everything that judging quiet hours anew can do. The displays that it marks are those that show otherwise by it;
where every display has just been marked, at no lower urgency, it has no mark left to make. -/
theorem evaluateQuiet_spec (s : State) :
    s.evaluateQuiet.ship = { s.ship with quiet := s.quietNow } ∧
      s.evaluateQuiet.quietCopy =
        (if s.evaluateQuiet.ship.quiet = s.ship.quiet then s.quietCopy else s.evaluateQuiet.ship.quiet) ∧
      (Tab.Rising s.displays →
        s.Marks s.evaluateQuiet fun _ x u => s.ShowsApart s.evaluateQuiet x.cfg ∧ u = emergencyUrgency s.ship.phase) ∧
      (∀ (r : State) (u : Urgency), (r.Marks s fun _ _ v => v = u) → u.code ≤ (emergencyUrgency s.ship.phase).code →
        r.Marks s.evaluateQuiet fun _ _ v => v = u) ∧
      s.evaluateQuiet =
        { s with
          ship := s.evaluateQuiet.ship, displays := s.evaluateQuiet.displays, strings := s.evaluateQuiet.strings
          quietCopy := s.evaluateQuiet.quietCopy } := by
  by_cases h : s.quietNow = s.ship.quiet
  · have e : s.evaluateQuiet = s := by simp [State.evaluateQuiet, h]
    rw [e]
    exact ⟨by rw [h], by simp, fun _ => State.Marks.none fun d x u _ hu => hu.1.elim (fun g => g rfl) fun g => g rfl,
      fun r u hu _ => hu, rfl⟩
  · obtain ⟨t, ht⟩ : ∃ t, t = s.onShip fun h => { h with quiet := s.quietNow } := ⟨_, rfl⟩
    have e : s.evaluateQuiet = { t.markLightQuiet s.ship.light s.ship.quiet with quietCopy := s.quietNow } := by
      simp [State.evaluateQuiet, h, ht]
    have g : t.ScreensOnly (t.markLightQuiet s.ship.light s.ship.quiet) := markWhere_screens _ _ _
    have hs : t.ship = { s.ship with quiet := s.quietNow } := by rw [ht]; rfl
    have hd : s.displays = t.displays := by rw [ht]; rfl
    have hk : s.strings = t.strings := by rw [ht]; rfl
    have hn : t.notices = s.notices := by rw [ht]; rfl
    have hu : t.writeUrgency = emergencyUrgency s.ship.phase := by rw [t.writeUrgency_eq, hs]
    rw [e]
    refine ⟨g.ship_eq.trans hs, ?_, fun hr => ?_, fun r u hru huc => ?_, ?_⟩
    · show s.quietNow = _
      rw [show (t.markLightQuiet s.ship.light s.ship.quiet).ship.quiet = s.quietNow by rw [g.ship_eq, hs]]
      simp [h]
    · have m := (markWhere_round t (hd ▸ hr) _ _).congr (t' := { t.markLightQuiet s.ship.light s.ship.quiet with quietCopy := s.quietNow })
        hd hk rfl rfl fun _ => rfl
      refine m.congr_marks fun d x _ v => ?_
      rw [hu]
      refine and_congr_left' (Iff.trans ?_ (s.showsApart_iff _ ?_ ?_ x.cfg).symm)
      · have ap : ∀ q, (t.markLightQuiet s.ship.light s.ship.quiet).screenModeUnder q x.cfg = t.screenModeUnder q x.cfg := by
          intro q
          unfold State.screenModeUnder State.activeNoticeFor
          rw [g.ship_eq, g.notices_eq]
        show _ ↔ (brightnessUnder (t.markLightQuiet s.ship.light s.ship.quiet).ship.phase s.ship.light s.ship.quiet x.cfg !=
            (t.markLightQuiet s.ship.light s.ship.quiet).brightness x.cfg ||
          (t.markLightQuiet s.ship.light s.ship.quiet).screenModeUnder s.ship.quiet x.cfg !=
            (t.markLightQuiet s.ship.light s.ship.quiet).screenModeUnder
              (t.markLightQuiet s.ship.light s.ship.quiet).ship.quiet x.cfg) = true
        rw [ap, ap, State.brightness, State.brightness, g.ship_eq]
        rfl
      · show (t.markLightQuiet s.ship.light s.ship.quiet).ship.phase = s.ship.phase
        rw [g.ship_eq, hs]
      · exact g.notices_eq.trans hn
    · have hm : r.Marks t fun _ _ v => v = u :=
        hru.congr (t' := t) rfl rfl (funext fun d => congrArg (Tab.fetch · d) hd.symm) hk.symm fun _ => by rw [hd]
      obtain ⟨a, b⟩ := markWhere_absorbed hm (hu ▸ huc) fun _ x =>
        brightnessUnder t.ship.phase s.ship.light s.ship.quiet x.cfg != t.brightness x.cfg ||
          t.screenModeUnder s.ship.quiet x.cfg != t.screenMode x.cfg
      refine hm.congr rfl rfl a b fun hr => ?_
      exact (marks_indices _ t (hm.rising hr)).2
    · obtain ⟨x, y, q⟩ : ∃ x y, t.markLightQuiet s.ship.light s.ship.quiet = { t with displays := x, strings := y } := ⟨_, _, g⟩
      rw [q, ht]
      rfl

/-- R13: what the end of quiet hours marks, the change of phase has marked at no lower urgency. -/
theorem phaseUrgency_covers (p r : Phase) : (phaseUrgency p r).code ≤ (emergencyUrgency r).code := by
  cases p <;> cases r <;> decide

/-- R10, R12, R13, R19, R53, R91, R130: everything that a change of phase can do. -/
theorem changePhase_entered (s : State) (r : Phase) (drill : Bool) : s.Entered (s.changePhase r drill) r drill := by
  obtain ⟨s1, e1⟩ : ∃ s1 : State, s1 = s.onShip fun h =>
    { h with phase := r, drill := drill && r != .normal, hold := s.holdAt r, holdRunOut := false } := ⟨_, rfl⟩
  obtain ⟨s2, e2⟩ : ∃ s2 : State, s2 = if s.ship.phase.emergency != r.emergency then s1.invalidateAll else s1 := ⟨_, rfl⟩
  obtain ⟨s3, e3⟩ : ∃ s3 : State, s3 = if r = .normal then s2.clearCabinFlags else s2 := ⟨_, rfl⟩
  obtain ⟨s4, e4⟩ : ∃ s4 : State, s4 = if r.emergency then s3.freeStrings else s3 := ⟨_, rfl⟩
  obtain ⟨s5, e5⟩ : ∃ s5 : State, s5 = s4.markAll (phaseUrgency s.ship.phase r) := ⟨_, rfl⟩
  have e : s.changePhase r drill = s5.evaluateQuiet := by rw [e5, e4, e3, e2, e1]; rfl
  have em : ∀ p : Phase, p.emergency = true ↔ p = .alert ∨ p = .muster := by intro p; cases p <;> simp [Phase.emergency]
  have f2 : s2 = { s1 with dests := s2.dests } := by rw [e2]; split <;> rfl
  have f3 : s3 = { s2 with cabins := s3.cabins } := by rw [e3]; split <;> rfl
  have f4 : s4 = { s3 with strings := s4.strings } := by rw [e4]; split <;> rfl
  have g := markAll_screens s4 (phaseUrgency s.ship.phase r)
  rw [← e5] at g
  obtain ⟨q1, q2, q3, q4, q5⟩ := evaluateQuiet_spec s5
  have hu : phaseUrgency s.ship.phase r =
      (if r = .alert ∨ r = .muster then .safety else if r = .standDown ∨ s.ship.phase = .alert then .service else .routine) := by
    cases r <;> simp [phaseUrgency]
  rw [e]
  have h4 : s4 = { s with ship := s1.ship, dests := s2.dests, cabins := s3.cabins, strings := s4.strings } := by
    rw [f4, f3, f2, e1]; rfl
  have hship : s5.ship = s1.ship := by rw [g.ship_eq, h4]
  have hdests : s5.evaluateQuiet.dests = s2.dests := (congrArg State.dests q5).trans (by rw [g.dests_eq, h4])
  have hcabins : s5.evaluateQuiet.cabins = s3.cabins := (congrArg State.cabins q5).trans (by rw [g.cabins_eq, h4])
  constructor
  · rw [q1, hship, e1]
    cases r <;> simp [State.onShip, State.holdAt]
  · unfold State.QuietInForce
    have hn : s5.evaluateQuiet.node = s5.node := (congrArg State.node q5).trans rfl
    rw [q1, hn]
    exact quietNow_iff s5
  · rw [q2, show s5.ship.quiet = s.ship.quiet by rw [hship, e1]; rfl, show s5.quietCopy = s.quietCopy by rw [g.quietCopy_eq, h4]]
  · intro hne i
    have hd : s2.dests = Tab.mapAll s.dests Dest.invalidated := by
      have : (s.ship.phase.emergency != r.emergency) = true := by
        cases a : s.ship.phase.emergency <;> cases b : r.emergency <;> first | rfl | exact absurd (by rw [← em, ← em, a, b]) hne
      rw [e2, if_pos this, e1]
      rfl
    rw [hdests, hd, Tab.fetch_mapAll]
    refine ⟨fun h => by rw [h]; rfl, fun x hx => ?_⟩
    rw [hx]
    refine ⟨if x.status = .suspended then [] else x.cells, rfl, fun h => if_neg h⟩
  · intro heq
    have : ¬(s.ship.phase.emergency != r.emergency) = true := by
      rw [← em, ← em] at heq
      cases a : s.ship.phase.emergency <;> cases b : r.emergency <;> simp [a, b] at heq ⊢
    rw [hdests, e2, if_neg this, e1]
    rfl
  · have h2 : s2.cabins = s.cabins := by rw [f2, e1]; rfl
    rw [hcabins, e3]
    split
    · rw [State.clearCabinFlags, h2]
      rfl
    · exact h2
  · refine ⟨{ s with strings := s4.strings }, fun k => ?_, rfl, ?_⟩
    · have h3 : s3.strings = s.strings := by rw [f3, f2, e1]; rfl
      show s4.strings[k] = _
      rw [e4]
      by_cases hr : r = .alert ∨ r = .muster
      · rw [if_pos ((em r).2 hr), if_pos hr]
        show (s3.strings.map StringCtl.free)[k] = _
        rw [h3]
        simp only [Fin.getElem_fin, Vector.getElem_map]
        show (s.str k).free = _
        cases hk : (s.str k).state <;> simp [StringCtl.free, freedState, hk]
        all_goals rw [← hk]
      · rw [if_neg (fun h => hr ((em r).1 h)), if_neg hr, h3]
        rfl
    · rw [← hu]
      refine q4 _ _ ?_ ?_
      · rw [e5]
        exact (markAll_round s4 _).congr (by rw [h4]) rfl rfl rfl fun _ => rfl
      · rw [hship, e1]
        exact phaseUrgency_covers _ _
  · obtain ⟨h, x, y, z, q⟩ : ∃ h x y z, s5.evaluateQuiet = { s5 with ship := h, displays := x, strings := y, quietCopy := z } :=
      ⟨_, _, _, _, q5⟩
    rw [q, g, h4]

/-! ### The end of LINK_LOST -/

/-- R16: where every display has already been marked at ROUTINE, the end of a hold that ran out is an entry to NORMAL all the same. -/
theorem State.Entered.of_marked {s m t : State} (h : m.Entered t .normal false) (hs : s.Marks m fun _ _ u => u = .routine)
    (hm : { m with displays := s.displays, strings := s.strings } = s) (hp : s.ship.phase ≠ .alert) : s.Entered t .normal false := by
  have f : ∃ x y, m = { s with displays := x, strings := y } := ⟨m.displays, m.strings, by rw [← hm]⟩
  obtain ⟨x, y, rfl⟩ := f
  obtain ⟨h1, h2, h3, h4, h5, h6, ⟨n, n1, n2, n3⟩, h8⟩ := h
  refine ⟨h1, h2, h3, h4, h5, h6, ⟨s, fun k => by simp, rfl, ?_⟩, ?_⟩
  · have hd : n.displays = x := congrArg State.displays n2
    have hk : n.strings = y := Vector.ext fun i hi => (n1 ⟨i, hi⟩).trans rfl
    have hu : (if Phase.normal = Phase.alert ∨ Phase.normal = Phase.muster then Urgency.safety
        else if Phase.normal = Phase.standDown ∨ s.ship.phase = Phase.alert then .service else .routine) = .routine := by
      simp [hp]
    have n4 : n.Marks t fun _ _ u => u = .routine := by
      refine n3.congr_marks fun _ _ _ u => ?_
      rw [hu]
    have hn : s.Marks n fun _ _ u => u = .routine := hs.congr rfl rfl (funext fun d => congrArg (Tab.fetch · d) hd) hk fun _ => by rw [hd]
    rw [hu]
    exact hn.again n4 (Nat.le_refl _)
  · exact congrArg (fun q : State => { q with displays := s.displays, strings := s.strings }) h8

/-- R15, R16: the bridge heard: the timer runs afresh, and LINK_LOST ends with all that follows. -/
theorem bridgeAlive_restored (s : State) :
    ({ s with ship := { s.ship with silence := some (s.now + s.node.silenceTime * 1000), linkLost := false } } : State).LinkRestored
      s.bridgeAlive s.ship.linkLost := by
  obtain ⟨m, hm⟩ : ∃ m : State, m =
    { s with ship := { s.ship with silence := some (s.now + s.node.silenceTime * 1000), linkLost := false } } := ⟨_, rfl⟩
  have e : s.bridgeAlive = if s.ship.linkLost then (m.markAll m.writeUrgency).applyRunOut else m := by rw [hm]; rfl
  rw [← hm, e]
  have hr := markAll_round m m.writeUrgency
  have hs := markAll_screens m m.writeUrgency
  rw [m.writeUrgency_eq] at hr hs ⊢
  refine ⟨fun h => by rw [h]; rfl, fun h => ?_⟩
  rw [h, if_pos rfl, State.applyRunOut, hs.ship_eq]
  refine ⟨fun hn => ?_, fun hy => ?_⟩
  · rw [if_neg hn]
    exact ⟨hr, by rw [hs]⟩
  · rw [if_pos hy]
    have hu : emergencyUrgency m.ship.phase = .routine := by simp [emergencyUrgency, hy.1]
    rw [hu] at hr hs ⊢
    exact (changePhase_entered _ .normal false).of_marked hr (by rw [hs]) (by simp [hy.1])

end Sys2Proof.Machine
end

