-- ==== Sys2Proof/Laws/Reports.lean ====
section
/-! SUPPORT. What a block does to the Report Queue when it queues a report: one lemma, in the terms of the statements. -/

namespace Sys2Proof.Machine

theorem mem_placeReport (r : Report) (q : List Report) : r ∈ placeReport r q := by
  induction q with
  | nil => simp [placeReport]
  | cons p ps ih =>
    unfold placeReport
    split <;> simp [ih]

/-- A report goes right before the first report of a lower class. -/
theorem placeReport_split (r : Report) (q : List Report) :
    ∃ pre post, q = pre ++ post ∧ placeReport r q = pre ++ r :: post ∧ (∀ p ∈ pre, r.kind.cls ≤ p.kind.cls) ∧
      ∀ p ∈ post.head?, p.kind.cls < r.kind.cls := by
  induction q with
  | nil => exact ⟨[], [], rfl, rfl, by simp, by simp⟩
  | cons p ps ih =>
    obtain ⟨pre, post, h1, h2, h3, h4⟩ := ih
    unfold placeReport
    split
    · exact ⟨[], p :: ps, rfl, rfl, by simp, by simpa using ‹_›⟩
    · refine ⟨p :: pre, post, by simp [h1], by simp [h2], ?_, h4⟩
      simp only [List.mem_cons, forall_eq_or_imp]
      exact ⟨by omega, h3⟩

theorem placeReport_placed (r : Report) (q : List Report) : Placed r q (placeReport r q) := by
  refine ⟨mem_placeReport r q, fun hq => ?_⟩
  obtain ⟨pre, post, h1, h2, h3, h4⟩ := placeReport_split r q
  refine ⟨pre, post, h1, h2, h3, ?_⟩
  cases post with
  | nil => simp
  | cons x xs =>
    have hx : x.kind.cls < r.kind.cls := h4 x rfl
    have hw := (List.pairwise_append.1 (h1 ▸ hq)).2.1
    intro p hp
    rcases List.mem_cons.1 hp with rfl | hp
    · exact hx
    · rcases List.rel_of_pairwise_cons hw hp with h | h <;> omega

theorem cls_le (k : ReportKind) : k.cls ≤ 3 := by cases k <;> decide

/-- The lowest class is below or at every report's, and is some report's class unless it is the highest one. -/
theorem lowestClass_fold (q : List Report) (m : Nat) :
    (∀ r ∈ q, q.foldl (fun m r => min m r.kind.cls) m ≤ r.kind.cls) ∧ q.foldl (fun m r => min m r.kind.cls) m ≤ m ∧
      (q.foldl (fun m r => min m r.kind.cls) m = m ∨ ∃ r ∈ q, q.foldl (fun m r => min m r.kind.cls) m = r.kind.cls) := by
  induction q generalizing m with
  | nil => simp
  | cons p ps ih =>
    obtain ⟨h1, h2, h3⟩ := ih (min m p.kind.cls)
    simp only [List.foldl_cons, List.mem_cons, forall_eq_or_imp, exists_eq_or_imp]
    refine ⟨⟨by omega, h1⟩, by omega, ?_⟩
    rcases h3 with h3 | h3
    · by_cases h : m ≤ p.kind.cls
      · exact Or.inl (by omega)
      · exact Or.inr (Or.inl (by omega))
    · exact Or.inr (Or.inr h3)

theorem lowestClass_oldest {v : Report} {q : List Report} (h : OldestOfLowest v q) : lowestClass q = v.kind.cls := by
  obtain ⟨h1, -, h3⟩ := lowestClass_fold q 3
  have hv := h1 v h.1
  have h4 := cls_le v.kind
  unfold lowestClass
  rcases h3 with h3 | ⟨r, hr, h3⟩
  · omega
  · rcases h.2 r hr with rfl | h5 | h5 <;> omega

/-- R160: in a queue in its order, the first report of the lowest class is the oldest of it. -/
theorem eraseP_oldest {v : Report} {q : List Report} (hq : q.Pairwise reportBefore) (h : OldestOfLowest v q) :
    q.eraseP (fun r => r.kind.cls == v.kind.cls) = q.erase v := by
  induction q with
  | nil => rfl
  | cons p ps ih =>
    by_cases hp : p = v
    · subst hp
      simp
    · have hv : v ∈ ps := by simpa [Ne.symm hp] using h.1
      have hc : p.kind.cls ≠ v.kind.cls := by
        intro hc
        rcases List.rel_of_pairwise_cons hq hv with h1 | h1 <;> rcases h.2 p (by simp) with h2 | h2 | h2 <;>
          first
          | exact hp h2
          | omega
      rw [List.eraseP_cons_of_neg (by simpa using hc), List.erase_cons_tail (by simpa using hp),
        ih hq.of_cons ⟨hv, fun r hr => h.2 r (List.mem_cons_of_mem _ hr)⟩]

/-- R159, R160: what queueing a report does to the Report Queue and the arrival counter. -/
theorem queueReport_reported (s : State) (k : ReportKind) (subject value : Nat) :
    Reported s.stamp k subject value s.reporting (s.queueReport k subject value).reporting := by
  unfold State.queueReport State.reporting Reported
  by_cases ha : ∃ r ∈ s.reports, r.kind = k ∧ r.subject = subject
  · have hb : s.reports.any (fun r => r.kind == k && r.subject == subject) = true := by simpa using ha
    refine ⟨fun _ => by simp [hb], fun hn => ?_⟩
    obtain ⟨r, hr, h⟩ := ha
    exact absurd h (hn r hr)
  · have hb : s.reports.any (fun r => r.kind == k && r.subject == subject) = false := by
      rw [← Bool.not_eq_true]
      simpa using ha
    refine ⟨fun h => absurd h ha, fun _ => ⟨fun hl => ?_, fun hl => ⟨fun hd => ?_, fun v hv hc hw => ?_⟩⟩⟩
    · simp only [hb, Config.reportQueueCapacity, hl, if_true, Bool.false_eq_true, if_false, State.addReport]
      exact ⟨placeReport_placed _ _, trivial⟩
    · have hlow : ¬lowestClass s.reports ≤ k.cls := by
        obtain ⟨-, -, h3⟩ := lowestClass_fold s.reports 3
        unfold lowestClass
        rcases h3 with h3 | ⟨r, hr, h3⟩
        · obtain ⟨r, hr⟩ : ∃ r, r ∈ s.reports := List.exists_mem_of_length_pos (Nat.lt_of_lt_of_le (by decide) hl)
          have h1 := hd r hr
          have h2 := cls_le r.kind
          omega
        · have h1 := hd r hr
          omega
      simp [hb, Config.reportQueueCapacity, Nat.not_lt.2 hl, hlow]
    · simp only [hb, Config.reportQueueCapacity, Nat.not_lt.2 hl, Bool.false_eq_true, if_false, lowestClass_oldest hv, hc,
        if_true, State.addReport, eraseP_oldest hw hv]
      exact ⟨placeReport_placed _ _, trivial⟩

end Sys2Proof.Machine
end

