-- ==== Sys2Proof/Laws/Spelling.lean ====
section
/-! SUPPORT. The byte layouts that the statements write out are those of the model: the check value (R122), the bytes of a value, a
pair, a request and a bulletin (R179, R180), a slot's value in a record (R181) and a report body (R180). -/

namespace Sys2Proof

open Sys2Proof.Machine

/-! ### The check value (R122) -/

/-- One bit of the register, over numbers and over words. -/
theorem crcFeed_toNat (r : Word16) (b : Bool) :
    crcFeed r.toNat b = (if r.msb = b then r <<< 1 else (r <<< 1) ^^^ 0x1021#16).toNat := by
  have hm : r.msb = decide (2 ^ 15 ≤ r.toNat) := by rw [BitVec.msb_eq_decide]
  have hs : (r <<< 1).toNat = 2 * r.toNat % 2 ^ 16 := by
    rw [BitVec.toNat_shiftLeft, Nat.shiftLeft_eq]; omega
  unfold crcFeed
  rw [hm]
  split_ifs
  · rw [hs]
  · rw [BitVec.toNat_xor, hs]; rfl

/-- A step of the register with a byte folded in is a step fed with the byte's leading bit. -/
theorem crcBit_xor (r z : Word16) :
    crcBit (r ^^^ z) = (if r.msb = z.msb then r <<< 1 else (r <<< 1) ^^^ 0x1021#16) ^^^ (z <<< 1) := by
  unfold crcBit
  rw [BitVec.msb_xor, BitVec.shiftLeft_xor_distrib]
  cases r.msb <;> cases z.msb <;> simp
  all_goals rw [BitVec.xor_assoc, BitVec.xor_assoc, BitVec.xor_comm (z <<< 1)]

/-- The leading bits of a byte as it is shifted out. -/
theorem shifted_bits : ∀ b : Byte,
    let z := b.setWidth 16 <<< 8
    [z.msb, (z <<< 1).msb, (z <<< 1 <<< 1).msb, (z <<< 1 <<< 1 <<< 1).msb, (z <<< 1 <<< 1 <<< 1 <<< 1).msb,
        (z <<< 1 <<< 1 <<< 1 <<< 1 <<< 1).msb, (z <<< 1 <<< 1 <<< 1 <<< 1 <<< 1 <<< 1).msb,
        (z <<< 1 <<< 1 <<< 1 <<< 1 <<< 1 <<< 1 <<< 1).msb] = bitsOf b ∧
      z <<< 1 <<< 1 <<< 1 <<< 1 <<< 1 <<< 1 <<< 1 <<< 1 = 0 := by decide +kernel

theorem crcByte_toNat (r : Word16) (b : Byte) : (crcByte r b).toNat = (bitsOf b).foldl crcFeed r.toNat := by
  obtain ⟨h, h0⟩ := shifted_bits b
  simp only [crcByte, crcBit_xor]
  rw [← h, h0]
  simp only [List.foldl_cons, List.foldl_nil, crcFeed_toNat]
  simp

/-- R122: the check value of a byte string is that of its bits, fed one by one. -/
theorem crc16_toNat (bs : List Byte) : (crc16 bs).toNat = crcValue bs := by
  have h : ∀ r : Word16, (bs.foldl crcByte r).toNat = (bs.flatMap bitsOf).foldl crcFeed r.toNat := by
    induction bs with
    | nil => intro r; rfl
    | cons b bs ih => intro r; rw [List.foldl_cons, ih, crcByte_toNat, List.flatMap_cons, List.foldl_append]
  exact h _

/-! ### Requests and bulletins (R179, R180) -/

theorem spelledEach_flatMap {α : Type} {p : α → List Byte → Prop} {f : α → List Byte} (h : ∀ x, p x (f x)) (xs : List α) :
    SpelledEach p xs (xs.flatMap f) := by
  induction xs with
  | nil => rfl
  | cons x xs ih => exact ⟨_, _, h x, ih, rfl⟩

/-- R179: the byte that is sent for a flag reads as that flag. -/
theorem flagByte_reads (b : Bool) : ReadsAs (flagByte b) b := by cases b <;> decide

theorem RawSlot.spelledBy_bytes (x : RawSlot) : x.SpelledBy x.bytes := ⟨_, flagByte_reads _, rfl⟩

theorem FieldValue.spelledBy_bytes (v : FieldValue) : v.SpelledBy v.bytes := by
  cases v with
  | number n => rfl
  | flag b => exact ⟨_, flagByte_reads b, rfl⟩
  | absent => rfl
  | list ns => rfl
  | string cs => rfl
  | slots xs => exact ⟨_, spelledEach_flatMap RawSlot.spelledBy_bytes xs, rfl⟩

theorem pairSpelledBy_pairBytes (p : Nat × FieldValue) : PairSpelledBy p (pairBytes p) := ⟨_, p.2.spelledBy_bytes, rfl⟩

/-- The bytes of a request that is a command spell it. -/
theorem Request.spelledBy_bytes (a : Arrival) (r : Request) (i : Instr) (h : r.command a = some i) : r.SpelledBy r.bytes := by
  cases r <;> first
    | rfl
    | exact ⟨_, spelledEach_flatMap pairSpelledBy_pairBytes _, by simp [Request.bytes]; rfl⟩
    | cases h

/-- The bytes of a bulletin that is a command spell it. -/
theorem Bulletin.spelledBy_bytes (a : Arrival) (b : Bulletin) (i : Instr) (h : b.command a = some i) : b.SpelledBy b.bytes := by
  cases b <;> first | rfl | exact ⟨_, flagByte_reads _, rfl⟩ | cases h

/-! ### Records and reports (R180, R181) -/

theorem value_bytes_layout (v : Value) : v.bytes = valueLayout v := by
  rcases v with _ | cs | g | ⟨n, o⟩ | ⟨_ | ⟨h, m⟩⟩ <;> rfl

theorem report_body_layout (r : Report) : r.body = reportLayout r := by
  unfold Report.body reportLayout
  cases r.stamp.valid <;> rfl

/-- R140: a message of a transaction is the one its step sends. -/
theorem message_eq {s : State} {t : Txn} {code : Nat} {payload : List Byte} (h : s.Message t code payload) :
    s.message t = (code, payload) := by
  rcases h with ⟨h, rfl, x, hx, rfl⟩ | ⟨h, rfl, d, hd⟩ | ⟨h, rfl, rfl⟩ | ⟨h, rfl, x, hx, rfl⟩
  · simp [State.message, h, State.positionByte, hx, codeSelect]
  · simp [State.message, h, hd, codeScreen]
  · simp [State.message, h, codeCommit]
  · simp [State.message, h, State.positionByte, hx, codePoll]

end Sys2Proof
end

