-- ==== Sys2Proof/Laws/Views.lean ====
section
/-! SUPPORT. What the model derives from a state, in the terms of the spec that the statements use: the screen mode, the brightness, the
template in use, the window, the fixed templates, the form check of a WRITE, and a sweep. -/

namespace Sys2Proof.Machine

/-! ### The mode, the brightness, the template in use and the window (R33, R34, R75, R112) -/

/-- R101: of the notices that meet a condition, one has the highest priority in the lowest-numbered slot. -/
theorem exists_highest (p : Nat × Notice → Prop) (t : Tab Notice) (h : ∃ e ∈ t, p e) :
    ∃ i n pre post, t = pre ++ (i, n) :: post ∧ p (i, n) ∧ (∀ e ∈ pre, p e → e.2.priority < n.priority) ∧
      ∀ e ∈ post, p e → e.2.priority ≤ n.priority := by
  induction t with
  | nil => simp at h
  | cons a t ih =>
    by_cases ht : ∃ e ∈ t, p e
    · obtain ⟨i, n, pre, post, rfl, hn, h1, h2⟩ := ih ht
      by_cases ha : p a ∧ n.priority ≤ a.2.priority
      · refine ⟨a.1, a.2, [], pre ++ (i, n) :: post, rfl, ha.1, by simp, fun e he hp => ?_⟩
        rcases List.mem_append.1 he with he | he
        · exact (h1 e he hp).le.trans ha.2
        · rcases List.mem_cons.1 he with rfl | he
          · exact ha.2
          · exact (h2 e he hp).trans ha.2
      · refine ⟨i, n, a :: pre, post, rfl, hn, fun e he hp => ?_, h2⟩
        rcases List.mem_cons.1 he with rfl | he
        · exact Nat.lt_of_not_le fun hle => ha ⟨hp, hle⟩
        · exact h1 e he hp
    · obtain ⟨e, he, hp⟩ := h
      rcases List.mem_cons.1 he with rfl | he
      · exact ⟨e.1, e.2, [], t, rfl, hp, by simp, fun f hf hq => absurd ⟨f, hf, hq⟩ ht⟩
      · exact absurd ⟨e, he, hp⟩ ht

/-- R33: whether there is an active notice. -/
theorem State.activeNoticeFor_isSome (s : State) (c : DisplayConfig) :
    (s.activeNoticeFor c).isSome = true ↔ ∃ n, s.Active c n := by
  have hf : ∀ (l : Tab Notice) (b : Option Notice),
      (l.foldl (fun b p => betterNotice b p.2) b).isSome = true ↔ b.isSome = true ∨ l ≠ [] := by
    intro l
    induction l with
    | nil => simp
    | cons a l ih =>
      intro b
      rw [List.foldl_cons, ih]
      cases b <;> simp [betterNotice]
      split_ifs <;> exact Or.inl rfl
  rw [State.activeNoticeFor, hf]
  simp only [Option.isSome_none, Bool.false_eq_true, false_or, ne_eq, List.filter_eq_nil_iff, not_forall, not_not, exists_prop,
    Bool.and_eq_true, Notice.counts_iff, Notice.scope_iff]
  constructor
  · rintro ⟨e, he, hp⟩
    obtain ⟨i, n, pre, post, ht, hn, h1, h2⟩ := exists_highest
      (fun e => (e.2.current = true ∧ e.2.AboveFloor s.ship.phase) ∧ e.2.InScope c) s.notices ⟨e, he, hp⟩
    exact ⟨n, hn.1.1, hn.1.2, hn.2, i, pre, post, ht, fun e he a b d => h1 e he ⟨⟨a, b⟩, d⟩, fun e he a b d => h2 e he ⟨⟨a, b⟩, d⟩⟩
  · rintro ⟨n, a, b, d, i, pre, post, ht, -⟩
    exact ⟨(i, n), by rw [ht]; simp, ⟨a, b⟩, d⟩

/-- R33: the screen mode. -/
theorem State.screenMode_inMode (s : State) (c : DisplayConfig) : s.InMode c (s.screenMode c) := by
  have h := s.activeNoticeFor_isSome c
  unfold State.InMode State.screenMode State.screenModeUnder
  cases hp : s.ship.phase <;> simp only [reduceCtorEq, false_imp_iff, true_imp_iff, true_and, and_true]
  by_cases ha : ∃ n, s.Active c n
  · refine ⟨fun _ => if_pos (h.2 ha), fun hn => absurd ha (by simpa using hn)⟩
  · rw [if_neg (mt h.1 ha)]
    exact ⟨fun h => absurd h ha, fun _ => ⟨fun hq => if_pos hq, fun hq => if_neg (by simp [hq])⟩⟩

/-- R34: the effective brightness. -/
theorem State.brightness_litAt (s : State) (c : DisplayConfig) : s.LitAt c (s.brightness c) := by
  unfold State.LitAt State.brightness brightnessUnder
  cases s.ship.phase <;> cases s.ship.light <;> cases s.ship.quiet <;> rfl

/-- R112: the template in use. -/
theorem State.templateInUse_inUse (s : State) (c : DisplayClass) (m : ScreenMode) : s.InUse c m (s.templateInUse c m) := by
  have hf : fallbackTemplate c m = fallbackFor c m := by cases c <;> cases m <;> rfl
  refine ⟨fun k hk => ?_, fun h => ?_⟩
  · simp only [State.templateInUse, selectionIndex, hk, hf]
    refine ⟨fun h => if_pos h, fun h => ?_⟩
    rw [if_neg (Nat.not_lt.2 h)]
    cases Tab.fetch s.templates k with
    | none => exact ⟨nofun, fun _ => rfl⟩
    | some t => exact ⟨fun u hu hg => by cases hu; exact if_pos hg, fun hg => if_neg (hg t rfl)⟩
  · simp only [State.templateInUse, selectionIndex, h, hf]

/-- R75: the window. -/
theorem inWindow_iff (c : DisplayConfig) (now : Option Nat) (e : ProgEntry) :
    inWindow c now e = true ↔ ∃ m, now = some m ∧ e.InWindow c m := by
  cases now with
  | none => simp [inWindow]
  | some t =>
    have ha : e.absStart ≤ t + c.horizon ↔ ((e.day * 1440 + e.start : Nat) : Int) - (t : Int) ≤ (c.horizon : Int) := by
      rw [ProgEntry.absStart]
      omega
    cases hs : e.status <;> simp [inWindow, ProgEntry.InWindow, BitVec.getLsbD, hs, and_assoc, ha]

/-! ### The fixed templates (R110) -/

/-- R106: a size that R110 leaves open is 1..3. -/
theorem openSize_bounds (n k : Nat) : 1 ≤ openSize n k ∧ openSize n k ≤ 3 :=
  ⟨Nat.le_add_left 1 _, Nat.succ_le_succ (Nat.le_of_lt_succ (Config.freeSize n k).isLt)⟩

/-- R110: the slots of a fixed template, with the arguments that their sources do not take left open. -/
theorem openArguments_isFixed (n : Nat) : ∀ (xs : List Slot) (fs : List FixedSlot) (k : Nat), xs.length = fs.length →
    (∀ p ∈ xs.zip fs, p.1.IsFixed p.2 ∧ (p.2.argument.isSome = true → p.1.source.takesArgument = true)) →
    (openArguments n k xs).length = fs.length ∧
      ∀ (j : Nat) (y : Slot) (g : FixedSlot), (openArguments n k xs)[j]? = some y → fs[j]? = some g → y.IsFixed g
  | [], [], _, _, _ => ⟨rfl, fun _ _ _ h => by simp [openArguments] at h⟩
  | x :: xs, f :: fs, k, hl, h => by
    obtain ⟨h1, h2⟩ := openArguments_isFixed n xs fs (k + 1) (Nat.succ.inj hl) fun p hp => h p (List.mem_cons_of_mem _ hp)
    obtain ⟨⟨he, hz, hlo, hhi, ha, hb⟩, ht⟩ := h (x, f) (List.mem_cons_self ..)
    refine ⟨congrArg (· + 1) h1, fun j y g hy hg => ?_⟩
    cases j with
    | succ j => exact h2 j y g hy hg
    | zero =>
      simp only [openArguments, List.getElem?_cons_zero, Option.some.injEq] at hy hg
      subst hy hg
      split_ifs with hs
      · exact ⟨he, hz, hlo, hhi, ha, hb⟩
      · refine ⟨?_, hz, hlo, hhi, fun a h => absurd (ht (by rw [h]; rfl)) hs, Nat.le_of_lt_succ (Config.freeArgument n k).isLt⟩
        exact congrArg (fun z : Slot => { z with argument := (Config.freeArgument n k).val }) he

/-- R110: the fixed templates. -/
theorem fixedTemplate_isFixed {n : Nat} {f : FixedTemplate} (h : (n, f) ∈ fixedTable) :
    ∃ t, fixedTemplate n = some t ∧ t.IsFixed f := by
  have key : ∀ (m : Nat) (g : Grid) (xs : List Slot), xs.length = f.slots.length → g = f.grid →
      slotsTimeDependent (openArguments m 0 xs) = f.timeDependent →
      (∀ p ∈ xs.zip f.slots, p.1.IsFixed p.2 ∧ (p.2.argument.isSome = true → p.1.source.takesArgument = true)) →
      (mkFixed m g xs).IsFixed f := by
    rintro m g xs hl rfl ht hx
    obtain ⟨h1, h2⟩ := openArguments_isFixed m xs f.slots 0 hl hx
    exact ⟨rfl, ht, h1, h2⟩
  have hb := openSize_bounds
  simp only [fixedTable, List.mem_cons, List.not_mem_nil, or_false, Prod.mk.injEq] at h
  rcases h with ⟨rfl, rfl⟩ | ⟨rfl, rfl⟩ | ⟨rfl, rfl⟩ | ⟨rfl, rfl⟩ | ⟨rfl, rfl⟩ | ⟨rfl, rfl⟩ | ⟨rfl, rfl⟩ | ⟨rfl, rfl⟩ | ⟨rfl, rfl⟩ |
    ⟨rfl, rfl⟩ | ⟨rfl, rfl⟩ | ⟨rfl, rfl⟩ | ⟨rfl, rfl⟩ <;>
  refine ⟨_, rfl, key _ _ _ rfl rfl rfl ?_⟩ <;>
  simp [largeLine, smallLine, programmeLine, routeLineLarge, routeLineSmall, plainSlot, Slot.IsFixed, Source.takesArgument, Source.takesPosition,
    Slot.onlyIf, Slot.emphasised, largeAlarm, smallAlarm, cabinAlarm, hb]

/-! ### The form of a WRITE (R165, R169, R180) -/

/-- R165: a field number that appears twice. -/
theorem hasDuplicate_iff (fs : FieldList) :
    hasDuplicate fs = true ↔ ∃ n u v pre mid post, fs = pre ++ (n, u) :: mid ++ (n, v) :: post := by
  induction fs with
  | nil => simp [hasDuplicate]
  | cons p fs ih =>
    obtain ⟨n, u⟩ := p
    simp only [hasDuplicate, Bool.or_eq_true, ih, List.any_eq_true, beq_iff_eq]
    constructor
    · rintro (⟨⟨m, v⟩, hm, rfl⟩ | ⟨m, a, b, pre, mid, post, rfl⟩)
      · obtain ⟨mid, post, rfl⟩ := List.append_of_mem hm
        exact ⟨m, u, v, [], mid, post, rfl⟩
      · exact ⟨m, a, b, (n, u) :: pre, mid, post, rfl⟩
    · rintro ⟨m, a, b, pre, mid, post, h⟩
      cases pre with
      | nil =>
        simp only [List.nil_append, List.cons_append, List.cons.injEq, Prod.mk.injEq] at h
        obtain ⟨⟨rfl, rfl⟩, rfl⟩ := h
        exact Or.inl ⟨(n, b), by simp, rfl⟩
      | cons q pre =>
        simp only [List.cons_append, List.cons.injEq] at h
        exact Or.inr ⟨m, a, b, pre, mid, post, h.2⟩

/-- R165, R180: the values that a field can hold. -/
theorem fieldHolds_iff (t n : Nat) (ht : t ≤ 15) (v : FieldValue) :
    (∃ k, fieldKind t n = some k ∧ k.holds v = false) ↔ 1 ≤ n ∧ n ≤ tableFields.getD t 0 ∧ ¬FieldHolds t n v := by
  have h : ∀ t ≤ 15, fieldCount t = tableFields.getD t 0 := by decide
  have h22 : ∀ t ≤ 15, fieldCount t ≤ 22 := by decide
  by_cases hn : n = 0 ∨ fieldCount t < n
  · simp only [fieldKind, hn, if_true]
    rw [← h t ht]
    constructor
    · rintro ⟨k, hk, -⟩
      cases hk
    · omega
  · have hb := h22 t ht
    have hn' : n ≤ 22 := by omega
    have hk : ∀ (k : FieldKind) (l : List (Nat × Nat)),
        ((List.range 16).all fun t => (List.range 23).all fun n =>
          n == 0 || decide (fieldCount t < n) || decide (fieldKind t n = some k ↔ (t, n) ∈ l)) = true →
        (fieldKind t n = some k ↔ (t, n) ∈ l) := by
      intro k l h
      have h := List.all_eq_true.1 (List.all_eq_true.1 h t (List.mem_range.2 (by omega))) n (List.mem_range.2 (by omega))
      simp only [Bool.or_eq_true, beq_iff_eq, decide_eq_true_eq] at h
      exact h.resolve_left hn
    have h2 := hk .numberOrNone noneFields (by decide +kernel)
    have h3 := hk .flag flagFields (by decide +kernel)
    have h4 := hk .list [(5, 3), (6, 1)] (by decide +kernel)
    have h5 := hk .string [(10, 1)] (by decide +kernel)
    have h6 := hk .slots [(11, 2)] (by decide +kernel)
    have h1 : (fieldKind t n).isSome = true := by
      simp only [fieldKind, hn, if_false]
      split <;> first | rfl | (split_ifs <;> rfl)
    obtain ⟨k, hf⟩ := Option.isSome_iff_exists.1 h1
    have hlo : 1 ≤ n ∧ n ≤ tableFields.getD t 0 := by rw [← h t ht]; omega
    simp only [hf, Option.some.injEq, exists_eq_left', hlo.1, hlo.2, true_and] at *
    clear h h22 hk
    cases v <;> simp only [FieldHolds, List.mem_append, List.mem_cons, List.not_mem_nil, or_false] at * <;>
      simp only [← h2, ← h3, ← h4, ← h5, ← h6] <;> cases k <;> simp_all [FieldKind.holds]

/-- R165, R169: the form check of a WRITE. -/
theorem State.writeFormOk_iff (s : State) (t i : Nat) (fs : FieldList) : s.writeFormOk t i fs = true ↔ ¬s.OutOfForm t i fs := by
  have hd := hasDuplicate_iff fs
  have hk : t ≤ 15 → (kindsOk t fs = false ↔ ∃ p ∈ fs, 1 ≤ p.1 ∧ p.1 ≤ tableFields.getD t 0 ∧ ¬FieldHolds t p.1 p.2) := by
    intro ht
    simp only [← fieldHolds_iff t _ ht, kindsOk, List.all_eq_false]
    refine exists_congr fun p => and_congr_right fun _ => ?_
    cases fieldKind t p.1 <;> simp
  have hr : ∀ n, supplies fs n = true ↔ n ∈ fs.map (·.1) := by simp [supplies]
  have hi : t ≤ 15 → (indexOk t i false = true ↔ i < tableRanges.getD t 0 ∧ (t = 7 → 1 ≤ i)) := by
    have h : ∀ t ≤ 15, tableSize t = tableRanges.getD t 0 := by decide
    intro ht
    rw [← h t ht]
    by_cases h7 : t = 7 <;> simp [indexOk, tblProgramme, h7, Nat.one_le_iff_ne_zero]
  have ha : t ≤ 15 → i < tableRanges.getD t 0 →
      ((alwaysRequires t || !s.entryExists t i) = true ∧ (requiredFields t).all (supplies fs) = false ↔
        (s.AbsentAt t i ∧ ∃ n ∈ creationFields t, n ∉ fs.map (·.1)) ∨ (t ∈ [6, 10, 12] ∧ 1 ∉ fs.map (·.1))) := by
    intro ht hlt
    simp only [List.all_eq_false, hr]
    have hf : findEntry i s.programme = none ↔ ∀ e ∈ s.programme, e.id ≠ i := by simp [findEntry]
    have ht11 : t = 11 → (s.template i = none ↔ 16 ≤ i ∧ Tab.fetch s.templates i = none) := by
      intro _
      unfold State.template
      split_ifs with h
      · have : ∀ i < 16, (fixedTemplate i).isSome = true := by
          intro i hi
          interval_cases i <;> rfl
        have := this i h
        cases hx : fixedTemplate i <;> simp_all
      · simp only [Nat.not_lt.1 h, true_and]
    interval_cases t <;>
      simp only [alwaysRequires, tblLists, tblTexts, tblSelection, State.entryExists, requiredFields, State.AbsentAt, creationFields,
        Option.not_isSome, Option.isNone_iff_eq_none, Bool.or_eq_true, Bool.not_eq_true', hf, ht11] <;>
      simp
  rw [State.OutOfForm, ← hd]
  by_cases ht : t ≤ 15
  · have hout : s.writeFormOk t i fs = true ↔ ¬(hasDuplicate fs = true ∨ kindsOk t fs = false ∨
        (indexOk t i false = true ∧ (alwaysRequires t || !s.entryExists t i) = true ∧ (requiredFields t).all (supplies fs) = false)) := by
      simp only [State.writeFormOk, tableOk, ht, decide_true]
      cases hasDuplicate fs <;> cases kindsOk t fs <;> cases indexOk t i false <;> cases (alwaysRequires t || !s.entryExists t i) <;>
        cases (requiredFields t).all (supplies fs) <;> simp
    rw [hout, hk ht, hi ht]
    refine not_congr (or_congr_right (or_congr (by simp [ht]) ⟨fun h => ⟨h.1.1, h.1.2, (ha ht h.1.1).1 h.2⟩, fun h => ⟨⟨h.1, h.2.1⟩, (ha ht h.1).2 h.2.2⟩⟩))
  · have h0 : tableRanges[t]? = none := List.getElem?_eq_none (by simp [tableRanges]; omega)
    simp [State.writeFormOk, tableOk, ht, h0]

/-! ### Places of the queues (R131), and a sweep (R45 to R47) -/

/-- R131: the order of two places. -/
theorem State.standsBefore_of_before {s : State} {u : Urgency} {e f : QEntry} (h : s.before u e f = true) : s.StandsBefore u e f := by
  constructor
  · intro hu
    cases u <;> simp_all [State.before]
  · rintro rfl x y hx hy
    simpa [State.before, State.classOf, hx, hy] using h

/-- R45. -/
theorem State.passable_iff (s : State) (g : Segment) : s.passable g = true ↔ s.Passable g := by
  have hl : ∀ p : Phase, p.emergency = true ↔ p = .alert ∨ p = .muster := by intro p; cases p <;> decide
  have hn : ∀ p : Phase, p.emergency = false ↔ p = .normal ∨ p = .standDown := by intro p; cases p <;> decide
  have hc : ∀ c : Closure, c.passable = true ↔ c ≠ .closed := by intro c; cases c <;> decide
  unfold State.passable State.Passable
  cases hg : g.closure <;> simp only [Bool.and_eq_true, Option.isSome_iff_exists, State.closure, hc, Bool.or_eq_true,
    Bool.not_eq_true', bne_iff_ne, hl, hn] <;> cases g.musterOnly <;> cases g.kind <;> simp_all [and_assoc]

/-- R46. -/
theorem NodeParams.weight_eq (n : NodeParams) (k : SegmentKind) (back : Bool) : n.weight k back = n.walkWeight k back := by
  cases k <;> cases back <;> rfl

/-- R47: one traversal of a sweep, with what the later ones do. -/
theorem State.relax_swept (s : State) (h : Hop) (g : Segment) (rest : List (Hop × Segment)) (cells : Tab Cell) (ch : Bool)
    (u v : Nat) (hu : u = if h.back then g.b else g.a) (hv : v = if h.back then g.a else g.b) (hp : s.Passable g)
    {after : Nat → Cell} {n : Nat}
    (hr : s.Swept rest (cellAt (relax cells ch u v (s.node.walkEffort g h.back) g.length h).1) after n) :
    ∃ k, s.Swept ((h, g) :: rest) (cellAt cells) after (n + k) ∧
      ((relax cells ch u v (s.node.walkEffort g h.back) g.length h).2 = true ↔ ch = true ∨ k ≠ 0) := by
  unfold relax at hr ⊢
  cases he : (cellAt cells v).effort with
  | none =>
    simp only [he] at hr ⊢
    refine ⟨0, .passed _ _ _ _ _ _ ?_ hr, by simp⟩
    rintro _ _ _ ⟨-, rfl, rfl, ⟨far, h1, -⟩, -⟩
    rw [← hv, he] at h1
    cases h1
  | some ev =>
    simp only [he] at hr ⊢
    split_ifs at hr ⊢ with hc
    · refine ⟨1, .taken h g rest u v (s.node.walkEffort g h.back + ev) _ _ _ ⟨hp, hu, hv, ⟨ev, he, rfl⟩, hc.1, ?_⟩ ?_, by simp⟩
      · intro own ho
        have := hc.2
        rw [ho] at this
        simpa [improves] using this
      · convert hr using 1
        funext j
        simp only [cellAt, Tab.fetchD, Tab.fetch_store]
        split_ifs <;> rfl
    · refine ⟨0, .passed _ _ _ _ _ _ ?_ hr, by simp⟩
      rintro _ _ _ ⟨-, rfl, rfl, ⟨far, h1, rfl⟩, h2, h3⟩
      rw [← hv, he] at h1
      cases h1
      refine hc ⟨h2, ?_⟩
      rw [hu]
      cases ho : (cellAt cells (if h.back = true then g.b else g.a)).effort with
      | none => rfl
      | some own => simpa [improves] using h3 own ho

theorem State.Swept.passedOver {s : State} {h : Hop} {g : Segment} {rest : List (Hop × Segment)} {before after : Nat → Cell} {n : Nat}
    (hp : ¬s.Passable g) (hr : s.Swept rest before after n) : s.Swept ((h, g) :: rest) before after n :=
  .passed _ _ _ _ _ _ (fun _ _ _ hb => hp hb.1) hr

/-- R46. -/
theorem State.traversalEffort_eq (s : State) (g : Segment) (back : Bool) :
    traversalEffort g.length (s.node.weight g.kind back) = s.node.walkEffort g back := by
  rw [NodeParams.weight_eq]
  rfl

/-- R47: a sweep from a place of the segment table on: the traversals that are left, in their order, and whether any cell has changed. -/
theorem State.sweep_from (s : State) (t : Tab Segment) : ∀ acc : Tab Cell × Bool,
    ∃ n, s.Swept (traversals t) (cellAt acc.1) (cellAt (t.foldl s.sweepSegment acc).1) n ∧
      ((t.foldl s.sweepSegment acc).2 = true ↔ acc.2 = true ∨ n ≠ 0) := by
  induction t with
  | nil => exact fun acc => ⟨0, .done _, by simp⟩
  | cons e t ih =>
    rintro ⟨cells, ch⟩
    obtain ⟨i, g⟩ := e
    obtain ⟨n, hn, hb⟩ := ih (s.sweepSegment (cells, ch) (i, g))
    rw [List.foldl_cons, hb]
    have ht : traversals ((i, g) :: t) = ({ segment := i, back := false }, g) ::
        ((if g.oneWay then [] else [({ segment := i, back := true }, g)]) ++ traversals t) := rfl
    rw [ht]
    clear hb
    revert hn
    generalize cellAt (List.foldl s.sweepSegment (s.sweepSegment (cells, ch) (i, g)) t).1 = final
    simp only [State.sweepSegment, State.traversalEffort_eq]
    intro hn
    by_cases hp : s.Passable g
    · simp only [(s.passable_iff g).2 hp, if_true] at hn ⊢
      cases ho : g.oneWay
      · simp only [ho, Bool.false_eq_true, if_false] at hn ⊢
        obtain ⟨k, hk, hkb⟩ := s.relax_swept { segment := i, back := true } g _ _ _ g.b g.a rfl rfl hp hn
        obtain ⟨m, hm, hmb⟩ := s.relax_swept { segment := i, back := false } g _ _ _ g.a g.b rfl rfl hp hk
        exact ⟨_, hm, by grind⟩
      · simp only [ho, if_true] at hn ⊢
        obtain ⟨m, hm, hmb⟩ := s.relax_swept { segment := i, back := false } g _ _ _ g.a g.b rfl rfl hp hn
        exact ⟨_, hm, by grind⟩
    · simp only [mt (s.passable_iff g).1 hp] at hn ⊢
      refine ⟨n, .passedOver hp ?_, by simp⟩
      cases g.oneWay
      · exact .passedOver hp hn
      · exact hn

/-- R47: a whole sweep. -/
theorem State.sweep_swept (s : State) (cells : Tab Cell) :
    ∃ n, s.Swept (traversals s.segments) (cellAt cells) (cellAt (s.sweep cells).1) n ∧ ((s.sweep cells).2 = true ↔ n ≠ 0) := by
  obtain ⟨n, h, hb⟩ := s.sweep_from s.segments (cells, false)
  exact ⟨n, h, by simpa [State.sweep] using hb⟩

end Sys2Proof.Machine
end

