-- ==== Sys2Proof/Tests/Slice0.lean ====
section
/-! SUPPORT. Small tests: the well-formedness smoke, byte layouts written out by hand from chapter 11, single steps of the
spec's worked sequences, and for every statement with hypotheses a state and operands that meet them. -/

namespace Sys2Proof.Tests

open Sys2Proof.Machine

/-! ### Small states -/

/-- A port that is UP. -/
def upPort : LinkPort := { up := true, signal := true, signalSince := 0, queue := [], sending := none }

/-- An 820 at node 5 with both ports UP. -/
def live : State := { State.reset with address := some 5, fore := upPort, aft := upPort }

/-- A request or bulletin of an origin class from node 1 to node 5, on FORE. -/
def from5 (origin : Nat) : Arrival := { port := .fore, origin := origin, node := 1, dest := 5, hop := 0, seq := 7 }

/-- A bulletin of the bridge to all. -/
def toAll (seq : Nat) : Arrival := { port := .fore, origin := 0, node := 1, dest := 255, hop := 0, seq := seq }

/-- A configuration on string 1 at node 0, deck 4, with the defaults of R22. -/
def config (c : DisplayClass) (position : Nat) : DisplayConfig :=
  { string := 1, position := position, cls := c, deck := 4, node := 0, facing := 0, language := 0, list := none,
    categoryMask := 0xFFFF#16, deckMask := 0xFFFF#16, horizon := 180, dayStep := 12, nightStep := 4 }

/-- A CLEAN display. -/
def display (c : DisplayClass) (position : Nat) : Display := { cfg := config c position, rt := DisplayRuntime.fresh }

/-- A display in an update state. -/
def displayIn (c : DisplayClass) (position : Nat) (u : UpdateState) : Display :=
  { cfg := config c position, rt := { DisplayRuntime.fresh with state := u } }

/-- A state with one display, at index 9. -/
def withDisplay (x : Display) : State := { live with displays := [(9, x)] }

/-- A state in a phase. -/
def inPhase (s : State) (p : Phase) : State := { s with ship := { s.ship with phase := p } }

/-- The next state of a command, or the state itself. -/
def after (i : Instr) (s : State) : State :=
  match exec i s with
  | .next t => t
  | .fault _ => s
  | .refused _ => s

/-- The result code of the last reply made. -/
def lastCode (s : State) : Option Nat := s.replies.getLast?.map fun r => (r.body.headD 255#8).toNat

/-- Every command answers a next state. -/
theorem test_exec_next (i : Instr) (s : State) : ∃ t, exec i s = .next t := by
  cases i <;> exact ⟨_, rfl⟩

/-! ### Well-formedness: a term for each check that the check refuses -/

/-- Twelve numbers for a slot, one of them out of its byte. -/
def slotWith (n : Nat) (v : Nat) : RawSlot :=
  let g := fun k => if k = n then v else 0
  { column := g 0, row := g 1, width := g 2, height := g 3, size := g 4, emphasis := false, source := g 5, argument := g 6,
    language := g 7, condition := g 8, polarity := g 9 }

theorem test_wf_arrival_refused :
    ({ from5 0 with origin := 256 }).wf = false ∧ ({ from5 0 with node := 256 }).wf = false ∧
      ({ from5 0 with dest := 256 }).wf = false ∧ ({ from5 0 with hop := 64 }).wf = false ∧
      ({ from5 0 with seq := 65536 }).wf = false ∧ (from5 0).wf = true := by decide

theorem test_wf_slot_refused :
    (∀ n < 10, (slotWith n 65536).wf = false) ∧ (slotWith 0 256).wf = false ∧ (slotWith 6 65535).wf = true := by decide

theorem test_wf_value_refused :
    (FieldValue.number 4294967296).wf = false ∧ (FieldValue.list [65536]).wf = false ∧
      (FieldValue.list (List.replicate 256 0)).wf = false ∧ (FieldValue.string [65536]).wf = false ∧
      (FieldValue.string (List.replicate 256 0)).wf = false ∧ (FieldValue.slots [slotWith 0 256]).wf = false ∧
      (FieldValue.slots (List.replicate 256 (slotWith 0 0))).wf = false ∧ (FieldValue.number 4294967295).wf = true := by
  decide +kernel

theorem test_wf_fields_refused :
    fieldsWf [(256, .absent)] = false ∧ fieldsWf [(1, .number 4294967296)] = false ∧
      fieldsWf (List.replicate 256 (1, .absent)) = false ∧
      fieldsWf [(1, .string (List.replicate 255 0)), (2, .string (List.replicate 255 0))] = false ∧
      fieldsWf [(1, .string (List.replicate 255 0))] = true := by decide +kernel

theorem test_wf_bulletin_refused :
    ∀ b ∈ ([.time 65536 0 0, .time 0 65536 0, .time 0 0 256, .phase 256 true, .closures 256 [], .closures 0 [256],
      .closures 0 (List.replicate 256 0), .light 256, .cabinMark [65536], .cabinMark (List.replicate 256 0),
      .assistClear [65536], .assistClear (List.replicate 256 0), .other] : List Bulletin), b.wf = false := by
  decide +kernel

theorem test_wf_request_refused :
    ∀ r ∈ ([.write 256 0 [], .write 0 65536 [], .write 0 0 [(256, .absent)], .read 256 0, .read 0 65536, .clear 256 0,
      .clear 0 65536, .clearTable 256, .adjustSteps 256 0 0, .adjustSteps 0 65536 0, .adjustSteps 0 0 256, .holdString 256,
      .freeString 256, .retryDisplay 65536, .displayStatus 65536, .malformed none] : List Request), r.wf = false := by
  decide

theorem test_wf_command_refused :
    ∀ i ∈ ([.timeBulletin (from5 256) 0 0 0, .status (from5 256), .restart (from5 256), .identify (from5 256),
      .ready 0 256 0, .ready 0 0 256, .busy 0 256 0, .busy 0 0 65536, .ack 0 256, .nak 0 256, .refresh 0 256 0,
      .refresh 0 0 65536, .events 0 256 [], .events 0 0 [0, 0, 0, 0, 0], .events 0 0 [256], .refreshBusyReached 512,
      .minRefreshExpiry 512, .pollDue 512, .probeDue 512] : List Instr), i.wf = false := by decide

theorem test_wf_accepts :
    ∀ i ∈ ([.timeBulletin (from5 0) 255 1439 59, .write (from5 0) 15 65535 [(1, .flag true)], .ready 7 255 255,
      .events 0 0 [0, 1, 2, 255], .probeDue 511] : List Instr), i.wf = true := by decide

/-! ### Byte layouts written out from R180 and R181 -/

/-- R122's CRC of "123456789" with an all-ones start and no inversion. -/
theorem test_crc : crc16 [0x31, 0x32, 0x33, 0x34, 0x35, 0x36, 0x37, 0x38, 0x39] = 0x29B1#16 := by decide +kernel

/-- A READ of NODE: kind 1, MAINTENANCE 2, node 200 to node 5, hop 3, sequence 77, four body bytes. -/
theorem test_request_bytes :
    parseFrame [1, 2, 200, 5, 3, 0, 77, 0, 4, 1, 0, 0, 0, 35, 20] =
        .ok { kind := 1, origin := 2, node := 200, dest := 5, hop := 3, seq := 77, body := [1, 0, 0, 0] } ∧
      parseRequest [1, 0, 0, 0] = .read 0 0 := by decide +kernel

/-- The reserved bits of the hop-limit byte are ignored. -/
theorem test_bulletin_bytes :
    parseFrame [0, 0, 1, 255, 40, 4, 177, 0, 3, 1, 2, 1, 167, 86] =
        .ok { kind := 0, origin := 0, node := 1, dest := 255, hop := 40, seq := 1201, body := [1, 2, 1] } ∧
      parseBulletin [1, 2, 1] = .phase 2 true := by decide +kernel

/-- R181: a reply whose code is that of SELECT, COMMIT, RELEASE or POLL is complete at the length the table gives for that code
alone. -/
theorem test_reply_lengths :
    StringReply.parse 1 [] = none ∧ StringReply.parse 1 [14] = some (.unknown 1) ∧ StringReply.parse 3 [0] = none ∧
      StringReply.parse 3 [] = some (.unknown 3) ∧ StringReply.parse 4 [0] = none ∧ StringReply.parse 5 [] = none := by decide

/-- REFRESH 1800 under tag 9. -/
theorem test_string_reply_bytes :
    parseStringReply [9, 133, 0, 2, 7, 8, 49, 138] = some (9, .refresh 1800) := by decide +kernel

/-- SELECT of position 14 under tag 0. -/
theorem test_select_bytes : stringBytes 0 1 [14] = [0, 1, 0, 1, 14, 181, 71] := by decide +kernel

/-- A WRITE of one number, field 4 of CABINS entry 17: kind 0, table 8, index 17, one pair of field 4, tag 0, value 68. -/
theorem test_write_bytes : parseRequest [0, 8, 0, 17, 1, 4, 0, 0, 0, 0, 68] = .write 8 17 [(4, .number 68)] := by decide

/-! ### Pins, clock and phase (chapter 1) -/

theorem test_straps : strapAddress 0#8 = none ∧ strapAddress 1#8 = some 1 ∧ strapAddress 239#8 = some 239 ∧
    strapAddress 240#8 = none := by decide

theorem test_reset_keeps_pins :
    (after (.powerOnReset 239#8) { live with ship := { live.ship with raw := true } }).ship.raw = true ∧
      (after (.powerOnReset 239#8) live).address = some 239 := by decide

/-- The worked sequence of chapter 1 at t = 0.200: the filter completes and the phase is ALERT. -/
theorem test_line_filter :
    (after .musterLineChange { live with ship := { live.ship with raw := true, rawSince := 40 } }).ship.phase = .alert ∧
      (after .musterLineChange { live with ship := { live.ship with raw := true, rawSince := 40 } }).now = 240 := by decide

/-- The same sequence at t = 600: STAND_DOWN with the line ASSERTED is refused with LINE_HELD. -/
theorem test_line_held :
    (after (.phaseBulletin (toAll 1) 3 false)
        { live with ship := { live.ship with phase := .muster, line := true } }).reports.map
      (fun r => (r.kind, r.subject, r.value)) = [(.lineHeld, 5, 3)] := by decide

/-- At day 255, 23:59:59 the clock wraps. -/
theorem test_clock_wraps :
    let s := after .clockSecondAdvance
      { live with ship := { live.ship with valid := true, day := 255, minute := 1439, second := 59 } }
    (s.ship.day, s.ship.minute, s.ship.second, s.lastEvaluation) = (0, 0, 0, some 0) := by decide

/-- A TIME bulletin with second 60 is dropped whole, and has still moved the watermark. -/
theorem test_time_dropped :
    (after (.timeBulletin (toAll 9) 3 60 60) live).ship.valid = false ∧
      (after (.timeBulletin (toAll 9) 3 60 60) live).watermark = some 9 := by decide

/-- A bulletin 32768 behind the watermark is stale, one 32767 ahead is taken. -/
theorem test_watermark :
    (after (.lightBulletin (toAll 32767) 1) { live with watermark := some 65535 }).watermark = some 65535 ∧
      (after (.lightBulletin (toAll 32766) 1) { live with watermark := some 65535 }).watermark = some 32766 := by decide

/-- Closure 127 is reached and what lies past it is dropped; a value of 3 leaves its closure. -/
theorem test_closures :
    let s := after (.closuresBulletin (toAll 1) 126 [3, 1, 1]) live
    s.closure 126 = .unknown ∧ s.closure 127 = .closed ∧ s.closure 128 = .unknown := by decide

theorem test_light : (after (.lightBulletin (toAll 1) 1) live).ship.light = .night ∧
    (after (.lightBulletin (toAll 1) 2) live).ship.light = .day := by decide

theorem test_hold_runs_out :
    let s := { live with ship := { live.ship with phase := .standDown, hold := some 700, linkLost := true } }
    (after .standDownHoldExpiry s).ship.holdRunOut = true ∧ (after .standDownHoldExpiry s).ship.phase = .standDown := by
  decide

theorem test_silence : (after .bridgeSilenceExpiry live).ship.linkLost = true ∧ (after .bridgeSilenceExpiry live).now = 10000 := by
  decide

/-! ### Routes (chapter 3) -/

/-- A segment of the worked solve. -/
def segment (a b : Nat) (k : SegmentKind) (length heading : Nat) (c : Option Nat) : Segment :=
  { a := a, b := b, kind := k, length := length, heading := heading, oneWay := false, closure := c, musterOnly := false,
    enabled := true }

/-- A cell of the worked solve. -/
def cell (effort length seg : Nat) (back : Bool) : Cell :=
  { effort := some effort, length := length, hop := some { segment := seg, back := back } }

/-- A destination with target node 5. -/
def destination (k : DestKind) (st : DestStatus) (sweeps : Nat) (cells : Tab Cell) : Dest :=
  { name := some 140, kind := k, targets := [5], status := st, sweeps := sweeps, cells := cells }

/-- The graph of the worked solve with destination 3 SOLVING at its cells. -/
def graph (cells : Tab Cell) : State :=
  { live with
    nodes := [(0, 4), (1, 4), (2, 4), (3, 5), (4, 5), (5, 5)]
    segments := [(0, segment 0 1 .corridor 240 4 (some 7)), (1, segment 1 2 .corridor 120 0 none),
      (2, segment 2 3 .stair 60 0 none), (3, segment 3 5 .corridor 300 12 none), (4, segment 0 4 .lift 150 8 none),
      (5, segment 4 5 .corridor 200 0 none)]
    dests := [(3, destination .musterStation .solving 1 cells)] }

/-- The worked solve in NORMAL, from the cells after sweep 1 to those after sweep 2. -/
theorem test_sweep_two :
    ((after .sweepEnd (graph [(3, cell 300 300 3 false), (4, cell 200 200 5 false),
        (5, { effort := some 0, length := 0, hop := none })])).dests.map fun e => e.2.cells) =
      [[(0, cell 275 350 4 false), (2, cell 450 360 2 false), (3, cell 300 300 3 false), (4, cell 200 200 5 false),
        (5, { effort := some 0, length := 0, hop := none })]] := by decide +kernel

/-- The worked solve in ALERT, the last sweep: nothing changes and the destination is SETTLED. -/
theorem test_sweep_settles :
    ((after .sweepEnd (inPhase (graph [(0, cell 810 720 0 false), (1, cell 570 480 1 false), (2, cell 450 360 2 false),
        (3, cell 300 300 3 false), (4, cell 200 200 5 false), (5, { effort := some 0, length := 0, hop := none })])
        .alert)).dests.map fun e => (e.2.status, e.2.sweeps)) = [(.settled, 2)] := by decide +kernel

/-- Two corridors of equal effort to the target, and one behind node 1: the first hop found is kept (R47), and segment 2 reads what
segment 0 has just written. -/
theorem test_sweep_order :
    ((after .sweepEnd { graph [(5, { effort := some 0, length := 0, hop := none })] with
        segments := [(0, segment 1 5 .corridor 100 0 none), (1, segment 1 5 .corridor 100 4 none),
          (2, segment 2 1 .corridor 50 0 none)] }).dests.map fun e => e.2.cells) =
      [[(1, cell 100 100 0 false), (2, cell 150 150 2 false), (5, { effort := some 0, length := 0, hop := none })]] := by
  decide +kernel

/-- A segment that leads back: node 1 is found behind node 2 only in the next sweep (R47). -/
theorem test_sweep_next :
    ((after .sweepEnd { graph [(5, { effort := some 0, length := 0, hop := none })] with
        segments := [(0, segment 1 2 .corridor 50 0 none), (1, segment 2 5 .corridor 100 0 none)] }).dests.map fun e => e.2.cells) =
      [[(2, cell 100 100 1 false), (5, { effort := some 0, length := 0, hop := none })]] := by decide +kernel

/-- The screens of the worked solve: RIGHT, 72 m, 2 min from a corridor at heading 4. -/
theorem test_route_value :
    (graph []).settledValue (destination .exit .settled 0 [(0, cell 810 720 0 false)]) 0 0 =
      { glyph := .arrow 2, distance := some 72, minutes := some (2, false) } := by decide

theorem test_solver_starts :
    ((after .solverTake { graph [] with dests := [(3, destination .exit .pending 4 [(1, cell 9 9 0 false)])] }).dests.map fun e => (e.2.status, e.2.sweeps, e.2.cells)) =
      [(.solving, 0, [(1, { effort := none, length := 9, hop := none }), (5, { effort := some 0, length := 0, hop := none })])] := by
  decide

/-! ### Management requests (chapter 10) -/

/-- The worked sequence of chapter 10 on one table during an alarm, each request on the same state. -/
theorem test_checks_in_muster :
    let s := inPhase (withDisplay (displayIn .corridor 5 .opened)) .muster
    [Instr.write (from5 1) 1 9 [(7, .number 1)], .write (from5 2) 1 9 [(7, .number 1)], .write (from5 0) 1 9 [(7, .number 1)],
      .write (from5 0) 1 9 [(2, .number 6)], .write (from5 0) 1 700 [(7, .number 1)],
      .write (from5 0) 1 130 [(1, .number 2), (2, .number 70), (5, .number 40)],
      .write (from5 0) 1 130 [(1, .number 2), (2, .number 70), (3, .number 1), (5, .number 40)],
      .adjustSteps (from5 2) 1 1 3, .holdString (from5 0) 2, .retryDisplay (from5 2) 9, .restart (from5 0),
      .displayStatus (from5 1) 9].map (fun i => lastCode (after i s)) =
      [some 5, some 6, some 0, some 10, some 4, some 2, some 1, some 6, some 6, some 0, some 6, some 0] := by
  decide +kernel

/-- A region that a lock keeps: BRIDGE cannot write its entry, nor clear the table. -/
theorem test_locked_region :
    let s := { live with regions := live.regions.set 0 { Region.reset with lock := true } }
    lastCode (after (.write (from5 0) 13 0 [(10, .flag false)]) s) = some 5 ∧
      lastCode (after (.clearTable (from5 0) 13) s) = some 5 := by decide +kernel

/-- The night adjustment of chapter 2: DEC_DAY_INC_NIGHT saturates at both ends. -/
theorem test_adjust_saturates :
    let s := { withDisplay (display .cabin 1) with
      displays := [(9, { display .cabin 1 with cfg := { config .cabin 1 with dayStep := 0, nightStep := 15 } })] }
    (after (.adjustSteps (from5 2) 1 4 7) s).displays.map (fun e => (e.2.cfg.dayStep, e.2.cfg.nightStep, e.2.rt.state)) =
      [(0, 15, .clean)] := by decide +kernel

/-- A programme entry with a start of its own. -/
def entry (n : Nat) : ProgEntry :=
  { id := n + 1, day := 0, start := n, duration := 60, venue := none, category := 0, deck := 0, title := 0, status := .scheduled }

theorem test_programme_full :
    lastCode (after (.write (from5 1) 7 900 [(1, .number 3), (2, .number 5), (7, .number 1)])
      { live with programme := (List.range 256).map entry }) = some 11 := by decide +kernel

theorem test_reply_queue_full :
    let r : Reply := { port := .aft, dest := 1, seq := 0, body := [] }
    (after (.identify (from5 0)) { live with replies := [r, r, r, r] }).replies.length = 4 ∧
      (after (.identify (from5 0)) { live with replies := [r, r, r] }).replies.length = 4 := by decide

theorem test_read_node_table :
    (after (.read (from5 1) 3 2) (graph [])).replies.map (·.body) = [[0, 1, 0, 1, 1, 0, 0, 0, 0, 4]] := by decide +kernel

/-- STATUS gives 19 parts. -/
theorem test_status : lastCode (after (.status (from5 3)) live) = some 0 ∧ live.statusPairs.length = 19 := by decide +kernel

theorem test_restart_in_normal :
    lastCode (after (.restart (from5 2)) live) = some 0 ∧
      ((after (.restart (from5 2)) (withDisplay (display .lobby 1))).displays.map fun e => e.2.rt.state) = [.queued .routine] := by
  decide +kernel

theorem test_hold_then_free :
    ((after (.holdString (from5 2) 3) live).str 3).state = .held ∧
      ((after (.freeString (from5 2) 3) (live.setStr 3 { StringCtl.reset with state := .held })).str 3).state = .idle := by
  decide +kernel

theorem test_clear_busy :
    lastCode (after (.clear (from5 0) 1 9) (withDisplay (displayIn .lobby 1 .opened))) = some 10 ∧
      (after (.clear (from5 0) 1 9) (withDisplay (display .lobby 1))).displays = [] := by decide +kernel

/-- R37, R165: an empty WRITE to a present node is taken and invalidates. -/
theorem test_empty_write :
    let s := { graph [] with dests := [(3, destination .exit .settled 2 [])] }
    lastCode (after (.write (from5 2) 3 5 []) s) = some 0 ∧
      ((after (.write (from5 2) 3 5 []) s).dests.map fun e => e.2.status) = [.pending] := by decide +kernel

/-- R166: CLEAR_TABLE goes by index: the display that shows destination 3 is marked before the one that shows destination 4. -/
theorem test_clear_table_order :
    let x := fun p l => { display .lobby p with cfg := { config .lobby p with list := some l } }
    let s : State := { live with
      displays := [(8, x 1 1), (9, x 2 0)], lists := [(0, [3]), (1, [4])]
      dests := [(3, destination .exit .settled 0 []), (4, destination .exit .settled 0 [])] }
    ((after (.clearTable (from5 0) 5) s).str 1).routine.map (·.display) = [9, 8] := by decide +kernel

/-- R123, R166: CLEAR_TABLE of SELECTION goes by entry: the CORRIDOR display is marked before the LIFT_LANDING one, whose index is
the lower. -/
theorem test_clear_selection_order :
    let s : State := { live with displays := [(8, display .liftLanding 1), (9, display .corridor 2)] }
    ((after (.clearTable (from5 0) 12) s).str 1).routine.map (·.display) = [9, 8] := by decide +kernel

/-! ### The deck link (chapter 9) -/

/-- A frame that passes through. -/
def passing (origin seq : Nat) : Frame :=
  { kind := 0, origin := origin, node := 1, dest := 246, hop := 2, seq := seq, body := [3, 1] }

/-- A bridge frame goes ahead of an older frame of another origin and of a reply. -/
theorem test_transmit_order :
    let s := live.setPort .aft { upPort with queue := [passing 1 1, passing 0 2] }
    (after (.transmitBegin .aft) s).aft.queue = [passing 1 1] ∧
      (after (.transmitEnd .aft) (live.setPort .aft { upPort with sending := some [] })).aft.sending = none := by
  decide +kernel

/-- The bulletin of the worked sequence: taken, and forwarded to AFT with hop limit 39. -/
theorem test_forwarded :
    (after (.phaseBulletin { toAll 1201 with hop := 40 } 1 false) { live with watermark := some 1200 }).aft.queue.map
      (fun f => (f.hop, f.seq)) = [(39, 1201)] := by decide +kernel

theorem test_frame_bytes_received :
    (after (.frameReceive .fore [0, 0, 1, 255, 40, 4, 177, 0, 3, 1, 2, 1, 167, 86]) live).ship.phase = .muster ∧
      after (.frameReceive .fore [0, 0, 1, 255, 40, 4, 177, 0, 3, 1, 2, 1, 167, 87]) live = live := by decide +kernel

/-- R179: a hop byte with its two upper bits set gives its hop limit, and a drill byte of 255 sets the flag. -/
theorem test_hop_and_flag_bytes :
    let f : Frame := { kind := 0, origin := 0, node := 1, dest := 255, hop := 40, seq := 1201, body := [1, 2, 255] };
    let t := after (.frameReceive .fore (f.received 3)) live;
    t.ship.phase = .muster ∧ t.ship.drill = true ∧ t.aft.queue = [{ f with hop := 39 }] := by decide +kernel

theorem test_port_falls :
    let r := fun p => ({ port := p, dest := 1, seq := 0, body := [] } : Reply)
    let s := { live with fore := { upPort with signal := false, signalSince := 5, queue := [passing 0 1] },
                         replies := [r .fore, r .aft] }
    (after (.portDown .fore) s).now = 15 ∧ (after (.portDown .fore) s).replies = [r .aft] := by decide +kernel

theorem test_port_rises :
    (after (.portUp .aft) { live with aft := { upPort with up := false, signalSince := 7 } }).now = 107 ∧
      (after (.lineSignalChange .aft false) live).aft.signal = false := by decide

/-- The worked Report Queue: at 32 reports one of the lowest class makes room for an ASSIST, and none for a lower class. -/
theorem test_report_queue :
    let r := fun k n => ({ kind := k, subject := n, value := 0, stamp := live.stamp, arrival := n } : Report)
    let s := { live with reports := (List.range 32).map (r .serviceCall), reportArrival := 32 }
    ((s.queueReport .assist 8411 1).reports.map fun x => x.subject).take 2 = [8411, 1] ∧
      s.queueReport .displayFault 95 0 = s := by decide +kernel

/-! ### Cabins and strings (chapters 5, 7 and 8) -/

/-- Cabin 17 of chapter 5 on display 9. -/
def cabin : Cabin := { Cabin.created with number := 8214, display := 9, station := some 3, group := some 68, occupied := true }

/-- A transaction on string 1 with display 9, its tag 6. -/
def txn (k : TxnKind) (p : TxnStep) (tries : Nat) (place : Option (Urgency × Nat)) : Txn :=
  { kind := k, display := 9, step := p, tries := tries, place := place, tag := 6, sentAt := 0 }

/-- String 1 OPEN with a transaction on display 9. -/
def flying (t : Txn) : State :=
  ({ withDisplay (displayIn .cabin 4 .opened) with cabins := [(17, cabin)] } : State).setStr 1
    { StringCtl.reset with state := .opened, txn := some t, tag := 7 }

/-- A poll: DND is set and reported. -/
theorem test_poll_dnd :
    let s := after (.events 1 6 [0]) (flying (txn .poll .poll 1 none))
    (s.cabins.map fun e => (e.2.dnd, e.2.mur)) = [(true, false)] ∧
      s.reports.map (fun r => (r.kind, r.subject, r.value)) = [(.dndChange, 8214, 1)] := by decide +kernel

/-- In ALERT a SERVICE press is an assistance call. -/
theorem test_poll_assist :
    let s := after (.events 1 6 [2]) (inPhase (flying (txn .poll .poll 1 none)) .alert)
    (s.cabins.map fun e => e.2.assist) = [true] ∧ s.reports.map (fun r => (r.kind, r.value)) = [(.assist, 1)] := by
  decide +kernel

theorem test_cabin_mark :
    let s := { inPhase live .muster with cabins := [(17, cabin)] }
    ((after (.cabinMarkBulletin (toAll 1) [8214]) s).cabins.map fun e => e.2.swept) = [true] ∧
      ((after (.assistClearBulletin (toAll 1) [8214, 9120]) { s with cabins := [(17, { cabin with assist := true })] }).cabins.map
        fun e => e.2.assist) = [false] := by decide +kernel

/-- A dispatch: READY is answered with SCREEN, ACK with COMMIT. -/
theorem test_dispatch_goes_on :
    let k := TxnKind.dispatch [1, 15, 0, 0] 0#16
    ((after (.ready 1 6 4) (flying (txn k .select 1 none))).str 1).lineOut = stringBytes 7 2 [1, 15, 0, 0] ∧
      ((after (.ack 1 6) (flying (txn k .screen 1 none))).str 1).lineOut = stringBytes 7 3 [] := by decide +kernel

/-- REFRESH 10001 is capped; BUSY 1200 returns the display to its place. -/
theorem test_refresh_and_busy :
    let k := TxnKind.dispatch [] 5#16
    ((after (.refresh 1 6 10001) (flying (txn k .commit 1 none))).displays.map fun e => (e.2.rt.busyUntil, e.2.rt.digest)) =
        [(10000, some 5#16)] ∧
      ((after (.busy 1 6 1200) (flying (txn k .select 1 (some (.safety, 0))))).displays.map fun e => (e.2.rt.busyUntil, e.2.rt.state)) =
        [(1200, .queued .safety)] := by decide +kernel

/-- The third failed try of a dispatch counts; NAK before it sends the message again. -/
theorem test_tries :
    let k := TxnKind.dispatch [] 5#16
    ((after (.replyTimeout 1) (flying (txn k .select 3 (some (.safety, 0))))).displays.map fun e => (e.2.rt.failures, e.2.rt.lastFail)) =
        [(1, some 8)] ∧
      ((after (.nak 1 6) (flying (txn k .select 2 none))).str 1).txn.map (·.tries) = some 3 := by decide +kernel

/-- A reply under another tag is discarded, by its bytes too. -/
theorem test_reply_discarded :
    let s := flying (txn .poll .poll 1 none)
    after (.stringReplyDiscard 1 [9, 133, 0, 2, 7, 8, 49, 138]) s = s ∧ after (.ack 1 5) s = s := by decide +kernel

/-- The alarm's first take on a string, by SELECT of the display's position. -/
theorem test_dispatch_take :
    let s := (withDisplay (display .musterPoint 1)).mark 9 .safety
    s.offer 1 = some (.dispatch 9 .safety 0) ∧ ((after (.dispatchTake 1) s).str 1).lineOut = stringBytes 0 1 [1] ∧
      ((after (.dispatchTake 1) s).str 1).run = 1 := by decide +kernel

/-- A cabin display that has not been polled is polled; a FAULTED one is probed. -/
theorem test_poll_and_probe :
    ((after (.pollTake 1) (withDisplay (display .cabin 4))).str 1).lineOut = stringBytes 0 5 [4] ∧
      ((after (.probeTake 1) (withDisplay (displayIn .cabin 4 .faulted))).str 1).lineOut = stringBytes 0 1 [4] := by
  decide +kernel

/-- At SAFETY run count 4 a due poll goes ahead of an eligible SAFETY display (the worked repaint, t = 160). -/
theorem test_fifth_is_a_poll :
    let s := (withDisplay (display .cabin 10)).mark 9 .safety
    (s.setStr 1 { s.str 1 with run := 4 }).offer 1 = some (.poll 9) ∧
      (s.setStr 1 { s.str 1 with run := 3 }).offer 1 = some (.dispatch 9 .safety 0) := by decide +kernel

theorem test_deadlines :
    let x := { display .cabin 4 with rt := { DisplayRuntime.fresh with busyUntil := 900, lastCommit := some 50, lastPoll := some 20 } }
    (after (.refreshBusyReached 9) (withDisplay x)).now = 900 ∧ (after (.minRefreshExpiry 9) (withDisplay x)).now = 20050 ∧
      (after (.pollDue 9) (withDisplay x)).now = 1020 := by decide +kernel

theorem test_probe_due :
    (after (.probeDue 9) (withDisplay { displayIn .cabin 4 .faulted with
      rt := { DisplayRuntime.fresh with state := .faulted, lastFail := some 202 } })).now = 30202 := by decide +kernel

/-- The composed screen of chapter 7 at position 8: BACK, 48 m, 1 min seen from heading 8. -/
theorem test_composed_value :
    (graph []).settledValue (destination .musterStation .settled 5 [(1, cell 570 480 1 false)]) 1 8 =
      { glyph := .arrow 4, distance := some 48, minutes := some (1, false) } := by decide

/-- The table of R34: the phase, the light level and quiet hours, with the brightness and the screen mode. -/
theorem test_brightness :
    ∀ r ∈ [(Phase.normal, Light.day, false, 12, ScreenMode.normal), (.normal, .night, false, 4, .normal),
        (.normal, .day, true, 4, .quiet), (.alert, .night, false, 15, .alert), (.standDown, .night, false, 4, .standDown),
        (.standDown, .day, false, 12, .standDown)],
      let s : State := { live with ship := { live.ship with phase := r.1, light := r.2.1, quiet := r.2.2.1 } };
      s.brightness (config .corridor 1) = r.2.2.2.1 ∧ s.screenMode (config .corridor 1) = r.2.2.2.2 := by decide

/-- The slot counts that R110 gives. -/
theorem test_fixed_templates :
    (List.range 16).map (fun n => (live.template n).map fun t => t.slots.length) =
      ([12, 12, 12, 12, 5, 9, 10, 10, 10, 10, 10, 10, 6, 3, 6, 7] : List Nat).map some := by decide +kernel

/-- R112: a fixed template of the other grid, a writable one of the class's grid, one of the other grid, an absent one, and none. -/
theorem test_template_in_use :
    let s : State := { live with templates := [(16, { grid := .small, slots := [], timeDependent := false })] };
    [some 12, some 16, some 63, none].map (fun n => (s.setSelection 25 n).templateInUse .cabin .notice) = [12, 16, 13, 13] ∧
      (s.setSelection 13 (some 16)).templateInUse .lobby .notice = 12 := by decide +kernel

/-- R75: an entry at the board's horizon and a minute beyond it; one RUNNING and one ENDED. -/
theorem test_window :
    [180, 181].map (fun n => inWindow (config .lobby 1) (some 0) { entry 0 with start := n }) = [true, false] ∧
      inWindow (config .lobby 1) (some 9) { entry 0 with status := .running, start := 900 } = true ∧
      inWindow (config .lobby 1) (some 9) { entry 0 with status := .ended } = false ∧
      inWindow (config .lobby 1) none (entry 0) = false := by decide

/-! ### The statements' hypotheses are met -/

theorem asked {s : State} (o : Nat) (ho : o ≤ 3) (ha : s.address = some 5) (hu : s.fore.up = true)
    (hr : s.replies.length < 4) : s.Asked (from5 o) :=
  ⟨⟨hu, by simp [from5, ha]⟩, ho, ha, hr⟩

theorem heard {s : State} (n : Nat) (hu : s.fore.up = true) : s.Hears (toAll n) := ⟨hu, rfl, Or.inr (Or.inr rfl)⟩

theorem fresh {s : State} (n : Nat) (hw : s.watermark = none) : s.Fresh n := by
  intro w h
  rw [hw] at h
  cases h

theorem fresh_within : ({ live with watermark := some 65535 } : State).Fresh 0 ∧
    ({ live with watermark := some 65535 } : State).Fresh 32766 ∧ ¬({ live with watermark := some 7 } : State).Fresh 7 ∧
    ¬({ live with watermark := some 7 } : State).Fresh 32775 := by
  refine ⟨?_, ?_, fun h => ?_, fun h => ?_⟩
  · intro w h
    cases h
    decide
  · intro w h
    cases h
    decide
  · exact absurd (h 7 rfl) (by decide)
  · exact absurd (h 7 rfl) (by decide)

theorem stale_seven {s : State} (h : s.watermark = some 7) : ¬s.Fresh 7 := fun f => absurd (f 7 h) (by decide)

theorem fresh_eight {s : State} (h : s.watermark = some 7) : s.Fresh 8 := by
  intro w hw
  rw [h] at hw
  cases hw
  decide

theorem tables_live : live.TablesOk := by constructor <;> (simp only [Tab.Rising]; decide)

/-- The accord of the strings in a form that `decide` tests. -/
theorem strings_ok (s : State)
    (flight : ∀ k, ((s.str k).state = .opened ∨ (s.str k).state = .holding) ↔ (s.str k).txn.isSome = true)
    (txns : ∀ k, ∀ t ∈ (s.str k).txn,
      (∃ e ∈ s.displays, s.display t.display = some e.2 ∧ e.2.cfg.string = k ∧ e.2.rt.state = .opened) ∧
        (t.kind = .poll ↔ t.step = .poll) ∧ (t.kind = .probe → t.step = .select))
    (displays : ∀ e ∈ s.displays,
      (e.2.rt.state = .opened → (s.str e.2.cfg.string).txn.map (·.display) = some e.1) ∧
        (∀ u ∈ [Urgency.safety, .service, .routine], e.2.rt.state = .queued u →
          ∃ q ∈ (s.str e.2.cfg.string).queue u, q.display = e.1) ∧
        1 ≤ e.2.cfg.position ∧ e.2.cfg.position ≤ 63 ∧
        ∀ f ∈ s.displays, e.2.cfg.string = f.2.cfg.string → e.2.cfg.position = f.2.cfg.position → e.1 = f.1)
    (queues : ∀ k, ∀ u ∈ [Urgency.safety, .service, .routine],
      (∀ q ∈ (s.str k).queue u,
        ∃ e ∈ s.displays, s.display q.display = some e.2 ∧ e.2.cfg.string = k ∧ e.2.rt.state = .queued u) ∧
        ((s.str k).queue u).Pairwise (fun e f => e.display ≠ f.display) ∧
        ((s.str k).queue u).Pairwise fun e f => s.before u e f = true)
    (stamps : ∀ k, (s.str k).stamps.Nodup ∧ ∀ n ∈ (s.str k).stamps, n < (s.str k).counter) : s.StringsOk := by
  have all : ∀ u : Urgency, u ∈ [Urgency.safety, .service, .routine] := by intro u; cases u <;> decide
  refine ⟨flight, ?_, ?_, ?_, ?_, ?_, ?_, ?_, stamps, ?_, ?_⟩
  · intro k t h
    obtain ⟨⟨e, -, h1, h2⟩, -⟩ := txns k t h
    exact ⟨e.2, h1, h2⟩
  · intro d x hx ho
    have h := (displays _ (Tab.mem_of_fetch hx)).1 ho
    cases ht : (s.str x.cfg.string).txn with
    | none => simp [ht] at h
    | some t => exact ⟨t, rfl, by simpa [ht] using h⟩
  · exact fun k t h => (txns k t h).2
  · intro d x u hx hu
    exact (displays _ (Tab.mem_of_fetch hx)).2.1 u (all u) hu
  · intro k u q hq
    obtain ⟨e, -, h⟩ := (queues k u (all u)).1 q hq
    exact ⟨e.2, h⟩
  · exact fun k u => (queues k u (all u)).2.1
  · exact fun k u => (queues k u (all u)).2.2.imp State.standsBefore_of_before
  · intro d x e y hx hy
    exact (displays _ (Tab.mem_of_fetch hx)).2.2.2.2 _ (Tab.mem_of_fetch hy)
  · intro d x hx
    have h := displays _ (Tab.mem_of_fetch hx)
    exact ⟨h.2.2.1, h.2.2.2.1⟩

theorem exec_after (i : Instr) (s : State) : exec i s = .next (after i s) := by
  obtain ⟨t, h⟩ := test_exec_next i s
  simp [after, h]

theorem idle_next (s : State) : ∃ t, s.idle = .next t := by
  unfold State.idle
  split
  · exact ⟨_, rfl⟩
  · split
    · exact test_exec_next _ _
    · exact ⟨_, rfl⟩

theorem step_next (s : State) : ∃ t, step s = .next t := by
  unfold step
  split
  · exact test_exec_next _ _
  · exact idle_next s

theorem witness_StepRunsFront : ({ live with pending := [.sweepEnd, .solverTake] } : State).pending = .sweepEnd :: [.solverTake] := rfl

/-- With nothing due; with the solver's take due; and with a sweep under way. -/
theorem witness_IdleStep :
    (live.pending = [] ∧ (∀ i, ¬live.Due i) ∧ ∃ t, step live = .next t) ∧
      (let s : State := { graph [] with dests := [(3, destination .exit .pending 0 [])] };
        s.pending = [] ∧ s.Due .solverTake ∧ ∃ t, step s = .next t) ∧
      (let s : State := { graph [] with dests := [(3, destination .exit .solving 0 [])] };
        s.UnderWay .sweepEnd ∧ ∃ t, step s = .next t) := by
  have ho : ∀ k, live.offer k = none := by decide +kernel
  refine ⟨⟨rfl, fun i h => ?_, step_next _⟩, ⟨rfl, ⟨by decide, _, List.mem_singleton.2 rfl, Or.inl rfl⟩, step_next _⟩,
    ⟨_, List.mem_singleton.2 rfl, rfl⟩, step_next _⟩
  cases i <;> simp [State.Due, ho] at h
  case transmitBegin p => cases p <;> simp [live, upPort, State.port, State.reset, State.powerOn] at h
  case portUp p => cases p <;> simp [live, upPort, State.port] at h
  case portDown p => cases p <;> simp [live, upPort, State.port] at h
  case replyTimeout k =>
    have ht : ∀ k, (live.str k).txn = none := by decide
    simp [ht] at h
  all_goals simp [live, State.reset, State.powerOn, Ship.reset] at h

/-- A state with the raw level and the line of the muster input. -/
def lineState (raw line : Bool) (p : Phase) (drill : Bool) : State :=
  { live with ship := { live.ship with raw := raw, line := line, phase := p, drill := drill } }

theorem witness_MusterLine :
    ((lineState false false .normal false).ship.raw ≠ true ∧ (lineState false false .normal false).ship.raw = false) ∧
      ((lineState false true .alert false).ship.raw = false ∧ (lineState false true .alert false).ship.line = true) ∧
      (lineState true true .alert false).ship.raw = (lineState true true .alert false).ship.line ∧
      ∀ p ∈ [Phase.normal, .alert, .muster, .standDown], ∀ d ∈ [true, false],
        (lineState true false p d).ship.raw = true ∧ (lineState true false p d).ship.line = false ∧
          (lineState true false p d).ship.phase = p ∧ (lineState true false p d).ship.drill = d := by decide

/-- A minute before quiet hours, with a board and a lobby, an entry that starts at the next minute and one outlived by then, a notice
that ends at it, one that starts and one that goes on. -/
def minuteTurns : State :=
  { live with
    node := { live.node with quietStart := 60, quietEnd := 61 }
    ship := { live.ship with valid := true, minute := 59, second := 59 }
    lastEvaluation := some 59
    displays := [(8, display .lobby 2), (9, display .programme 1)]
    programme :=
      [{ id := 2, day := 0, start := 0, duration := 30, venue := none, category := 0, deck := 0, title := 7, status := .cancelled },
       { id := 1, day := 0, start := 60, duration := 30, venue := none, category := 0, deck := 0, title := 7, status := .scheduled }]
    notices :=
      [(1, { Notice.created with classMask := 4#6, stop := some 60, current := true }),
       (2, { Notice.created with classMask := 0#6, start := some 60, stop := some 61 }), (63, { Notice.created with classMask := 0#6, current := true })] }

/-- The clock INVALID; a second below 59; the last one of day 255; and the minute above, where an entry moves, one is pruned, a notice
is removed, one becomes current, a display shows a template that is time-dependent, and quiet hours begin. -/
theorem witness_ClockSecond :
    live.ship.valid = false ∧
      (let s := { live with ship := { live.ship with valid := true, second := 58 } };
        s.ship.valid = true ∧ s.ship.second < 59) ∧
      (let s := { live with ship := { live.ship with valid := true, second := 59, minute := 1439, day := 255 } };
        s.ship.valid = true ∧ s.ship.second = 59) ∧
      minuteTurns.ship.valid = true ∧ minuteTurns.ship.second = 59 ∧ minuteTurns.TablesOk ∧
      minuteTurns.display 9 = some (display .programme 1) ∧ (config .programme 1).cls.isBoard = true ∧
      (∃ e ∈ minuteTurns.programme, e.id = 1 ∧ e.Concerns (config .programme 1) (some 59) 60 30) ∧
      (∃ e ∈ minuteTurns.programme, (e.movedAt 60).Outlived 30 60) ∧
      (∃ n, minuteTurns.NoticeMoved (after .clockSecondAdvance minuteTurns) 1 n (config .lobby 2) ∧ n.stop = some 60) ∧
      (∃ n, Tab.fetch minuteTurns.notices 2 = some n ∧ ∀ b, n.stop = some b → 60 < b) ∧
      ({ minuteTurns with notices := (after .clockSecondAdvance minuteTurns).notices } : State).ShowsTime (config .programme 1) ∧
      ({ minuteTurns with notices := (after .clockSecondAdvance minuteTurns).notices } : State).ShowsApart
        (after .clockSecondAdvance minuteTurns) (config .programme 1) :=
  ⟨rfl, by decide, by decide, rfl, rfl, by constructor <;> (simp only [Tab.Rising]; decide), by decide, rfl,
    ⟨_, List.mem_cons_of_mem _ (List.mem_singleton.2 rfl), rfl, Or.inr ⟨by decide, by decide⟩, Or.inl (by decide)⟩,
    ⟨_, List.mem_cons_self .., by decide⟩,
    ⟨_, ⟨rfl, by decide +kernel, ⟨by decide, by decide⟩, by decide, Or.inl rfl⟩, rfl⟩,
    ⟨_, rfl, by intro b h; cases h; decide⟩, ⟨_, rfl, rfl⟩, Or.inl (by decide +kernel)⟩

/-- STAND_DOWN with a hold due at 0. -/
def standingDown (lost : Bool) : State :=
  { live with ship := { live.ship with phase := .standDown, hold := some 0, linkLost := lost } }

theorem witness_HoldExpiry :
    ∀ b ∈ [true, false], (standingDown b).ship.phase = .standDown ∧ (standingDown b).ship.hold = some 0 ∧
      (standingDown b).ship.linkLost = b := by decide

/-- LINK_LOST in STAND_DOWN, with a hold that ran out or without. -/
def lostState (ranOut : Bool) : State :=
  { live with ship := { live.ship with phase := .standDown, linkLost := true, holdRunOut := ranOut }, watermark := some 7 }

/-- A timer that runs and none; a bulletin ignored in LINK_LOST, with a hold that ran out and without, and with the link not lost; a PHASE
bulletin taken, its drill flag another one than the phase's and the same. -/
theorem witness_BridgeSilence :
    (live.ship.silence = some 10000 ∧ ({ live with ship := { live.ship with silence := none } } : State).ship.silence = none) ∧
      (∀ b, (Bulletin.light 1).command (toAll 7) = some (.lightBulletin (toAll 7) 1) ∧ (lostState b).Hears (toAll 7) ∧
        (Bulletin.light 1).bytes.length ≤ 1024 ∧ ¬(lostState b).Fresh (toAll 7).seq ∧ (lostState b).ship.linkLost = true ∧
        (lostState b).ship.phase = .standDown ∧ (lostState b).ship.holdRunOut = b) ∧
      (let s : State := { live with watermark := some 7 };
        s.Hears (toAll 7) ∧ ¬s.Fresh (toAll 7).seq ∧ s.ship.linkLost = false) ∧
      (true ≠ (lostState true).ship.drill ∧ ¬false ≠ (lostState true).ship.drill) ∧
      ((lostState true).Hears (toAll 8) ∧ (lostState true).Fresh (toAll 8).seq ∧ (lostState true).ship.line = false) :=
  ⟨by decide, fun _ => ⟨rfl, heard 7 rfl, by decide, stale_seven rfl, rfl, rfl, rfl⟩,
    ⟨heard 7 rfl, stale_seven rfl, rfl⟩, by decide, heard 8 rfl, fresh_eight rfl, rfl⟩

theorem witness_LinkPorts :
    (live.port .fore).signal ≠ false ∧ (live.port .fore).signal = true ∧
      (let s := live.setPort .aft { upPort with up := false };
        (s.port .aft).up = false ∧ (s.port .aft).signal = true) ∧
      (let s := live.setPort .aft { upPort with signal := false };
        (s.port .aft).up = true ∧ (s.port .aft).signal = false) := by decide

/-- A frame with every field at the end of its range. -/
def fullFrame : Frame :=
  { kind := 255, origin := 255, node := 255, dest := 254, hop := 63, seq := 65535, body := List.replicate 1024 0 }

/-- A RESTART to all, to be forwarded. -/
def restartFrame : Frame := { kind := 1, origin := 2, node := 1, dest := 255, hop := 1, seq := 0, body := [8] }

/-- Each way of being discarded: a DOWN port, ten bytes, a wrong CRC, a body length of 1025, one byte missing, an own frame. Then
forwarding: a frame that is forwarded, a RESTART, and a full queue. -/
theorem witness_FramesArrive :
    ((State.reset.port .fore).up = false ∧ (List.replicate 10 (0 : Byte)).length < 11 ∧
      (let bs : List Byte := [0, 0, 1, 255, 40, 4, 177, 0, 3, 1, 2, 1, 167, 87];
        crcBytes (bs.take (bs.length - 2)) ≠ bs.drop (bs.length - 2)) ∧
      (let bs : List Byte := [0, 0, 1, 255, 40, 4, 177, 4, 1, 0, 0];
        1024 < num16 (bs.getD 7 0) (bs.getD 8 0)) ∧
      (let bs : List Byte := [0, 0, 1, 255, 40, 4, 177, 0, 3, 1, 2, 0, 0];
        num16 (bs.getD 7 0) (bs.getD 8 0) ≠ bs.length - 11) ∧
      (let bs : List Byte := [2, 3, 5, 255, 40, 4, 177, 0, 0, 0, 0];
        (bs.getD 1 0).toNat = originController ∧ live.address = some (bs.getD 2 0).toNat)) ∧
      (∀ f ∈ [fullFrame, restartFrame], f.kind < 256 ∧ f.origin < 256 ∧ f.node < 256 ∧ f.dest < 256 ∧ f.hop < 64 ∧
        f.seq < 65536 ∧ f.body.length ≤ 1024 ∧ (live.port .fore).up = true ∧
        ¬(f.origin = originController ∧ live.address = some f.node)) ∧
      (1 ≤ fullFrame.hop ∧ live.address ≠ some fullFrame.dest ∧ (live.port .aft).up = true ∧
        (live.port .aft).queue.length < 16) ∧
      ¬((live.setPort .aft { upPort with queue := List.replicate 16 (passing 0 1) }).port .aft).queue.length < 16 ∧
      (¬(fullFrame.kind = 1 ∧ fullFrame.body = [8]) ∧ (restartFrame.kind = 1 ∧ restartFrame.body = [8]) ∧
        ∀ p ∈ [(0, 1), (0, 255), (1, 4), (2, 0), (3, 3), (4, 0), (255, 255)], ¬((p.1 = 0 ∧ p.2 = 0) ∨ (p.1 = 1 ∧ p.2 ≤ 3))) ∧
      (fullFrame.received 3).getD 4 0 = 255 ∧ live.ConcernedBy restartFrame.dest ∧ ¬live.ConcernedBy fullFrame.dest := by
  refine ⟨by decide +kernel, by decide +kernel, by decide +kernel, by decide +kernel, by decide +kernel, by decide +kernel,
    Or.inr (Or.inr rfl), ?_⟩
  rintro (h | ⟨g, h, -⟩ | h)
  · exact absurd h (by decide)
  · exact absurd h (by simp [live, State.reset, State.powerOn, NodeParams.reset])
  · exact absurd h (by decide)

/-- A request, a bulletin and a reply with operands at the ends of their ranges; flags spelled by 1, 2 and 255, and by 0, in a pair, in a
slot and as a drill byte; the bits above the hop limit set. -/
theorem witness_CommandBytes :
    (let fs : FieldList := [(1, .number 4294967295), (2, .flag true), (3, .absent), (4, .list [65535]), (5, .string [0]),
        (255, .slots [{ slotWith 6 65535 with emphasis := true }]), (6, .flag false)];
      (Request.write 15 65535 fs).command (from5 2) = some (.write (from5 2) 15 65535 fs) ∧
        (Instr.write (from5 2) 15 65535 fs).wf = true ∧
        ∀ b ∈ [(1 : Byte), 2, 255], (Request.write 15 65535 fs).SpelledBy ([0, 15, 255, 255, 7] ++ [1, 0, 255, 255, 255, 255] ++
          [2, 1, b] ++ [3, 2] ++ [4, 3, 1, 255, 255] ++ [5, 4, 1, 0, 0] ++ [255, 5, 1, 0, 0, 0, 0, 0, b, 0, 255, 255, 0, 0, 0] ++
          [6, 1, 0])) ∧
      ((Bulletin.cabinMark [0, 65535]).command (toAll 65535) = some (.cabinMarkBulletin (toAll 65535) [0, 65535]) ∧
        (Instr.cabinMarkBulletin (toAll 65535) [0, 65535]).wf = true ∧
        (Bulletin.cabinMark [0, 65535]).SpelledBy [4, 2, 0, 0, 255, 255] ∧
        (∀ b ∈ [(1 : Byte), 2, 255], (Bulletin.phase 255 true).SpelledBy [1, 255, b]) ∧
        (Bulletin.phase 255 false).SpelledBy [1, 255, 0]) ∧
      ((StringReply.events [255, 0, 1, 2]).command 7 255 = some (.events 7 255 [255, 0, 1, 2]) ∧
        (Instr.events 7 255 [255, 0, 1, 2]).wf = true ∧
        (StringReply.events [255, 0, 1, 2]).layout = some (134, [4, 255, 0, 1, 2])) ∧
      ((toAll 65535).hop = 0 ∧ live.address = some ({ from5 2 with hop := 63 } : Arrival).dest) ∧ 3 < 4 := by
  have h : ∀ b ∈ [(1 : Byte), 2, 255], ReadsAs b true := by decide
  refine ⟨⟨rfl, by decide +kernel, fun b hb => ?_⟩, ⟨rfl, by decide, rfl, fun b hb => ⟨b, h b hb, rfl⟩, 0, by decide, rfl⟩,
    ⟨rfl, by decide, rfl⟩, by decide, by decide⟩
  refine ⟨_, ⟨_, _, ⟨_, rfl, rfl⟩, ⟨_, _, ⟨_, ⟨b, h b hb, rfl⟩, rfl⟩, ⟨_, _, ⟨_, rfl, rfl⟩, ⟨_, _, ⟨_, rfl, rfl⟩, ⟨_, _, ⟨_, rfl, rfl⟩,
    ⟨_, _, ⟨_, ⟨_, ⟨_, _, ⟨b, h b hb, rfl⟩, rfl, rfl⟩, rfl⟩, rfl⟩, ⟨_, _, ⟨_, ⟨0, by decide, rfl⟩, rfl⟩, rfl, rfl⟩, rfl⟩, rfl⟩, rfl⟩,
    rfl⟩, rfl⟩, rfl⟩, ?_⟩
  rfl

/-- Bodies of a kind above 5 and of wrong lengths of each kind, a byte short and a byte long. -/
def droppedBodies : List (List Byte) :=
  [[], [6], [255, 1, 2], [0, 0, 0, 0, 0], [0, 0, 0, 0, 0, 0, 0], [1, 0], [1, 0, 0, 0], [2, 0], [2, 0, 2, 1], [2, 0, 1, 1, 1], [3], [3, 0, 0],
    [4], [4, 1, 0], [4, 1, 0, 1, 2], [5], [5, 2, 0, 1, 0], [5, 0, 1, 0]]

/-- Bodies that are not dropped. -/
def keptBodies : List (List Byte) :=
  [[0, 0, 0, 0, 0, 0], [1, 0, 0], [2, 0, 0], [2, 0, 2, 1, 1], [3, 9], [4, 0], [4, 1, 0, 1], [5, 2, 0, 1, 0, 2]]

/-- A frame of a bulletin body. -/
def bodyFrame (body : List Byte) (hop : Nat) : Frame :=
  { kind := kindBulletin, origin := originBridge, node := 255, dest := 255, hop := hop, seq := 7, body := body }

theorem test_dropped_bodies :
    (∀ b ∈ droppedBodies, DroppedBody b) ∧ (∀ b ∈ keptBodies, ¬DroppedBody b) ∧
      ∀ b ∈ droppedBodies, (after (.frameReceive .fore (bodyFrame b 0).bytes) { live with now := 5 }).ship.silence = some 10005 := by
  decide +kernel

/-- A cleared watermark; differences 1, 32767, 0 and 32768; taken and ignored with hop limit 0; a frame of a dropped body, taken and
ignored, forwarded and not, LINK_LOST or not. -/
theorem witness_Watermark :
    (Bulletin.light 1).command (toAll 7) = some (.lightBulletin (toAll 7) 1) ∧ live.Hears (toAll 7) ∧
      (Bulletin.light 1).bytes.length ≤ 1024 ∧ live.watermark = none ∧ (toAll 7).hop = 0 ∧ live.Fresh 7 ∧
      (∀ w ∈ [6, 32776], 1 ≤ (7 + 65536 - w) % 65536 ∧ (7 + 65536 - w) % 65536 ≤ 32767) ∧
      (∀ w ∈ [7, 32775], (7 + 65536 - w) % 65536 = 0 ∨ 32768 ≤ (7 + 65536 - w) % 65536) ∧
      ¬({ live with watermark := some 7 } : State).Fresh 7 ∧
      (∀ b ∈ [[], List.replicate 1024 6], ∀ h ∈ [0, 63],
        let f := bodyFrame b h;
        f.kind = kindBulletin ∧ f.origin = originBridge ∧ f.node < 256 ∧ f.dest < 256 ∧ f.hop < 64 ∧ f.seq < 65536 ∧
          f.body.length ≤ 1024 ∧ (live.port .aft).up = true ∧ f.hop = h) ∧
      (DroppedBody [] ∧ DroppedBody (List.replicate 1024 6)) ∧
      (live.ConcernedBy 255 ∧ live.ship.linkLost = false ∧ (lostState true).ConcernedBy 255 ∧ (lostState true).ship.linkLost = true) :=
  ⟨rfl, heard 7 rfl, by decide, rfl, rfl, fresh 7 rfl, by decide, by decide, fresh_within.2.2.1, by decide +kernel,
    by decide +kernel, Or.inr (Or.inr rfl), rfl, Or.inr (Or.inr rfl), rfl⟩

/-- The last minute of day 255, and a day one too high; the clock INVALID, and VALID with a notice and an entry to evaluate; LINK_LOST. -/
theorem witness_TimeBulletin :
    live.Hears (toAll 7) ∧ live.Fresh (toAll 7).seq ∧ (255 ≤ 255 ∧ 1439 ≤ 1439 ∧ 59 ≤ 59) ∧
      ¬(256 ≤ 255 ∧ 0 ≤ 1439 ∧ 0 ≤ 59) ∧ live.ship.linkLost = false ∧ live.ship.valid = false ∧
      ((lostState true).Hears (toAll 8) ∧ (lostState true).Fresh (toAll 8).seq ∧ (lostState true).ship.linkLost = true) ∧
      minuteTurns.Hears (toAll 7) ∧ minuteTurns.Fresh (toAll 7).seq ∧ minuteTurns.ship.linkLost = false ∧
      minuteTurns.TablesOk ∧ minuteTurns.ship.valid = true ∧ 0 * 1440 + 60 ≠ minuteTurns.ship.day * 1440 + minuteTurns.ship.minute ∧
      (∃ n, minuteTurns.NoticeMoved (after (.timeBulletin (toAll 7) 0 60 0) minuteTurns) 1 n (config .lobby 2)) :=
  ⟨heard 7 rfl, fresh 7 rfl, by decide, by decide, rfl, rfl, ⟨heard 8 rfl, fresh_eight rfl, rfl⟩, heard 7 rfl, fresh 7 rfl, rfl,
    by constructor <;> (simp only [Tab.Rising]; decide), rfl, by decide,
    ⟨_, rfl, by decide +kernel, ⟨by decide, by decide⟩, by decide, Or.inl rfl⟩⟩

/-- A phase value outside the four is 4 at the least. -/
theorem witness_PhaseBulletin :
    (∀ s ∈ [lineState false false .normal false, lineState true true .alert true, lineState true true .muster false,
        lineState false false .standDown true],
      s.Hears (toAll 7) ∧ s.Fresh (toAll 7).seq ∧ s.PhaseOk ∧ s.ship.linkLost = false) ∧
      4 ≤ 4 ∧ Phase.standDown.code = 3 ∧ phaseCell .alert .standDown true = .held := by
  refine ⟨fun s hs => ?_, by decide⟩
  simp only [List.mem_cons, List.not_mem_nil, or_false] at hs
  rcases hs with rfl | rfl | rfl | rfl <;>
    exact ⟨heard 7 rfl, fresh 7 rfl, by constructor <;> simp [lineState, live, State.reset, State.powerOn, Ship.reset], rfl⟩

theorem witness_AlarmEffects :
    (live.QuietOk ∧ live.ship.phase = .normal ∧ live.ship.line = false ∧ live.Hears (toAll 7) ∧ live.Fresh (toAll 7).seq) ∧
      (let s := lineState true false .standDown true;
        s.QuietOk ∧ s.ship.phase = .standDown ∧ s.ship.line = false ∧ s.ship.raw = true) :=
  ⟨⟨rfl, rfl, rfl, heard 7 rfl, fresh 7 rfl⟩, rfl, rfl, rfl, rfl⟩

/-- Each kind of cell, a phase value outside the four, and LINK_LOST with a hold that ran out and without. -/
theorem witness_PhaseEffects :
    (∀ s ∈ [lineState false false .normal false, lineState true true .alert true, lineState false false .alert false,
        lineState false false .muster false, lineState false false .standDown true],
      s.Hears (toAll 7) ∧ s.Fresh (toAll 7).seq ∧ s.PhaseOk ∧ s.ship.linkLost = false) ∧
      ((lostState false).Hears (toAll 8) ∧ (lostState false).Fresh (toAll 8).seq ∧ (lostState false).PhaseOk ∧
        (lostState false).ship.linkLost = true ∧ (lostState false).ship.holdRunOut = false ∧
        (lostState true).Hears (toAll 8) ∧ (lostState true).Fresh (toAll 8).seq ∧ (lostState true).PhaseOk ∧
        (lostState true).ship.holdRunOut = true ∧ phaseCell (lostState true).ship.phase .standDown (lostState true).ship.line = .drill ∧
        phaseCell (lostState true).ship.phase .alert (lostState true).ship.line = .enter .alert) ∧
      [phaseCell .normal .alert false, phaseCell .alert .muster true, phaseCell .muster .standDown false,
        phaseCell .alert .standDown false, phaseCell .alert .normal false, phaseCell .standDown .normal false,
        phaseCell .standDown .standDown false, phaseCell .normal .normal false, phaseCell .alert .normal true] =
        [.enter .alert, .enter .muster, .enter .standDown, .enter .standDown, .enter .normal, .enter .normal, .drill, .keep,
          .held] ∧ 4 ≤ 4 := by
  have lost : ∀ b, (lostState b).PhaseOk := fun b => by
    constructor <;> simp [lostState, live, State.reset, State.powerOn, Ship.reset]
  refine ⟨fun s hs => ?_,
    ⟨heard 8 rfl, fresh_eight rfl, lost false, rfl, rfl, heard 8 rfl, fresh_eight rfl, lost true, rfl, rfl, rfl⟩, by decide⟩
  simp only [List.mem_cons, List.not_mem_nil, or_false] at hs
  rcases hs with rfl | rfl | rfl | rfl | rfl <;>
    exact ⟨heard 7 rfl, fresh 7 rfl, by constructor <;> simp [lineState, live, State.reset, State.powerOn, Ship.reset],
      rfl⟩

/-- 1021 states; 32 from closure 127 on; a closure that comes to CLOSED and one that stays; LINK_LOST. -/
theorem witness_ClosuresBulletin :
    live.Hears (toAll 7) ∧ live.Fresh (toAll 7).seq ∧ (List.replicate 1021 1).length ≤ 1021 ∧
      (127 ≤ 127 ∧ 1 ≤ (List.replicate 32 1).length ∧ (List.replicate 32 1).length ≤ 32) ∧
      ¬(128 ≤ 127 ∧ 1 ≤ [1].length ∧ [1].length ≤ 32) ∧
      ((after (.closuresBulletin (toAll 7) 127 [1]) live).closure 127 = .closed ∧ live.closure 127 ≠ .closed) ∧
      (∀ c < 128, (after (.closuresBulletin (toAll 7) 0 [0]) live).closure c = .closed ↔ live.closure c = .closed) ∧
      live.ship.linkLost = false ∧ (lostState false).Hears (toAll 8) ∧ (lostState false).Fresh (toAll 8).seq :=
  ⟨heard 7 rfl, fresh 7 rfl, by decide +kernel, by decide +kernel, by decide, by decide +kernel, by decide +kernel, rfl, heard 8 rfl,
    fresh_eight rfl⟩

theorem witness_LightBulletin :
    let s := withDisplay (display .lobby 1);
    s.Hears (toAll 7) ∧ s.Fresh (toAll 7).seq ∧ s.ship.linkLost = false ∧ s.TablesOk ∧
      ((lostState true).Hears (toAll 8) ∧ (lostState true).Fresh (toAll 8).seq ∧ (lostState true).TablesOk) ∧
      (s.display 9 = some (display .lobby 1) ∧
        (after (.lightBulletin (toAll 7) 1) s).brightness (config .lobby 1) ≠ s.brightness (config .lobby 1)) ∧
      (after (.lightBulletin (toAll 7) 0) s).brightness (config .lobby 1) = s.brightness (config .lobby 1) :=
  ⟨heard 7 rfl, fresh 7 rfl, rfl, by constructor <;> (simp only [Tab.Rising]; decide),
    ⟨heard 8 rfl, fresh_eight rfl, by constructor <;> (simp only [Tab.Rising]; decide)⟩, by decide +kernel, by decide +kernel⟩

/-- One number, 32 numbers, 33 and 511; a linked cabin with the number and its flag as the clause asks; LINK_LOST. -/
theorem witness_CabinBulletins :
    let s := { inPhase (withDisplay (display .cabin 4)) .muster with cabins := [(17, cabin)] };
    (s.Hears (toAll 7) ∧ s.Fresh (toAll 7).seq ∧ s.ship.linkLost = false ∧ s.TablesOk) ∧
      ((lostState true).Hears (toAll 8) ∧ (lostState true).Fresh (toAll 8).seq ∧ (lostState true).TablesOk) ∧
      (List.replicate 511 8214).length ≤ 511 ∧
      (∀ n ∈ [1, 32], 1 ≤ (List.replicate n 8214).length ∧ (List.replicate n 8214).length ≤ 32) ∧
      ¬(List.replicate 33 8214).length ≤ 32 ∧
      (s.ship.phase = .muster ∧ (17, cabin) ∈ s.cabins ∧ cabin.number ∈ [8214] ∧ cabin.swept = false ∧
        s.linked cabin = true) ∧
      ({ cabin with assist := true } : Cabin).assist = true :=
  ⟨⟨heard 7 rfl, fresh 7 rfl, rfl, by constructor <;> (simp only [Tab.Rising]; decide)⟩,
    ⟨heard 8 rfl, fresh_eight rfl, by constructor <;> (simp only [Tab.Rising]; decide)⟩, by decide +kernel, by decide +kernel,
    by decide +kernel, by decide +kernel, rfl⟩

theorem witness_RequestUnanswered :
    (let r : Reply := { port := .aft, dest := 1, seq := 0, body := [] };
      let s : State := { live with replies := [r, r, r, r] };
      Request.identify.command (from5 2) = some (.identify (from5 2)) ∧ s.Receives (from5 2) ∧ (from5 2).origin ≤ originController ∧
        Request.identify.bytes.length ≤ 1024 ∧ s.address = some (from5 2).dest ∧ 4 ≤ s.replies.length) ∧
      (live.Receives (toAll 7) ∧ live.address ≠ some (toAll 7).dest ∧ live.ConcernedBy (toAll 7).dest ∧ (toAll 7).hop = 0 ∧
        live.address = some 5 ∧ live.replies.length < 4 ∧
        Request.restart.command { toAll 7 with dest := 5 } = some (.restart { toAll 7 with dest := 5 })) := by
  refine ⟨⟨rfl, ⟨rfl, by decide⟩, by decide, by decide, rfl, by decide⟩, ⟨rfl, by decide⟩, by decide, Or.inr (Or.inr rfl), rfl, rfl,
    by decide, rfl⟩

/-- No region matches anything after reset. -/
theorem free (t i : Nat) : ∀ n : Fin 8, ¬(live.regions[n]).Matches t i := by
  have h : ∀ n : Fin 8, (live.regions[n]).table = none := by decide
  intro n m
  rw [Region.Matches, h n] at m
  cases m.1

/-- Default access to write, where the entry is not barred. -/
theorem written {o t i : Nat} (ht : t ≤ 13) (h11 : t = 11 → 16 ≤ i) (h13 : t = 13 → (live.region i).lock = false)
    (ho : o = originBridge ∨ o = originMaintenance ∨ (o = originContent ∧ t ∈ [7, 8, 9, 10])) : live.WriteAccess o t i :=
  ⟨ht, h11, h13, Or.inl ⟨free t i, ho⟩⟩

/-- What the access and phase checks let pass, evaluated. -/
theorem writes {s : State} {o t i : Nat} (hi : i < tableSize t := by decide) (h : s.mayWrite o t i = true := by decide) :
    s.WriteAccess o t i := (s.mayWrite_iff o t i hi).1 h

theorem reads {s : State} {o t i : Nat} (h : s.mayRead o t i = true := by decide) : s.ReadAccess o t i := (s.mayRead_iff o t i).1 h

theorem changes {s : State} {a : Arrival} {t i : Nat} (hi : i < tableSize t := by decide)
    (h : (s.mayWrite a.origin t i && s.phasePassesWrite a.origin t []) = true := by decide) : s.MayChange a t i :=
  (s.mayChange_iff a t i hi).1 h

theorem clears {s : State} {a : Arrival} {t i : Nat} (hi : i < tableSize t := by decide)
    (h : (s.mayWrite a.origin t i && s.phasePassesClear a.origin t) = true := by decide) : s.MayClear a t i :=
  (s.mayClear_iff a t i hi).1 h

/-- Where no region is set, default access decides every entry but the fixed templates. -/
theorem by_default {s : State} (hs : s.regions = live.regions) {o t i : Nat} (ht : t ≤ 13) (h11 : t = 11 → 16 ≤ i)
    (ho : o = originBridge ∨ o = originMaintenance ∨ (o = originContent ∧ t ∈ [7, 8, 9, 10])) : s.WriteAccess o t i := by
  have hl : ∀ n : Fin 8, (live.regions[n]).lock = false := by simp [live, State.reset, State.powerOn, Region.reset]
  refine ⟨ht, h11, fun _ => ?_, Or.inl ⟨?_, ho⟩⟩
  · rw [State.region, hs]
    exact hl _
  · rw [hs]
    exact free t i

/-- Where no region is set, BRIDGE may clear all that a CLEAR_TABLE reaches. -/
theorem cleared {s : State} (hs : s.regions = live.regions) {t : Nat} (ht : t ≤ 13) (i : Nat) (h : s.ClearReaches t i) :
    s.MayClear (from5 0) t i := by
  refine ⟨by_default hs ht ?_ (Or.inl rfl), fun _ => Or.inl rfl⟩
  rintro rfl
  exact h.2 rfl

/-- What the form check lets pass, evaluated. -/
theorem inForm {s : State} {t i : Nat} {fs : FieldList} (h : s.writeFormOk t i fs = true := by decide) : ¬s.OutOfForm t i fs :=
  (s.writeFormOk_iff t i fs).1 h

/-- A state in which one unlocked region gives CONTENT an entry. -/
def opened (t i : Nat) : State :=
  { live with regions := live.regions.set 3 { Region.reset with table := some t, first := i, last := i, writeContent := true } }

/-- A request carried out and one that a check refuses; a table id of 16; each index or argument one past its range; a field number 0 and
one past the table's last. -/
theorem witness_RequestAnswered :
    live.Asked (from5 3) ∧
      ((Request.read 0 0).command (from5 3) = some (.read (from5 3) 0 0) ∧ (Request.read 0 0).bytes.length ≤ 1024) ∧
      ((Request.read 16 0).command (from5 3) = some (.read (from5 3) 16 0) ∧ (Request.read 16 0).bytes.length ≤ 1024 ∧
        2 ≤ (live.respond (from5 3).origin (.read 16 0)).code.code) ∧
      (¬live.OutOfForm 16 0 [(1, .flag true)] ∧ (Request.write 16 0 [(1, .flag true)]).TableRefused ∧
        (Request.clearTable 16).TableRefused) ∧
      (∀ p ∈ [(1, 512), (2, 8), (7, 0), (7, 65536), (12, 36), (15, 8192)],
        ¬live.OutOfForm p.1 p.2 [] ∧ p.1 ≤ 15 ∧ (tableRanges.getD p.1 0 ≤ p.2 ∨ (p.1 = 7 ∧ p.2 = 0))) ∧
      ((Request.adjustSteps 0 512 0).IndexRefused ∧ (Request.holdString 8).IndexRefused ∧ (Request.displayStatus 512).IndexRefused) ∧
      (live.Asked (from5 1) ∧ live.WriteAccess (from5 1).origin 9 63 ∧ 63 < tableRanges.getD 9 0 ∧
        (∀ f ∈ [0, 7], ¬live.OutOfForm 9 63 [(1, .number 1), (4, .number 1), (f, .absent)] ∧ (f = 0 ∨ tableFields.getD 9 0 < f)) ∧
        (Request.write 9 63 [(1, .number 1), (4, .number 1), (7, .absent)]).bytes.length ≤ 1024) :=
  ⟨asked 3 (by decide) rfl rfl (by decide), by decide, by decide +kernel, ⟨inForm, Nat.lt_succ_self 15, Nat.lt_succ_self 15⟩,
    fun p hp => ⟨inForm (by revert p; decide), by revert p; decide⟩, ⟨⟨rfl, Nat.lt_succ_self 511⟩, Nat.lt_succ_self 7, Nat.lt_succ_self 511⟩, asked 1 (by decide) rfl rfl (by decide),
    written (by decide) (by decide) (by decide) (Or.inr (Or.inr ⟨rfl, by decide⟩)), by decide,
    fun f hf => ⟨inForm (by revert f; decide), by revert f; decide⟩, by decide⟩

theorem witness_ControllerChangesNothing :
    (Request.holdString 7).command (from5 3) = some (.holdString (from5 3) 7) ∧ (Request.holdString 7).changes = true ∧
      live.Asked (from5 3) ∧ (Request.holdString 7).bytes.length ≤ 1024 ∧ (from5 3).origin = originController :=
  ⟨rfl, rfl, asked 3 (by decide) rfl rfl (by decide), by decide, rfl⟩

/-- Each clause of the gate: by MAINTENANCE in ALERT, by CONTENT where a region lets it, by BRIDGE for HOLD_STRING, in STAND_DOWN for
RESTART; the last index of each gated table and the readable targets. -/
theorem witness_PhaseGate :
    ((inPhase live .alert).Asked (from5 2) ∧ (inPhase live .alert).Asked (from5 0) ∧ (inPhase live .standDown).Asked (from5 0) ∧
      (from5 2).origin ≠ originBridge ∧ (inPhase live .standDown).ship.phase ≠ .normal) ∧
      (12 ∈ [1, 2, 3, 4, 5, 11, 12] ∧ 3 ∈ ([(3, .absent)] : FieldList).map (·.1) ∧ 8 ∈ [1, 2, 3, 4, 5, 8, 11, 12] ∧
        (∀ r ∈ [Request.write 12 0 [], .write 8 0 [(3, .absent)], .clear 8 0, .clearTable 12, .adjustSteps 2 0 0, .holdString 0,
          .restart], r.bytes.length ≤ 1024 ∧ (r.command (from5 2)).isSome = true)) ∧
      (∀ p ∈ [(1, 511), (2, 7), (3, 255), (4, 1023), (5, 31), (8, 383), (11, 16), (11, 63), (12, 35)],
        p.2 < tableRanges.getD p.1 0 ∧ (inPhase live .alert).WriteAccess (from5 2).origin p.1 p.2) ∧
      ((inPhase (opened 12 35) .alert).Asked (from5 1) ∧ (inPhase (opened 12 35) .alert).WriteAccess (from5 1).origin 12 35) ∧
      (¬(inPhase live .alert).OutOfForm 12 35 [(1, .absent)] ∧ fieldsWf [(1, .absent)] = true ∧
        ¬(inPhase live .muster).OutOfForm 8 383 [(1, .number 1), (2, .number 0)]) ∧
      (∀ j, (inPhase live .alert).ClearReaches 12 j → (inPhase live .alert).WriteAccess (from5 2).origin 12 j) ∧
      (∀ p ∈ [(0, 511), (1, 5), (2, 0)], (p.1 = 0 ∨ (p.1 = 1 ∧ p.2 ≤ 5) ∨ p.1 = 2) ∧ (p.1 = 0 → p.2 < 512)) ∧
      (from5 2).origin ≠ originController ∧
      ((inPhase (withDisplay (display .lobby 1)) .alert).display 9 = some (display .lobby 1) ∧
        (inPhase (withDisplay (display .lobby 1)) .alert).WriteAccess (from5 2).origin 1 9) :=
  ⟨⟨asked 2 (by decide) rfl rfl (by decide), asked 0 (by decide) rfl rfl (by decide), asked 0 (by decide) rfl rfl (by decide),
    by decide, by decide⟩, by decide +kernel,
    fun p hp => ⟨by revert p; decide, writes (by revert p; decide) (by revert p; decide)⟩,
    ⟨asked 1 (by decide) rfl rfl (by decide), writes⟩, ⟨inForm, by decide, inForm⟩,
    fun _ _ => by_default rfl (by decide) (fun h => absurd h (by decide)) (Or.inr (Or.inl rfl)), by decide, by decide, by decide, writes⟩

/-- Bodies one byte too short and too long, an unknown kind, and a field list of each malformed kind. -/
theorem witness_MalformedRequest :
    live.Asked (from5 0) ∧ (from5 0).wf = true ∧
      (∀ p ∈ [(12, 0), (255, 1023), (1, 2), (2, 4), (3, 0), (5, 2), (6, 0), (4, 3), (4, 5), (7, 1), (10, 3), (8, 1), (9, 1), (11, 1),
          (0, 3)],
        p.2 ≤ 1023 ∧
          (12 ≤ p.1 ∨ (p.1 ∈ [1, 2] ∧ p.2 ≠ 3) ∨ (p.1 ∈ [3, 5, 6] ∧ p.2 ≠ 1) ∨ (p.1 = 4 ∧ p.2 ≠ 4) ∨ (p.1 ∈ [7, 10] ∧ p.2 ≠ 2) ∨
            (p.1 ∈ [8, 9, 11] ∧ p.2 ≠ 0) ∨ (p.1 = 0 ∧ p.2 < 4))) ∧
      ((0 : Byte).toNat = 0 ∧ List.replicate 1019 (0 : Byte) ≠ [] ∧ (List.replicate 1019 (0 : Byte)).length ≤ 1019) ∧
      ((fieldsWf [(1, .number 0), (1, .flag true)] = true ∧ live.OutOfForm 0 0 [(1, .number 0), (1, .flag true)]) ∧
        (∀ p ∈ ([(0, 1, .flag true), (0, 1, .absent), (2, 1, .number 1), (5, 3, .number 0), (10, 1, .list []), (11, 2, .string []),
            (13, 10, .number 0)] : List (Nat × Nat × FieldValue)), fieldsWf [(p.2.1, p.2.2)] = true ∧ live.OutOfForm p.1 0 [(p.2.1, p.2.2)]) ∧
        ∀ p ∈ [(1, 511), (4, 1023), (5, 31), (7, 65535), (8, 383), (9, 63), (11, 16), (6, 63), (10, 4095), (12, 35)],
          fieldsWf [] = true ∧ live.OutOfForm p.1 p.2 []) := by
  refine ⟨asked 0 (by decide) rfl rfl (by decide), by decide, by decide, by decide +kernel,
    ⟨by decide, Or.inl ⟨1, _, _, [], [], [], rfl⟩⟩, fun p hp => ⟨by revert p; decide, ?_⟩, fun p hp => ⟨by decide, ?_⟩⟩ <;>
  exact Classical.not_not.1 (mt (State.writeFormOk_iff _ _ _ _).2 (by revert p; decide))

/-- A state whose region 7 holds every entry of a table, with no bit set. -/
def regioned (s : State) (t : Nat) (lock : Bool) : State :=
  { s with regions := live.regions.set 7 { Region.reset with table := some t, last := 65535, lock := lock } }

/-- No region: READ for every origin, WRITE for BRIDGE but not for CONTENT nor, in CLOSURES, for anyone; an unlocked region, which lets the
BRIDGE and bars MAINTENANCE; a locked one, which bars the BRIDGE too; the entries and the targets that the clauses name. -/
theorem witness_AccessRegions :
    (∀ o ∈ [0, 1, 2, 3], live.Asked (from5 o) ∧ live.ReadAccess o 15 8191) ∧ (15 ≤ 15 ∧ 8191 < tableRanges.getD 15 0) ∧
      (live.WriteAccess 0 1 511 ∧ live.WriteAccess 2 2 7 ∧ live.WriteAccess 1 10 4095 ∧ live.WriteAccess 0 13 7) ∧
      (¬live.WriteAccess 1 1 9 ∧ ¬live.WriteAccess 1 2 7 ∧ ¬live.WriteAccess 0 14 127 ∧ ¬live.WriteAccess 0 11 15 ∧
        ¬live.WriteAccess 3 7 1) ∧
      (∀ t l, (regioned live t l).Asked (from5 0) ∧ (regioned live t l).Asked (from5 2)) ∧
      ((regioned live 1 false).WriteAccess 0 1 9 ∧ ¬(regioned live 1 false).WriteAccess 2 1 9 ∧
        ¬(regioned live 1 true).WriteAccess 0 1 9 ∧ ¬(regioned live 1 true).ReadAccess 0 1 9 ∧
        ¬(regioned live 13 true).WriteAccess 0 13 7) ∧
      (fieldsWf [(7, .number 1)] = true ∧ ¬(withDisplay (display .lobby 1)).OutOfForm 1 9 [(7, .number 1)] ∧
        (withDisplay (display .lobby 1)).display 9 = some (display .lobby 1)) ∧
      ((∀ j < tableRanges.getD 1 0, (1 = 11 → 16 ≤ j) → live.WriteAccess 0 1 j) ∧
        (∀ e ∈ ({ live with programme := [entry 0] } : State).programme, live.WriteAccess 1 7 e.id)) ∧
      ∀ d x, (withDisplay (display .lobby 1)).display d = some x → (withDisplay (display .lobby 1)).WriteAccess 0 1 d := by
  refine ⟨fun o h => ⟨?_, Or.inr (Or.inl (free 15 8191))⟩, by decide, ⟨?_, ?_, ?_, ?_⟩, ⟨?_, ?_, ?_, ?_, ?_⟩,
    fun t l => ⟨asked 0 (by decide) rfl rfl (Nat.zero_lt_succ 3), asked 2 (by decide) rfl rfl (Nat.zero_lt_succ 3)⟩,
    ⟨?_, ?_, ?_, ?_, ?_⟩, ⟨by decide, inForm, rfl⟩, ⟨fun j _ _ => ?_, fun e he => ?_⟩, fun d x _ => ?_⟩
  · fin_cases h <;> exact asked _ (by decide) rfl rfl (by decide)
  on_goal 16 =>
    obtain rfl : e = entry 0 := by simpa using he
  all_goals first
    | exact written (by decide) (fun h => absurd h (by decide)) (fun h => absurd h (by decide)) (by decide)
    | exact written (by decide) (by decide) (by decide) (by decide)
    | exact (State.mayWrite_iff _ _ _ _ (by decide)).1 (by decide)
    | exact fun h => absurd ((State.mayWrite_iff _ _ _ _ (by decide)).2 h) (by decide)
    | exact fun h => absurd ((State.mayRead_iff _ _ _ _).2 h) (by decide)

/-- No field of NODE. -/
def none22 : NodeWrite :=
  { holdTime := none, silenceTime := none, quietStart := none, quietEnd := none, walkRate := none, wCorridor := none, wStairUp := none
    wStairDown := none, wLift := none, wOpenDeck := none, retention := none, minRefresh := Vector.replicate 6 none, quietMask := none
    zoneGroup := none, reportDest := none, reportPort := none, txHop := none }

/-- NODE: no field, two from the ends of its list in the other order, a value at the end of its range and one past it; a HELD string and
one that is not, with some of its fields and none; region 7 unlocked, with a table in range, none and out of it, a first index at the
last and above it, with an index past the range; and locked. -/
theorem witness_ConfigurationWrites :
    let none3s : StringWrite := { enabled := none, timeout := none, pollPeriod := none };
    let none10 : RegionWrite :=
      { table := none, first := none, last := none, readContent := none, readMaintenance := none, readBridge := none
        writeContent := none, writeMaintenance := none, writeBridge := none, lock := none };
    let ends : NodeWrite := { none22 with holdTime := some 901, txHop := some 63, zoneGroup := some none };
    (live.Asked (from5 0) ∧ live.Asked (from5 2) ∧ ((from5 0).origin = originBridge ∧ (from5 2).origin = originMaintenance) ∧
      live.WriteAccess (from5 2).origin 0 0 ∧ live.MayChange (from5 2) 2 (7 : StringNo).val ∧ (live.str 7).state ≠ .held ∧
      (opened 0 0).Asked (from5 1) ∧ (opened 0 0).WriteAccess (from5 1).origin 0 0) ∧
      (none22.pairs = [] ∧ ends.pairs.reverse.Perm ends.pairs ∧ ends.pairs = [(1, .number 901), (19, .absent), (22, .number 63)] ∧
        ends.Adjusted ∧ ¬none22.Adjusted ∧ (none22.leaves live.node = live.node) ∧
        (ends.leaves live.node).holdTime = 900 ∧ (ends.leaves live.node).zoneGroup = none) ∧
      (let s := live.setStr 7 { StringCtl.reset with state := .held };
        s.Asked (from5 2) ∧ s.MayChange (from5 2) 2 (7 : StringNo).val ∧ (s.str 7).state = .held) ∧
      (none3s.pairs = [] ∧ { none3s with timeout := some 51, enabled := some false }.pairs.reverse =
          [(2, .number 51), (1, .flag false)] ∧ { none3s with timeout := some 51 }.Adjusted ∧
        { none3s with pollPeriod := some 249 }.Adjusted ∧ ¬{ none3s with timeout := some 2, pollPeriod := some 5000 }.Adjusted) ∧
      live.WriteAccess (from5 0).origin 13 (7 : Fin 8).val ∧
      ({ none10 with table := some none }.pairs = [(1, .absent)] ∧ { none10 with table := some (some 16) }.Refused Region.reset ∧
        ¬{ none10 with table := some (some 15) }.Refused Region.reset ∧ ¬{ none10 with table := some none }.Refused Region.reset ∧
        { none10 with first := some 1 }.Refused Region.reset ∧ ¬{ none10 with first := some 65536, last := some 65535 }.Refused Region.reset ∧
        ¬none10.Refused Region.reset) ∧
      (let s : State := { live with regions := live.regions.set 7 { Region.reset with lock := true } };
        s.Asked (from5 0) ∧ (s.regions[(7 : Fin 8)]).lock = true) := by
  refine ⟨⟨asked 0 (by decide) rfl rfl (by decide), asked 2 (by decide) rfl rfl (by decide), ⟨rfl, rfl⟩, writes, changes,
      by decide, asked 1 (by decide) rfl rfl (by decide), writes⟩,
    ⟨by decide, List.reverse_perm _, by decide, ⟨1, 901, 10, 900, by decide, by decide, by decide⟩, ?_, by decide, by decide, by decide⟩,
    ⟨asked 2 (by decide) rfl rfl (by decide), changes, by decide +kernel⟩, ⟨by decide, by decide, ?_, ?_, ?_⟩, writes,
    ⟨by decide, ?_, ?_, ?_, ?_, ?_, ?_⟩, asked 0 (by decide) rfl rfl (by decide), by decide +kernel⟩
  · rintro ⟨f, v, lo, hi, h, -⟩
    rw [show none22.pairs = [] by decide] at h
    cases h
  all_goals simp [StringWrite.Adjusted, RegionWrite.Refused, RegionWrite.leaves, Region.reset]

/-- A slot that fills the large grid, with the last source and condition. -/
def fullSlot : RawSlot :=
  { column := 0, row := 0, width := 40, height := 16, size := 3, emphasis := true, source := 21, argument := 8, language := 4,
    condition := 15, polarity := 1 }

/-- Display 9 at node 0 with a list of five destinations, and a cabin: destination 1 absent, 2 PENDING, 3 SETTLED at the display's own
node, 4 SETTLED and UNREACHABLE, 6 SETTLED along segment 0; muster station 3. -/
def composing : State :=
  { withDisplay { display .cabin 4 with cfg := { config .cabin 4 with list := some 0 } } with
    nodes := [(0, 4), (5, 5)]
    segments := [(0, segment 0 5 .corridor 300 0 none)]
    lists := [(0, [1, 2, 3, 4, 6])]
    cabins := [(17, { cabin with language := some 2 })]
    dests :=
      [(2, destination .exit .pending 0 []), (3, { destination .musterStation .settled 0 [] with targets := [0] }),
       (4, destination .exit .settled 1 [(5, { effort := some 0, length := 0, hop := none })]),
       (6, destination .exit .settled 2
         [(0, cell 300 300 0 false), (5, { effort := some 0, length := 0, hop := none })])] }

/-- The state above with a lobby and an item whose venue is destination 3, a reported loss of it, a notice, and template 16 in use. -/
def tabled : State :=
  { composing with
    ship := { composing.ship with valid := true }
    displays := (8, display .lobby 2) :: composing.displays
    programme := [{ id := 1, day := 0, start := 60, duration := 30, venue := some 3, category := 0, deck := 0, title := 7, status := .running }]
    lossReported := [(3, 2)]
    notices := [(63, { Notice.created with current := true })]
    templates := [(16, { grid := .small, slots := [], timeDependent := false })]
    selection := [(25, 16)] }

/-- A WRITE of no field to a present entry of each of the five tables, by CONTENT where it may. -/
theorem witness_RequestAnswered_empty :
    tabled.Asked (from5 1) ∧ tabled.Asked (from5 2) ∧ tabled.ship.phase = .normal ∧
      ((tabled.display 9).isSome = true ∧ (∃ e ∈ tabled.programme, e.id = 1) ∧ (Tab.fetch tabled.cabins 17).isSome = true ∧
        (Tab.fetch tabled.notices 63).isSome = true ∧ (Tab.fetch tabled.templates 16).isSome = true) ∧
      (∀ p ∈ [(1, 9), (11, 16)], tabled.WriteAccess (from5 2).origin p.1 p.2 ∧ p.2 < tableRanges.getD p.1 0) ∧
      ∀ p ∈ [(7, 1), (8, 17), (9, 63)], tabled.WriteAccess (from5 1).origin p.1 p.2 ∧ p.2 < tableRanges.getD p.1 0 ∧
        (Request.write p.1 p.2 []).bytes.length ≤ 1024 := by
  have none : ∀ t i (n : Fin 8), ¬(tabled.regions[n]).Matches t i := free
  refine ⟨asked 1 (by decide) rfl rfl (by decide), asked 2 (by decide) rfl rfl (by decide), rfl, by decide +kernel, ?_, ?_⟩
  · intro p hp
    simp only [List.mem_cons, List.not_mem_nil, or_false] at hp
    rcases hp with rfl | rfl <;> exact ⟨⟨by decide, by decide, by decide, Or.inl ⟨none _ _, by decide⟩⟩, by decide⟩
  · intro p hp
    simp only [List.mem_cons, List.not_mem_nil, or_false] at hp
    rcases hp with rfl | rfl | rfl <;> exact ⟨⟨by decide, by decide, by decide, Or.inl ⟨none _ _, by decide⟩⟩, by decide, by decide⟩

/-- Texts of 40, 41 and 255 characters; a selection entry that a display uses and one that none does; a new template of twelve slots, a
present one given one slot that is clamped and clipped, the grid alone, no slot, thirteen, or one with its polarity too high. -/
theorem witness_ComposerStores :
    (live.Asked (from5 1) ∧ 4095 < 4096 ∧ live.WriteAccess (from5 1).origin 10 4095 ∧
      (List.replicate 255 65).length ≤ 255 ∧ ¬40 < (List.replicate 40 65).length ∧ 40 < (List.replicate 41 65).length) ∧
      (let s := withDisplay (display .liftLanding 1);
        s.TablesOk ∧ s.Asked (from5 2) ∧ 35 < 36 ∧ s.MayChange (from5 2) 12 35 ∧
          s.display 9 = some (display .liftLanding 1) ∧
          (config .liftLanding 1).cls.code * 6 + (s.screenMode (config .liftLanding 1)).code ≠ 35 ∧
          (config .liftLanding 1).cls.code * 6 + (s.screenMode (config .liftLanding 1)).code < 36) ∧
      (live.TablesOk ∧ 63 < 64 ∧ live.MayChange (from5 2) 11 63 ∧ (opened 11 63).MayChange (from5 1) 11 63 ∧ Tab.fetch live.templates 63 = none ∧
        1 ≤ (List.replicate 12 fullSlot).length ∧ (List.replicate 12 fullSlot).length ≤ 12 ∧
        ∀ x ∈ List.replicate 12 fullSlot, ¬SlotRefused x) ∧
      (∃ t, Tab.fetch tabled.templates 16 = some t ∧ tabled.TablesOk ∧ tabled.MayChange (from5 0) 11 16 ∧
        (some Grid.large).getD t.grid = .large ∧ (none : Option Grid).getD t.grid = .small) ∧
      (let x : RawSlot := { fullSlot with column := 255, width := 0, size := 4, argument := 1024, source := 0 };
        ¬SlotRefused x ∧ SlotAdjusted x (slotTaken x .small .text .standDown)) ∧
      12 < (List.replicate 13 fullSlot).length ∧ (List.replicate 80 fullSlot).length ≤ 80 ∧
      SlotRefused { fullSlot with polarity := 2 } :=
  ⟨⟨asked 1 (by decide) rfl rfl (by decide), by decide, writes, by decide +kernel, by decide, by decide⟩,
    ⟨by constructor <;> (simp only [Tab.Rising]; decide), asked 2 (by decide) rfl rfl (by decide), by decide, changes,
      by decide, by decide +kernel, by decide +kernel⟩,
    ⟨tables_live, by decide, changes, changes, rfl, by decide, by decide, by decide⟩,
    ⟨_, rfl, by constructor <;> (simp only [Tab.Rising]; decide), changes, rfl, rfl⟩,
    ⟨by decide, Or.inr (Or.inl (by decide))⟩, by decide, by decide, by decide⟩

/-- Node 255 absent and node 5 present; segment 1023 absent and segment 5 present, each with every refusal and without: a kind and a
direction past their lists, an end that is absent or past 255, equal ends, a stair that would lead down. -/
theorem witness_WalkingGraph :
    let none9 : SegmentWrite :=
      { a := none, b := none, kind := none, length := none, heading := none, direction := none, closure := none, musterOnly := none,
        enabled := none };
    let four : SegmentWrite := { none9 with a := some 5, b := some 0, kind := some 0, length := some 4096 };
    (graph []).Asked (from5 2) ∧
      (255 < 256 ∧ (graph []).MayChange (from5 2) 3 255 ∧ Tab.fetch (graph []).nodes 255 = none) ∧
      ((graph []).MayChange (from5 2) 3 5 ∧ (Tab.fetch (graph []).nodes 5).isSome = true) ∧
      (1023 < 1024 ∧ (graph []).MayChange (from5 2) 4 1023 ∧ Tab.fetch (graph []).segments 1023 = none ∧ (graph []).MayChange (from5 2) 4 5 ∧
        Tab.fetch (graph []).segments 5 = some (segment 4 5 .corridor 200 0 none)) ∧
      (four.pairs.reverse.Perm four.pairs ∧ four.pairs.reverse ≠ [] ∧ { none9 with closure := some (some 128) }.pairs ≠ [] ∧
        { none9 with musterOnly := some true }.Adjusted = { none9 with enabled := some false }.Adjusted) ∧
      (({ none9 with kind := some 4 } : SegmentWrite).ValueRefused ∧ ({ none9 with direction := some 2 } : SegmentWrite).ValueRefused ∧
        ¬four.ValueRefused ∧ ¬({ none9 with direction := some 1 } : SegmentWrite).ValueRefused) ∧
      (({ none9 with a := some 256 } : SegmentWrite).EndRefused (graph []) ∧
        ({ none9 with b := some 255 } : SegmentWrite).EndRefused (graph []) ∧ ¬four.EndRefused (graph [])) ∧
      (({ none9 with a := some 5 } : SegmentWrite).ShapeRefused (graph []) (segment 4 5 .corridor 200 0 none) ∧
        ({ four with kind := some 1 } : SegmentWrite).ShapeRefused (graph []) (segment 4 5 .corridor 200 0 none) ∧
        ¬four.ShapeRefused (graph []) (segment 4 5 .corridor 200 0 none) ∧
        ¬({ none9 with kind := some 1 } : SegmentWrite).ShapeRefused (graph []) (segment 4 5 .corridor 200 0 none)) ∧
      four.Adjusted := by
  refine ⟨asked 2 (by decide) rfl rfl (by decide), ⟨by decide, changes, by decide⟩, ⟨changes, by decide⟩,
    ⟨by decide, changes, by decide, changes, by decide⟩, ⟨List.reverse_perm _, by decide, by decide, by simp [SegmentWrite.Adjusted]⟩, ?_, ?_, ?_, ?_⟩ <;>
    simp [SegmentWrite.ValueRefused, SegmentWrite.EndRefused, SegmentWrite.ShapeRefused, SegmentWrite.leaves, SegmentWrite.Adjusted,
      SegmentKind.ofCode, segment, graph, Tab.fetch]

/-- No field of DESTINATIONS. -/
def none3 : DestWrite := { name := none, kind := none, targets := none }

/-- A creation at the last index and a present destination; each field alone, none at all, each refusal; the last list. -/
theorem witness_DestinationsAndLists :
    let s := graph [];
    let made : DestWrite := { name := some (some 1024), kind := some 3, targets := some [0, 1, 2, 5] };
    s.Asked (from5 2) ∧
      (31 < 32 ∧ s.MayChange (from5 2) 5 31 ∧ Tab.fetch s.dests 31 = none ∧ made.kind ≠ none ∧ made.targets ≠ none) ∧
      (s.MayChange (from5 2) 5 3 ∧ (Tab.fetch s.dests 3).isSome = true) ∧
      (made.pairs.reverse.Perm made.pairs ∧ none3.pairs = [] ∧ { none3 with name := some none }.pairs = [(1, .absent)] ∧
        ∀ ns, made.targets = some ns → ns.length ≤ 255) ∧
      ((∀ w ∈ [{ none3 with kind := some 4 }, { none3 with targets := some [] }, { none3 with targets := some [0, 1, 2, 3, 4] },
          { none3 with targets := some [1, 1] }], w.ValueRefused) ∧ ¬made.ValueRefused ∧ ¬none3.ValueRefused) ∧
      (({ none3 with targets := some [6] } : DestWrite).TargetRefused s ∧ ({ none3 with targets := some [256] } : DestWrite).TargetRefused s ∧
        ¬made.TargetRefused s ∧ ¬none3.TargetRefused s) ∧
      (63 < 64 ∧ s.WriteAccess (from5 2).origin 6 63 ∧ ([31, 31, 31, 31, 31, 31, 31, 31].length ≤ 8 ∧ ∀ n ∈ [31], n ≤ 31) ∧
        ¬(∀ n ∈ [32], n ≤ 31)) ∧
      (let u := withDisplay { display .lobby 1 with cfg := { config .lobby 1 with list := some 63 } };
        u.TablesOk ∧ ∃ x, u.display 9 = some x ∧ x.cfg.list = some 63) := by
  refine ⟨asked 2 (by decide) rfl rfl (by decide), ⟨by decide, changes, by decide⟩, ⟨changes, by decide⟩,
    ⟨List.reverse_perm _, by decide, by decide, ?_⟩, ?_, ?_, ⟨by decide, writes, by decide⟩,
    ⟨by constructor <;> (simp only [Tab.Rising]; decide), ⟨_, rfl, rfl⟩⟩⟩ <;>
    simp [none3, DestWrite.ValueRefused, DestWrite.TargetRefused, graph, Tab.fetch]

/-- No field of PROGRAMME. -/
def none8 : ProgrammeWrite :=
  { day := none, start := none, duration := none, venue := none, category := none, deck := none, title := none, status := none }

/-- A creation with some fields at the ends of their ranges, and at 256 entries; an entry of each status; each refusal. -/
theorem witness_WriteProgramme :
    let made : ProgrammeWrite := { none8 with day := some 256, start := some 0, title := some 1023, venue := some (some 31) };
    (live.Asked (from5 1) ∧ 65535 < 65536 ∧ live.WriteAccess (from5 1).origin 7 65535 ∧
      findEntry 65535 live.programme = none ∧ live.programme.length < 256 ∧ made.day ≠ none ∧ made.start ≠ none ∧
      made.title ≠ none) ∧
      (let s : State := { live with programme := (List.range 256).map entry };
        findEntry 65535 s.programme = none ∧ 256 ≤ s.programme.length) ∧
      (∀ st ∈ [EntryStatus.scheduled, .running, .ended, .cancelled],
        let e := { entry 0 with status := st };
        findEntry 1 ({ live with programme := [e] } : State).programme = some e) ∧
      (made.pairs.reverse.Perm made.pairs ∧ made.pairs.reverse ≠ [] ∧ made.Adjusted ∧
        ¬({ none8 with duration := some 720, venue := some none, category := some 15 } : ProgrammeWrite).Adjusted) ∧
      ((∀ v ∈ [1, 2, 4], ({ none8 with status := some v } : ProgrammeWrite).StatusRefused) ∧
        (∀ v ∈ [0, 3], ¬({ none8 with status := some v } : ProgrammeWrite).StatusRefused) ∧ ¬made.StatusRefused) ∧
      (({ none8 with status := some 3 } : ProgrammeWrite).Closed { entry 0 with status := .ended } ∧
        ({ none8 with status := some 0 } : ProgrammeWrite).Closed { entry 0 with status := .cancelled } ∧
        ¬({ none8 with status := some 3 } : ProgrammeWrite).Closed { entry 0 with status := .cancelled } ∧
        ¬({ none8 with title := some 1 } : ProgrammeWrite).Closed { entry 0 with status := .ended } ∧
        ¬({ none8 with status := some 3 } : ProgrammeWrite).Closed (entry 0)) ∧
      (({ none8 with title := some 1 } : ProgrammeWrite).leaves (entry 0)).clocked none ≠ entry 0 ∧
      (({ none8 with status := some 0 } : ProgrammeWrite).leaves (entry 0)).clocked none = entry 0 ∧
      (DisplayClass.lobby.isBoard = true ∧ inWindow (config .lobby 1) (some 0) (entry 0) = true) := by
  refine ⟨⟨asked 1 (by decide) rfl rfl (by decide), by decide, writes, rfl, by decide, by decide, by decide, by decide⟩,
    by decide +kernel, by decide, ⟨List.reverse_perm _, by decide, ?_, ?_⟩, ?_, ?_, by decide, by decide, by decide +kernel⟩ <;>
    simp [none8, ProgrammeWrite.Adjusted, ProgrammeWrite.StatusRefused, ProgrammeWrite.Closed, entry]

/-- Notice 63 absent, and present with a priority and a scope given; an end at the start and one after it; a notice without bounds,
which is current. -/
theorem witness_WriteNotice :
    let none6 : NoticeWrite := { priority := none, classMask := none, deckMask := none, text := none, start := none, stop := none };
    let made : NoticeWrite := { none6 with priority := some 16, text := some 1023 };
    let shown : NoticeWrite := { none6 with classMask := some 64 };
    let s : State := { withDisplay (display .lobby 1) with notices := [(63, { Notice.created with current := true })] };
    (live.Asked (from5 1) ∧ 63 < 64 ∧ live.WriteAccess (from5 1).origin 9 63 ∧
        Tab.fetch live.notices 63 = none) ∧
      (s.Asked (from5 1) ∧ s.WriteAccess (from5 1).origin 9 63 ∧ Tab.fetch s.notices 63 = some { Notice.created with current := true } ∧
        s.display 9 = some (display .lobby 1)) ∧
      (made.pairs.reverse.Perm made.pairs ∧ made.pairs.reverse ≠ [] ∧ shown.pairs ≠ [] ∧ made.priority ≠ none ∧ made.text ≠ none) ∧
      (({ made with start := some (some 5), stop := some (some 5) } : NoticeWrite).leaves 1 Notice.created).BoundsRefused ∧
      ¬(({ made with start := some (some 5), stop := some (some 6) } : NoticeWrite).leaves 1 Notice.created).BoundsRefused ∧
      ¬(shown.leaves 1 Notice.created).BoundsRefused ∧ made.Adjusted 1 ∧ ¬({ made with priority := some 11 }).Adjusted 1 ∧
      s.CurrentNow (shown.leaves 1 Notice.created) ∧ ¬s.CurrentNow { Notice.created with start := some 0 } ∧
      ({ Notice.created with current := true } : Notice).CountsFor s.ship.phase (config .lobby 1) := by
  refine ⟨⟨asked 1 (by decide) rfl rfl (by decide), by decide, writes, rfl⟩,
    ⟨asked 1 (by decide) rfl rfl (by decide), writes, by decide, by decide⟩, ⟨List.reverse_perm _, by decide, by decide, by decide, by decide⟩,
    ?_, ?_, ?_, ?_, ?_, ?_, ?_, by decide, ⟨by decide, fun h => absurd h (by decide)⟩, by decide⟩ <;>
    simp [Notice.BoundsRefused, NoticeWrite.leaves, Notice.created, NoticeWrite.Adjusted, priorityLimit, originContent, State.CurrentNow,
      withDisplay, live, State.reset, State.powerOn, Ship.reset]

/-- No field of DISPLAYS. -/
def none13 : DisplayWrite :=
  { string := none, position := none, cls := none, deck := none, node := none, facing := none, language := none, list := none
    categoryMask := none, deckMask := none, horizon := none, dayStep := none, nightStep := none }

/-- A creation at the last index with fields at the ends of their ranges, a value that is refused, and a place that is taken. -/
theorem witness_DisplayCreated :
    let s := withDisplay (display .lobby 1);
    let made : DisplayWrite :=
      { none13 with string := some 7, position := some 63, cls := some 5, node := some 255, list := some (some 63), dayStep := some 16 };
    (s.Asked (from5 0) ∧ 511 < 512 ∧ s.MayChange (from5 0) 1 511 ∧ s.display 511 = none) ∧
      (made.pairs.reverse.Perm made.pairs ∧ made.string ≠ none ∧ made.position ≠ none ∧ made.cls ≠ none ∧ made.node ≠ none) ∧
      (({ made with cls := some 6 } : DisplayWrite).ValueRefused ∧ ({ made with node := some 256 } : DisplayWrite).ValueRefused ∧
        ¬made.ValueRefused) ∧
      (s.PlaceTaken 511 (({ made with string := some 1, position := some 0 } : DisplayWrite).leaves DisplayConfig.created) ∧
        ¬s.PlaceTaken 511 (made.leaves DisplayConfig.created)) ∧
      (made.Adjusted ∧ ¬({ made with dayStep := some 15, list := some none } : DisplayWrite).Adjusted) ∧
      DisplayConfig.created = { DisplayConfig.created with
        deck := 0, facing := 0, language := 0, list := none, categoryMask := 0xFFFF#16, deckMask := 0xFFFF#16, horizon := 180
        dayStep := 12, nightStep := 4 } := by
  refine ⟨⟨asked 0 (by decide) rfl rfl (by decide), by decide, changes, by decide⟩,
    ⟨List.reverse_perm _, by decide, by decide, by decide, by decide⟩, ?_, ⟨?_, ?_⟩, ?_, rfl⟩
  · simp [DisplayWrite.ValueRefused]
  · exact ⟨_, List.mem_singleton.2 rfl, by decide, by decide, by decide⟩
  · rintro ⟨e, he, -, h, -⟩
    rw [List.mem_singleton.1 he] at h
    exact absurd h (by decide)
  · simp [none13, DisplayWrite.Adjusted]

/-- Display 9 of string 1 in an update state, with display 8 at position 2. -/
def twoDisplays (u : UpdateState) : State :=
  { live with displays := [(8, displayIn .cabin 2 .faulted), (9, displayIn .cabin 1 u)] }

/-- FAULTED; QUEUED; OPEN in a poll; CLEAN. Position 2 of the string is taken and position 63 is free, and so is its place on string 7;
a class and a node above the last; a placement change and none; the steps alone, and no change at all. -/
theorem witness_DisplayChanged :
    let moved : DisplayWrite := { none13 with string := some 8, list := some none };
    ((twoDisplays .faulted).Asked (from5 2) ∧ 9 < 512 ∧ (twoDisplays .faulted).MayChange (from5 2) 1 9 ∧
      (twoDisplays .faulted).display 9 = some (displayIn .cabin 1 .faulted) ∧
      (twoDisplays .faulted).TablesOk ∧ (twoDisplays .faulted).StringsOk) ∧
      (let s := (twoDisplays (.queued .routine)).setStr 1
          { StringCtl.reset with routine := [{ display := 9, stamp := 0 }], counter := 1 };
        s.StringsOk ∧ s.display 9 = some (displayIn .cabin 1 (.queued .routine))) ∧
      (let s := (twoDisplays .opened).setStr 1
          { StringCtl.reset with state := .opened, txn := some (txn .poll .poll 1 none) };
        s.StringsOk ∧ s.display 9 = some (displayIn .cabin 1 .opened)) ∧
      ((twoDisplays .clean).StringsOk ∧ (twoDisplays .clean).display 9 = some (displayIn .cabin 1 .clean)) ∧
      (moved.pairs.reverse.Perm moved.pairs ∧ moved.pairs.reverse ≠ [] ∧ moved.leaves (config .cabin 1) = { config .cabin 1 with string := 7 }) ∧
      (({ none13 with cls := some 6 } : DisplayWrite).ValueRefused ∧ ({ none13 with node := some 256 } : DisplayWrite).ValueRefused ∧
        ¬moved.ValueRefused ∧ ¬({ none13 with cls := some 5, node := some 255 } : DisplayWrite).ValueRefused) ∧
      ((twoDisplays .faulted).PlaceTaken 9 { config .cabin 1 with position := 2 } ∧
        ¬(twoDisplays .faulted).PlaceTaken 9 { config .cabin 1 with position := 63 } ∧
        ¬(twoDisplays .faulted).PlaceTaken 9 { config .cabin 1 with string := 7 }) ∧
      ((config .cabin 1).Moved { config .cabin 1 with string := 7 } ∧ ¬(config .cabin 1).Moved { config .cabin 1 with node := 255 }) ∧
      (({ none13 with string := some 1, dayStep := some 12 } : DisplayWrite).leaves (config .cabin 1) = config .cabin 1 ∧
        ({ none13 with nightStep := some 16 } : DisplayWrite).leaves (config .cabin 1) = { config .cabin 1 with nightStep := 15 }) := by
  have free : ∀ c : DisplayConfig, ¬(c.string = 1 ∧ c.position = 2) → ¬(twoDisplays .faulted).PlaceTaken 9 c := by
    rintro c hc ⟨e, he, h9, h1, h2⟩
    simp only [twoDisplays, List.mem_cons, List.not_mem_nil, or_false] at he
    rcases he with rfl | rfl
    · exact hc ⟨h1.symm, h2.symm⟩
    · exact h9 rfl
  refine ⟨⟨asked 2 (by decide) rfl rfl (by decide), by decide, changes, by decide,
    by constructor <;> (simp only [Tab.Rising]; decide), strings_ok _ (by decide +kernel) (by decide +kernel) (by decide +kernel)
    (by decide +kernel) (by decide +kernel)⟩, ⟨strings_ok _ (by decide +kernel) (by decide +kernel) (by decide +kernel)
    (by decide +kernel) (by decide +kernel), by decide⟩, ⟨strings_ok _ (by decide +kernel)
    (by decide +kernel) (by decide +kernel) (by decide +kernel) (by decide +kernel), by decide⟩, ⟨strings_ok _ (by decide +kernel)
    (by decide +kernel) (by decide +kernel) (by decide +kernel) (by decide +kernel), by decide⟩, ⟨List.reverse_perm _, by decide, by decide⟩,
    ?_, ⟨⟨_, List.mem_cons_self, by decide, by decide, by decide⟩, free _ (by decide), free _ (by decide)⟩, by decide, by decide⟩
  simp [none13, DisplayWrite.ValueRefused]

/-- An OCCUPIED cabin beside another, given a number, a station, a display, a vacancy; a display that is absent or of another class, a
number and a display that another cabin has; an absent entry; and the phase that bars all but the BRIDGE. -/
theorem witness_CabinWritten :
    let none7 : CabinWrite :=
      { number := none, display := none, station := none, group := none, occupancy := none, language := none, greeting := none };
    let made : CabinWrite := { none7 with number := some 65535, display := some 9, station := some (some 32) };
    let s : State := { withDisplay (display .cabin 4) with cabins := [(17, cabin), (383, { cabin with number := 1, display := 8 })] };
    (s.Asked (from5 1) ∧ 17 < 384 ∧ s.WriteAccess (from5 1).origin 8 17 ∧
        Tab.fetch s.cabins 17 = some cabin ∧ s.ship.phase = .normal) ∧
      (live.Asked (from5 1) ∧ live.WriteAccess (from5 1).origin 8 383 ∧ Tab.fetch live.cabins 383 = none ∧ made.number ≠ none ∧
        made.display ≠ none) ∧
      ((inPhase s .muster).Asked (from5 1) ∧ (inPhase s .muster).ship.phase = .muster ∧ (from5 1).origin ≠ originBridge) ∧
      (made.pairs.reverse.Perm made.pairs ∧ made.pairs.reverse ≠ [] ∧ made.Adjusted) ∧
      (∀ w ∈ [{ none7 with number := some 0 }, { none7 with number := some 65536 }, { none7 with occupancy := some 2 },
          { none7 with group := some (some 64) }, { none7 with group := some (some 91) }], w.ValueRefused) ∧
      (¬made.ValueRefused ∧ ¬({ none7 with group := some (some 90), occupancy := some 0 } : CabinWrite).ValueRefused) ∧
      (({ none7 with display := some 8 } : CabinWrite).DisplayRefused s ∧ made.DisplayRefused (withDisplay (display .lobby 4)) ∧
        ¬made.DisplayRefused s) ∧
      (made.Leaves cabin { cabin with number := 65535, station := some 31 } ∧
        ({ none7 with occupancy := some 0 } : CabinWrite).Leaves cabin { cabin with occupied := false, dnd := false, mur := false } ∧
        ({ none7 with occupancy := some 0 } : CabinWrite).Vacates cabin) ∧
      ((∃ e ∈ s.cabins, e.1 ≠ 17 ∧ (e.2.number = 1 ∨ e.2.display = 9)) ∧
        ∀ e ∈ s.cabins, e.1 ≠ 17 → e.2.number ≠ 65535 ∧ e.2.display ≠ 9) ∧
      (({ cabin with number := 65535, station := some 31 } : Cabin).MovesFrom (some cabin) ∧ cabin.MovesFrom none ∧
        ¬({ cabin with number := 65535 } : Cabin).MovesFrom (some cabin) ∧ cabin.Names (some { cabin with display := 8 }) 8) := by
  refine ⟨⟨asked 1 (by decide) rfl rfl (by decide), by decide, writes, by decide, rfl⟩,
    ⟨asked 1 (by decide) rfl rfl (by decide), writes, rfl, by decide, by decide⟩, ⟨asked 1 (by decide) rfl rfl (by decide), rfl, by decide⟩,
    ⟨List.reverse_perm _, by decide, ?_⟩, ?_, ?_, ?_, ⟨⟨?_, ?_, ?_⟩, ⟨?_, ?_, ?_⟩, ?_⟩, by decide, ?_⟩ <;>
    simp [CabinWrite.Adjusted, CabinWrite.ValueRefused, CabinWrite.DisplayRefused, CabinWrite.Vacates, Cabin.MovesFrom, Cabin.Names, cabin,
      withDisplay, display, config, State.display, Tab.fetch]

/-- Asked; display 511 absent and display 9 present; without a node address; and by an all-cast frame that is not forwarded. -/
theorem witness_Queries :
    (live.Asked (from5 3) ∧ 511 < 512 ∧ live.ReadAccess (from5 3).origin 1 511 ∧ live.display 511 = none ∧
      (withDisplay (display .cabin 1)).display 9 = some (display .cabin 1)) ∧ State.reset.address = none ∧
      (live.address ≠ some (toAll 7).dest ∧ live.Receives (toAll 7) ∧ live.ConcernedBy (toAll 7).dest ∧ (toAll 7).hop = 0) :=
  ⟨⟨asked 3 (by decide) rfl rfl (by decide), by decide, reads, rfl, by decide⟩, by decide, by decide, ⟨rfl, by decide⟩,
    Or.inr (Or.inr rfl), rfl⟩

/-- The last index of each table, and a present entry where the table has such. -/
theorem witness_ReadAnswers :
    let s : State := { graph [] with
      displays := [(511, display .cabin 1)], programme := [entry 0, entry 1], cabins := [(383, cabin)]
      notices := [(63, Notice.created)] };
    s.Asked (from5 3) ∧
      (∀ p ∈ [(0, 0), (1, 511), (2, 7), (3, 255), (4, 1023), (5, 31), (6, 63), (7, 65535), (8, 383), (9, 63), (10, 4095), (11, 63),
          (12, 35), (13, 7), (14, 127), (15, 8191)], p.2 < tableRanges.getD p.1 0 ∧ s.ReadAccess (from5 1).origin p.1 p.2) ∧
      (s.display 511 = some (display .cabin 1) ∧ s.display 0 = none ∧ Tab.fetch s.segments 5 ≠ none ∧
        Tab.fetch s.segments 1023 = none ∧ Tab.fetch s.dests 3 ≠ none ∧ Tab.fetch s.dests 31 = none ∧
        Tab.fetch s.cabins 383 ≠ none ∧ Tab.fetch s.cabins 0 = none ∧ Tab.fetch s.notices 63 ≠ none ∧
        Tab.fetch s.notices 0 = none ∧ s.template 15 ≠ none ∧ s.template 16 = none) ∧
      (findEntry 65535 s.programme = none ∧ s.programme = [] ++ entry 0 :: [entry 1] ∧ (entry 0).id = 1) ∧
      35 = DisplayClass.liftLanding.code * 6 + 5 ∧ (31 < 32 ∧ 255 < 256 ∧ 31 * 256 + 255 = 8191) ∧
      fixedTable.map (·.1) = [0, 1, 2, 3, 4, 5, 6, 7, 10, 12, 13, 14, 15] :=
  ⟨asked 3 (by decide) rfl rfl (by decide), fun p hp => ⟨by revert p; decide, reads (by revert p; decide)⟩, by decide +kernel, by decide,
    by decide, by decide, by decide⟩

/-- An absent entry of each table at its last index, and a present one of each; a display whose list shows the destination, which has
a reported count or none. -/
theorem witness_ClearEntry :
    let s : State := { graph [] with
      displays := [(511, { display .cabin 1 with cfg := { config .cabin 1 with list := some 63 } })], lists := [(63, [3])]
      programme := [entry 0], cabins := [(383, { cabin with display := 511 })], notices := [(63, Notice.created)]
      templates := [(63, { grid := .small, slots := [], timeDependent := false })] };
    (s.Asked (from5 0) ∧ s.Asked (from5 2) ∧ s.Asked (from5 1) ∧ s.TablesOk) ∧
      (live.Asked (from5 0) ∧ live.TablesOk ∧
        (∀ p ∈ [(1, 511), (3, 255), (4, 1023), (5, 31), (7, 300), (8, 383), (9, 63), (11, 63)],
          p.2 < tableRanges.getD p.1 0 ∧ (p.1 = 7 → 1 ≤ p.2) ∧ live.MayClear (from5 0) p.1 p.2 ∧ live.AbsentAt p.1 p.2)) ∧
      (∀ p ∈ [(0, 0), (1, 511), (5, 3), (6, 63), (7, 1), (8, 383), (9, 63), (10, 4095), (11, 63), (12, 35)],
        s.MayClear (from5 2) p.1 p.2 ∧ s.entryExists p.1 p.2 = true) ∧
      (∀ p ∈ [(7, 1), (8, 383), (9, 63), (10, 4095)], s.MayClear (from5 1) p.1 p.2) ∧
      (∃ x, s.display 511 = some x ∧ x.rt.state ≠ .opened ∧ x.cfg.list = some 63 ∧ s.RoutePosition 511 x 0 3) ∧
      (Tab.fetchD s.lossReported 3 0 = 0 ∧ Tab.fetchD ({ s with lossReported := [(3, 2)] } : State).lossReported 3 0 ≠ 0) ∧
      (displayIn .cabin 1 .opened).rt.state = .opened ∧ (destination .musterStation .settled 0 []).kind = .musterStation ∧
      (findEntry 1 s.programme = some (entry 0) ∧ inWindow (config .lobby 1) (some 0) (entry 0) = true) ∧
      cabin.station ≠ none ∧ (s.display 511).isSome = true ∧ Notice.created.InScope (config .lobby 1) := by
  refine ⟨⟨asked 0 (by decide) rfl rfl (by decide), asked 2 (by decide) rfl rfl (by decide), asked 1 (by decide) rfl rfl (by decide),
      by constructor <;> (simp only [Tab.Rising]; decide)⟩,
    ⟨asked 0 (by decide) rfl rfl (by decide), tables_live,
      fun p hp => ⟨by revert p; decide, by revert p; decide, clears (by revert p; decide) (by revert p; decide),
        by revert p; simp [State.AbsentAt, live, State.reset, State.powerOn, State.display]⟩⟩,
    fun p hp => ⟨clears (by revert p; decide) (by revert p; decide), by revert p; decide +kernel⟩,
    fun p hp => clears (by revert p; decide) (by revert p; decide),
    ⟨_, rfl, by decide, rfl, Or.inl ⟨by decide, 63, rfl, rfl⟩⟩, by decide, by decide, by decide, by decide +kernel, by decide, by decide, by decide⟩

/-- Each table, with entries and what its clear reaches; each refusal. -/
theorem witness_ClearTable :
    (graph []).Asked (from5 0) ∧ (from5 0).origin ≠ originController ∧
      (∀ t ≤ 13, ∀ i, (graph []).ClearReaches t i → (graph []).MayClear (from5 0) t i) ∧
      (tabled.Asked (from5 1) ∧ ∀ i, tabled.ClearReaches 10 i → tabled.MayClear (from5 1) 10 i) ∧
      ((graph []).nodes ≠ [] ∧ (graph []).segments ≠ []) ∧
      (∃ e ∈ (withDisplay (displayIn .lobby 1 .opened)).displays, e.2.rt.state = .opened) ∧
      (∀ e ∈ (withDisplay (display .lobby 1)).displays, e.2.rt.state ≠ .opened) ∧ (live.str 7).state ≠ .held ∧
      (∀ k, (({ live with strings := Vector.replicate 8 { StringCtl.reset with state := .held } } : State).str k).state = .held) ∧
      ((({ live with regions := live.regions.set 7 { Region.reset with lock := true } } : State).regions[(7 : Fin 8)]).lock = true) ∧
      (∀ j : Fin 8, (live.regions[j]).lock = false) ∧
      ((twoDisplays .faulted).TablesOk ∧ (twoDisplays .faulted).StringsOk) ∧
      (tabled.Asked (from5 0) ∧ (∀ t ≤ 13, ∀ i, tabled.ClearReaches t i → tabled.MayClear (from5 0) t i) ∧ tabled.TablesOk ∧
        tabled.ProgrammeOk) ∧
      ∃ x y, tabled.display 8 = some y ∧ tabled.display 9 = some x ∧
        ((∃ n, tabled.RoutePosition 9 x 8 n ∧ (Tab.fetch tabled.dests n).isSome = true) ∧ tabled.RoutePosition 9 x 0 1 ∧
          Tab.fetch tabled.dests 1 = none ∧ (∃ f ∈ tabled.itemList y.cfg, f.venue = some 3)) ∧
        ((∃ l < 64, x.cfg.list = some l) ∧ ¬∃ l < 64, y.cfg.list = some l) ∧
        (y.cfg.cls.isBoard = true ∧ ∃ e ∈ tabled.programme, inWindow y.cfg tabled.nowMinute e = true) ∧
        (∃ e ∈ tabled.cabins, e.2.display = 9) ∧
        (∃ n, Tab.fetch tabled.notices 63 = some n ∧ n.current = true ∧ n.AboveFloor tabled.ship.phase ∧ n.InScope x.cfg) ∧
        (Tab.fetch tabled.templates (tabled.templateInUse x.cfg.cls (tabled.screenMode x.cfg))).isSome = true :=
  ⟨asked 0 (by decide) rfl rfl (by decide), by decide, fun _ ht => cleared rfl ht,
    ⟨asked 1 (by decide) rfl rfl (by decide), fun _ _ => ⟨by_default rfl (by decide) (fun h => absurd h (by decide)) (by decide), fun h => absurd h (by decide)⟩⟩, by decide, by decide, by decide, by decide, by decide +kernel,
    by decide +kernel, by decide +kernel,
    ⟨by constructor <;> (simp only [Tab.Rising]; decide), strings_ok _ (by decide +kernel) (by decide +kernel) (by decide +kernel)
      (by decide +kernel) (by decide +kernel)⟩,
    ⟨asked 0 (by decide) rfl rfl (by decide), fun _ ht => cleared (s := tabled) rfl ht, by constructor <;> (simp only [Tab.Rising]; decide),
      by decide, by decide, by decide, by decide⟩,
    _, _, rfl, rfl, ⟨⟨3, Or.inr ⟨rfl, rfl, 17, _, rfl, rfl⟩, rfl⟩, Or.inl ⟨by decide, 0, rfl, rfl⟩, rfl, by decide⟩,
    ⟨⟨0, by decide, rfl⟩, by simp [display, config]⟩, ⟨rfl, by decide⟩, by decide, ⟨_, rfl, rfl, ⟨by decide, by decide⟩, by decide⟩,
    by decide +kernel⟩

/-- Each target kind, and a step that changes the brightness; targets and codes that are refused, by an origin that may write and in
ALERT; a RETRY_DISPLAY of an absent display and of a FAULTED one. -/
theorem witness_StepsAndRetry :
    (let s := withDisplay (display .liftLanding 1);
      s.Asked (from5 0) ∧ (from5 0).origin ≠ originController ∧ (∀ d x, s.display d = some x → s.WriteAccess (from5 0).origin 1 d) ∧ 7 ≤ 7 ∧
        (9 < 512 ∧ (s.display 9).isSome = true) ∧ 5 ≤ 5 ∧
        ((after (.adjustSteps (from5 0) 2 0 0) s).brightness { config .liftLanding 1 with dayStep := 13 } ≠
          s.brightness (config .liftLanding 1))) ∧
      ((from5 1).origin ≠ originController ∧ live.Asked (from5 1) ∧ 3 ≤ 3 ∧ 5 < 6 ∧ (0 = 0 ∧ 511 < 512) ∧ 7 < 8 ∧
        live.display 511 = none) ∧
      (let s := withDisplay (display .liftLanding 1);
        s.ship.phase = .normal ∧ s.display 9 = some (display .liftLanding 1) ∧ s.WriteAccess (from5 2).origin 1 9 ∧
          (inPhase s .alert).Asked (from5 0) ∧ (inPhase s .alert).ship.phase = .alert ∧ (from5 0).origin = originBridge) ∧
      (live.Asked (from5 2) ∧ 511 < 512 ∧ live.WriteAccess (from5 2).origin 1 511 ∧ live.display 511 = none) ∧
      (withDisplay (displayIn .lobby 1 .faulted)).display 9 = some (displayIn .lobby 1 .faulted) :=
  ⟨⟨asked 0 (by decide) rfl rfl (by decide), by decide, fun _ _ _ => by_default rfl (by decide) (fun h => absurd h (by decide)) (Or.inl rfl),
      by decide, by decide, by decide, by decide +kernel⟩,
    ⟨by decide, asked 1 (by decide) rfl rfl (by decide), by decide, by decide, by decide, by decide, rfl⟩,
    ⟨rfl, by decide, written (o := 2) (t := 1) (i := 9) (by decide) (by decide) (by decide) (Or.inr (Or.inl rfl)),
      asked 0 (by decide) rfl rfl (by decide), rfl, rfl⟩,
    ⟨asked 2 (by decide) rfl rfl (by decide), by decide, writes, rfl⟩, by decide⟩

/-- Asked in NORMAL and in MUSTER; a change of phase into ALERT and one out of it. -/
theorem witness_HoldAndFree :
    (live.Asked (from5 0) ∧ live.Asked (from5 2) ∧ (inPhase live .muster).Asked (from5 2) ∧
      live.WriteAccess (from5 0).origin 2 (7 : StringNo).val ∧ (inPhase live .muster).WriteAccess (from5 2).origin 2 (7 : StringNo).val) ∧
      (let i := Instr.phaseBulletin (toAll 7) 1 false;
        (∀ straps, i ≠ .powerOnReset straps) ∧ exec i live = .next (after i live) ∧
          (after i live).ship.phase ≠ live.ship.phase ∧ (after i live).ship.phase = .alert) ∧
      (let i := Instr.phaseBulletin (toAll 7) 3 false;
        let s := inPhase live .alert;
        exec i s = .next (after i s) ∧ (after i s).ship.phase = .standDown ∧ s.ship.phase ≠ .standDown) :=
  ⟨⟨asked 0 (by decide) rfl rfl (by decide), asked 2 (by decide) rfl rfl (by decide), asked 2 (by decide) rfl rfl (by decide), writes, writes⟩,
    ⟨fun _ h => (by cases h), exec_after _ _, by decide +kernel, by decide +kernel⟩, exec_after _ _, by decide +kernel, by decide⟩

/-- A dispatch and a poll in flight are cut short in a table in canonical form. -/
theorem witness_Restart :
    ((∀ o ∈ [0, 1, 2, 3], live.Asked (from5 o)) ∧ live.ship.phase = .normal ∧ (inPhase live .standDown).Asked (from5 0) ∧
      (inPhase live .standDown).ship.phase ≠ .normal) ∧
      (∀ h ∈ [0, 63],
        let a := { from5 2 with dest := 255, hop := h };
        live.Receives a ∧ live.address ≠ some a.dest ∧ live.ConcernedBy a.dest ∧ a.origin = originMaintenance ∧
          (live.port a.port.other).up = true) ∧
      (∀ k ∈ [TxnKind.poll, .probe], (flying (txn k .select 1 none)).Asked (from5 0) ∧
        (flying (txn k .select 1 none)).ship.phase = .normal ∧ (flying (txn k .select 1 none)).TablesOk ∧
        ((flying (txn k .select 1 none)).str 1).txn = some (txn k .select 1 none)) := by
  refine ⟨⟨fun o h => asked o (by simp at h; omega) rfl rfl (by decide), rfl, asked 0 (by decide) rfl rfl (by decide), by decide⟩,
    fun _ _ => ⟨⟨rfl, fun h => absurd h.1 (show 2 ≠ 3 by decide)⟩, show some 5 ≠ some 255 by decide, Or.inr (Or.inr rfl), rfl, rfl⟩,
    fun k hk => ?_⟩
  simp only [List.mem_cons, List.not_mem_nil, or_false] at hk
  rcases hk with rfl | rfl <;>
    exact ⟨asked 0 (by decide) rfl rfl (by decide), rfl, by constructor <;> (simp only [Tab.Rising]; decide), rfl⟩

/-- Each level of an idle UP port, and the port with nothing to send. -/
theorem witness_TransmitOrder :
    (live.aft.up = true ∧ live.aft.sending = none ∧ live.aft.queue = []) ∧
      ([passing 1 1, passing 0 2].find? (fun g => g.origin == originBridge) = some (passing 0 2)) ∧
      (∀ f ∈ [passing 1 1], f.origin ≠ originBridge) ∧
      (let r : Reply := { port := .aft, dest := 1, seq := 0, body := [] };
        [r].find? (fun q => q.port == .aft) = some r ∧ ∀ q ∈ [r], q.port ≠ .fore) ∧
      live.node.reportPort = .fore ∧
      (let s := live.setPort .fore { upPort with up := false };
        s.node.reportPort = Port.aft.other ∧ (s.port Port.aft.other).up = false) := by decide +kernel

/-- A dispatch offered from each queue, a poll, a probe, and nothing. -/
theorem witness_SelectionOrder :
    (((withDisplay (display .lobby 1)).mark 9 .safety).TablesOk ∧
      ((withDisplay (display .lobby 1)).mark 9 .safety).offer 1 = some (.dispatch 9 .safety 0)) ∧
      ((withDisplay (display .lobby 1)).mark 9 .service).offer 1 = some (.dispatch 9 .service 0) ∧
      ((withDisplay (display .lobby 1)).mark 9 .routine).offer 1 = some (.dispatch 9 .routine 0) ∧
      (withDisplay (display .cabin 1)).offer 1 = some (.poll 9) ∧
      (withDisplay (displayIn .cabin 1 .faulted)).offer 1 = some (.probe 9) ∧
      (live.TablesOk ∧ (live.str 1).state = .idle ∧ (live.str 1).enabled = true ∧ live.offer 1 = none ∧
        live.quietCopy = false) :=
  ⟨⟨by constructor <;> (simp only [Tab.Rising]; decide +kernel), by decide +kernel⟩, by decide +kernel, by decide +kernel,
    by decide +kernel, by decide +kernel, tables_live, by decide +kernel⟩

/-- A dispatch offered, with no delivered digest and with the one of the screen it would be sent; a poll of a CLEAN and of a QUEUED
display; a probe. -/
theorem witness_Takes :
    (let s := (withDisplay (display .lobby 1)).mark 9 .routine;
      let x := displayIn .lobby 1 (.queued .routine);
      s.offer 1 = some (.dispatch 9 .routine 0) ∧ s.display 9 = some x ∧ x.cfg.string = 1 ∧ x.rt.state = .queued .routine ∧
        x.rt.digest ≠ some (digest (s.record 9 x))) ∧
      (let x0 := display .lobby 1;
        let x1 : Display := { x0 with rt := { x0.rt with digest := some (digest ((withDisplay x0).record 9 x0)) } };
        let s := (withDisplay x1).mark 9 .safety;
        let x : Display := { x1 with rt := { x1.rt with state := .queued .safety } };
        s.offer 1 = some (.dispatch 9 .safety 0) ∧ s.display 9 = some x ∧ x.cfg.string = 1 ∧ x.rt.state = .queued .safety ∧
          x.rt.digest = some (digest (s.record 9 x))) ∧
      (let s := withDisplay (display .cabin 63);
        s.display 9 = some (display .cabin 63) ∧ (config .cabin 63).string = 1 ∧ s.offer 1 = some (.poll 9) ∧
          (display .cabin 63).rt.state = .clean) ∧
      (let s0 := (withDisplay (display .cabin 63)).mark 9 .safety;
        let s := s0.setStr 1 { s0.str 1 with run := 4 };
        s.display 9 = some (displayIn .cabin 63 (.queued .safety)) ∧ s.offer 1 = some (.poll 9) ∧
          ((s.str 1).queue .safety).find? (fun e => e.display == 9) = some { display := 9, stamp := 0 }) ∧
      (let s := withDisplay (displayIn .cabin 63 .faulted);
        s.display 9 = some (displayIn .cabin 63 .faulted) ∧ s.offer 1 = some (.probe 9) ∧
          (displayIn .cabin 63 .faulted).rt.state = .faulted) := by
  refine ⟨?_, ⟨by decide +kernel, rfl, rfl, rfl, congrArg (fun r => some (digest r)) rfl⟩, by decide +kernel, by decide +kernel,
    by decide +kernel⟩
  exact ⟨by decide +kernel, by decide +kernel, rfl, rfl, by decide +kernel⟩

/-- Each case of a position's value, at list positions 0 and 4 and at position 8; a linked cabin and none; the template in use on the
display's own grid and, by SELECTION, on the other one; a slot that shows, one that does not, an active notice and an item; a valid clock and none; a template by SELECTION; an entry at the
horizon, one beyond it, one CANCELLED and one ENDED. -/
theorem witness_Composition :
    (∃ x, composing.display 9 = some x ∧ x.cfg.node = 0 ∧
      (composing.RoutePosition 9 x 0 1 ∧ Tab.fetch composing.dests 1 = none) ∧
      (composing.RoutePosition 9 x 1 2 ∧ ∃ e, Tab.fetch composing.dests 2 = some e ∧ e.status ≠ .settled) ∧
      (composing.RoutePosition 9 x 8 3 ∧ ∃ e, Tab.fetch composing.dests 3 = some e ∧ e.status = .settled ∧ 0 ∈ e.targets) ∧
      (composing.RoutePosition 9 x 3 4 ∧ ∃ e, Tab.fetch composing.dests 4 = some e ∧ e.status = .settled ∧ 0 ∉ e.targets ∧
        (cellAt e.cells 0).effort = none) ∧
      (composing.RoutePosition 9 x 4 6 ∧ ∃ e, Tab.fetch composing.dests 6 = some e ∧ e.status = .settled ∧ 0 ∉ e.targets ∧
        (cellAt e.cells 0).effort = some 300 ∧ (cellAt e.cells 0).hop = some { segment := 0, back := false } ∧
        Tab.fetch composing.segments 0 = some (segment 0 5 .corridor 300 0 none)) ∧
      (∃ c, composing.LinkedTo 9 x c ∧ c.language.getD x.cfg.language = 2 ∧ 1 ≤ c.number ∧ c.number ≤ 65535) ∧
      (∀ c, ¬({ composing with cabins := [] } : State).LinkedTo 9 x c) ∧
      ((fixedTemplate (composing.templateInUse .cabin .normal)).map (·.grid) = some DisplayClass.cabin.grid) ∧
      (let s : State := { composing with selection := [(24, 0)] };
        (fixedTemplate (s.templateInUse .cabin .normal)).map (·.grid) ≠ some DisplayClass.cabin.grid) ∧
      (composing.Meets 9 x .occupied ↔ true = true) ∧ ¬(composing.Meets 9 x .linkLost ↔ true = true) ∧
      ∀ n, ¬composing.Active x.cfg n) ∧
    (∃ n, tabled.Active (config .cabin 4) n) ∧ (∃ e, (tabled.itemList (config .lobby 2))[0]? = some e ∧ e.venue = some 3) ∧
    (tabled.ship.valid = true ∧ composing.ship.valid = false ∧ tabled.templateInUse .cabin .notice = 16) ∧
    ({ entry 180 with day := 1 }.InWindow (config .lobby 2) 1440 ∧ ¬{ entry 181 with day := 1 }.InWindow (config .lobby 2) 1440 ∧
      { entry 0 with status := .cancelled }.InWindow (config .lobby 2) 90 ∧
      ¬{ entry 0 with status := .ended }.InWindow (config .lobby 2) 90) :=
  ⟨⟨_, rfl, rfl, ⟨Or.inl ⟨by decide, 0, rfl, rfl⟩, rfl⟩, ⟨Or.inl ⟨by decide, 0, rfl, rfl⟩, _, rfl, by decide⟩,
    ⟨Or.inr ⟨rfl, rfl, 17, _, rfl, rfl⟩, _, rfl, rfl, by decide⟩, ⟨Or.inl ⟨by decide, 0, rfl, rfl⟩, _, rfl, rfl, by decide, rfl⟩,
    ⟨Or.inl ⟨by decide, 0, rfl, rfl⟩, _, rfl, rfl, by decide, rfl, rfl, rfl⟩,
    ⟨_, ⟨rfl, 17, rfl⟩, rfl, by decide, by decide⟩, (by rintro c ⟨-, i, h⟩; cases h), rfl, by decide,
    ⟨fun _ => rfl, fun _ => ⟨_, ⟨rfl, 17, rfl⟩, rfl⟩⟩, fun h => Bool.noConfusion (h.2 rfl : false = true),
    (by rintro n ⟨-, -, -, i, pre, post, h, -⟩; cases pre <;> cases h)⟩,
    ⟨_, rfl, ⟨by decide, by decide⟩, by decide, 63, [], [], rfl, by simp, by simp⟩, ⟨_, rfl, rfl⟩,
    by decide +kernel, by decide⟩

/-- A dispatch in flight at each step, its display stale and not. -/
theorem witness_DispatchReplies :
    (∀ p ∈ [TxnStep.select, .screen, .commit],
      let t := txn (.dispatch [1] 5#16) p 1 (some (.safety, 0));
      ((flying t).str 1).txn = some t ∧ t.kind = .dispatch [1] 5#16 ∧
        (flying t).display t.display = some (displayIn .cabin 4 .opened) ∧ t.step = p ∧
        (displayIn .cabin 4 .opened).cfg.string = 1) ∧
      5 ≠ DisplayClass.cabin.code ∧ stateBack (some (.safety, 0)) none = .queued .safety ∧
      (let t := txn (.dispatch [1] 5#16) .select 1 (some (.service, 0));
        let x : Display := { displayIn .cabin 4 .opened with rt := { DisplayRuntime.fresh with state := .opened, stale := some .safety } };
        let s := { flying t with displays := [(9, x)] };
        (s.str 1).txn = some t ∧ s.display t.display = some x ∧ x.rt.stale = some .safety ∧
          stateBack t.place x.rt.stale = .queued .safety) := by decide +kernel

/-- A reply that the awaiting step does not expect rejects its try. -/
theorem rejected {t : Txn} (k : StringNo) (r : StringReply) {i : Instr} (h : r.command k t.tag = some i) (he : ¬t.step.Expects r)
    (hn : ∀ cs, r ≠ .events cs) : t.Rejects k i := Or.inl ⟨r, h, he, fun cs h => absurd h (hn cs)⟩

/-- Rejected by NAK, by a READY that COMMIT does not expect, by an ACK that POLL does not expect, and by code 200; at tries 1 and 2; at try 3 of a dispatch and of a poll with each number of failures counted. -/
theorem witness_TriesFail :
    ((txn .poll .poll 1 none).Rejects 1 (.nak 1 6) ∧ (txn (.dispatch [1] 5#16) .commit 1 none).Rejects 1 (.ready 1 6 4) ∧
      (txn .poll .poll 1 none).Rejects 1 (.ack 1 6) ∧
      (txn .poll .poll 1 none).Rejects 1 (.stringReplyDiscard 1 (stringBytes 6 200 [0, 0]))) ∧
      (∀ n ∈ [1, 2], ((flying (txn .poll .poll n none)).str 1).txn = some (txn .poll .poll n none) ∧ n < 3) ∧
      (∀ p ∈ [(TxnKind.dispatch [1] 5#16, TxnStep.commit), (.poll, .poll)], ∀ n ∈ [0, 1, 2],
        let t := txn p.1 p.2 3 none;
        let x : Display := { displayIn .cabin 4 .opened with rt := { DisplayRuntime.fresh with state := .opened, failures := n } };
        let s := { flying t with displays := [(9, x)] };
        (s.str 1).txn = some t ∧ t.tries = 3 ∧ t.kind ≠ .probe ∧ s.display t.display = some x ∧ x.rt.failures = n) ∧
      (let t := fun k p => txn k p 1 none;
        (flying (t .probe .select)).Message (t .probe .select) 1 [4] ∧
          (flying (t (.dispatch [1] 5#16) .screen)).Message (t (.dispatch [1] 5#16) .screen) 2 [1] ∧
          (flying (t (.dispatch [1] 5#16) .commit)).Message (t (.dispatch [1] 5#16) .commit) 3 [] ∧
          (flying (t .poll .poll)).Message (t .poll .poll) 5 [4]) :=
  ⟨⟨rejected _ .nak rfl id nofun, rejected _ (.ready 4) rfl id nofun, rejected _ .ack rfl id nofun,
      Or.inr ⟨200, [0, 0], by decide, by decide, by decide, by decide, nofun, rfl⟩⟩, by decide +kernel, by decide +kernel,
    Or.inl ⟨rfl, rfl, _, rfl, rfl⟩, Or.inr (Or.inl ⟨rfl, rfl, _, rfl⟩), Or.inr (Or.inr (Or.inl ⟨rfl, rfl, rfl⟩)),
    Or.inr (Or.inr (Or.inr ⟨rfl, rfl, _, rfl, rfl⟩))⟩

/-- A probe in flight at its first try and at its third; a REFRESH that SELECT does not expect. -/
theorem witness_ProbeOutcomes :
    (∀ n ∈ [1, 3],
      let t := txn .probe .select n none;
      ((flying t).str 1).txn = some t ∧ t.kind = .probe ∧ t.step = .select ∧ t.tries = n ∧
        (flying t).display t.display = some (displayIn .cabin 4 .opened) ∧
        (displayIn .cabin 4 .opened).rt.state = .opened) ∧ 3 ≠ (config .cabin 4).cls.code ∧
      (txn .probe .select 3 none).Rejects 1 (.refresh 1 6 0) :=
  ⟨by decide +kernel, by decide, rejected _ (.refresh 0) rfl id nofun⟩

/-- With no cabin, with unknown buttons, and with the cabin in each pair of phases; OCCUPIED and VACANT. -/
theorem witness_EventsTaken :
    let t := txn .poll .poll 1 none;
    let s := flying t;
    ((s.str 1).txn = some t ∧ t.kind = .poll ∧ t.step = .poll ∧ s.display t.display = some (displayIn .cabin 4 .opened) ∧
      [0, 1, 2, 255].length ≤ 4) ∧
      ({ s with cabins := [] } : State).cabinNaming t.display = none ∧ (∀ b ∈ [3, 255], 3 ≤ b) ∧
      (s.cabinNaming t.display = some (17, cabin) ∧ Tab.fetch s.cabins 17 = some cabin) ∧
      ((inPhase s .alert).ship.phase = .alert ∧ ∃ b ∈ [2], b < 3) ∧
      (s.ship.phase = .normal ∧ cabin.occupied = true ∧ ({ cabin with occupied := false } : Cabin).occupied = false) := by
  decide +kernel

/-- A reply under another tag, and one while none is awaited; a wrong CRC, a payload length too long and too short for each code, and a
wrong count of EVENTS. -/
theorem witness_ReplyNotAwaited :
    (∀ t, ((flying (txn .poll .poll 1 none)).str 1).txn = some t → t.tag ≠ 5) ∧ (∀ t, (live.str 1).txn = some t → t.tag ≠ 5) ∧
      StringReply.ack.command 1 5 = some (.ack 1 5) ∧ (live.str 1).txn = none ∧
      (stringBytes 9 133 [7, 8] = [9, 133, 0, 2, 7, 8, 49, 138] ∧ 9 < 256 ∧ 133 < 256 ∧ [7#8, 8#8].length < 65536) ∧
      (let bs : List Byte := [9, 133, 0, 2, 7, 8, 49, 139];
        crcBytes (bs.take (bs.length - 2)) ≠ bs.drop (bs.length - 2)) ∧
      (∀ p ∈ [(129, 0), (130, 1), (131, 1), (132, 65535), (133, 3), (1, 2), (3, 1)], ∃ m, payloadLength p.1 = some m ∧ p.2 ≠ m) ∧
      ((∀ (e : Byte) (es : List Byte), ([] : List Byte) = e :: es → ¬(e.toNat = es.length ∧ es.length ≤ 4)) ∧
        ∀ (e : Byte) (es : List Byte), [2#8, 0#8] = e :: es → ¬(e.toNat = es.length ∧ es.length ≤ 4)) ∧
      4 < [0, 0, 0, 0, 0].length := by
  refine ⟨fun t h => ?_, fun t h => ?_, rfl, by decide +kernel, by decide +kernel, by decide +kernel, ?_, ⟨nofun, ?_⟩, by decide⟩
  · cases h
    decide
  · cases h
  · simp [payloadLength]
  · intro e es h
    cases h
    decide

theorem witness_Deadlines :
    let x : Display := { display .cabin 4 with rt := { DisplayRuntime.fresh with lastCommit := some 50, lastPoll := some 20 } };
    let y : Display := { display .cabin 4 with rt := { DisplayRuntime.fresh with state := .faulted, lastFail := some 0 } };
    ((withDisplay x).display 9 = some x ∧ x.rt.lastCommit = some 50 ∧ x.rt.lastPoll = some 20 ∧ x.cfg.cls = .cabin ∧
      x.rt.state ≠ .faulted ∧ x.rt.fault = none) ∧
      ((withDisplay y).display 9 = some y ∧ y.rt.lastFail = some 0 ∧ y.rt.state = .faulted) := by decide

/-- Destinations 3 and 4 with the statuses given. -/
def destState (a b : DestStatus) : State :=
  { live with dests := [(3, destination .exit a 0 []), (4, destination .musterStation b 0 [])] }

theorem tables_dests (a b : DestStatus) : (destState a b).TablesOk := by
  constructor <;> simp [destState, destination, live, State.reset, State.powerOn, Ship.reset, Tab.Rising]

/-- One SOLVING; none to take; a SUSPENDED one before a PENDING one; in ALERT a PENDING muster station first. -/
theorem witness_SolverTake :
    ((destState .solving .pending).TablesOk ∧ ∃ e ∈ (destState .solving .pending).dests, e.2.status = .solving) ∧
      ((destState .settled .settled).TablesOk ∧
        ∀ e ∈ (destState .settled .settled).dests, solverRank .normal e.2 = none) ∧
      (let s := inPhase (destState .suspended .pending) .alert;
        s.TablesOk ∧ Tab.fetch s.dests 4 = some (destination .musterStation .pending 0 []) ∧
          solverRank s.ship.phase (destination .musterStation .pending 0 []) = some 0 ∧
          (∀ e ∈ s.dests, e.2.status ≠ .solving) ∧
          ∀ e ∈ s.dests, ∀ q, solverRank s.ship.phase e.2 = some q → 0 < q ∨ (0 = q ∧ 4 ≤ e.1)) ∧
      (let s := destState .suspended .pending;
        s.TablesOk ∧ Tab.fetch s.dests 3 = some (destination .exit .suspended 0 []) ∧
          solverRank s.ship.phase (destination .exit .suspended 0 []) = some 1 ∧
          ∀ e ∈ s.dests, ∀ q, solverRank s.ship.phase e.2 = some q → 1 < q ∨ (1 = q ∧ 3 ≤ e.1)) := by
  have ht := tables_dests .suspended .pending
  refine ⟨⟨tables_dests _ _, by decide⟩, ⟨tables_dests _ _, by decide⟩,
    ⟨⟨ht.closures, ht.displays, ht.nodes, ht.segments, ht.dests, ht.lists, ht.cabins, ht.lossReported, ht.notices,
      ht.templates, ht.selection, ht.texts⟩, by decide, by decide, by decide, ?_⟩, ht, by decide, by decide, ?_⟩
  · intro e he q hq
    simp only [inPhase, destState, List.mem_cons, List.not_mem_nil, or_false] at he
    rcases he with rfl | rfl <;> simp [solverRank, destination, inPhase] at hq <;> subst hq <;> decide
  · intro e he q hq
    simp only [destState, List.mem_cons, List.not_mem_nil, or_false] at he
    rcases he with rfl | rfl <;> simp [solverRank, destination, destState, live, State.reset, State.powerOn, Ship.reset] at hq <;>
      subst hq <;> decide

/-- The worked solve: a sweep that changes cells and the last one, with a cabin display whose muster station is the destination. -/
theorem witness_SweepEnd :
    let s := graph [(3, cell 300 300 3 false), (4, cell 200 200 5 false), (5, { effort := some 0, length := 0, hop := none })];
    let u := { graph [(5, { effort := some 0, length := 0, hop := none })] with
      segments := [], displays := [(9, display .cabin 4)], cabins := [(17, cabin)] };
    (s.TablesOk ∧ (∃ t, Tab.fetch s.dests 3 = some t ∧ t.status = .solving ∧
        ∃ swept n, s.Swept (traversals s.segments) (cellAt t.cells) swept n ∧ n ≠ 0) ∧
      ∀ e ∈ s.dests, e.2.status = .solving → e.1 = 3) ∧
      (∃ t, Tab.fetch u.dests 3 = some t ∧ t.status = .solving ∧
        (∃ swept, u.Swept (traversals u.segments) (cellAt t.cells) swept 0) ∧ t.kind = .musterStation) ∧
      (∃ x, u.display 9 = some x ∧ u.RoutePosition 9 x 8 3) ∧ u.lossAt 3 [(5, { effort := some 0, length := 0, hop := none })] = 1 := by
  refine ⟨⟨?_, ⟨_, rfl, rfl, ?_⟩, by decide⟩, ⟨_, rfl, rfl, ⟨_, .done _⟩, rfl⟩,
    ⟨_, rfl, Or.inr ⟨rfl, rfl, 17, _, rfl, rfl⟩⟩, by decide +kernel⟩
  on_goal 2 =>
    obtain ⟨n, h, hn⟩ := State.sweep_swept _ _
    exact ⟨_, n, h, hn.1 (by decide +kernel)⟩
  constructor <;> (simp only [Tab.Rising]; decide)

/-- A state with a transaction, a QUEUED display, reports, replies, cabins, a programme and a locked region, and a step from it. -/
def busy : State :=
  ({ live with
    displays := [(8, displayIn .lobby 5 (.queued .service)), (9, displayIn .cabin 4 .opened)]
    cabins := [(17, { cabin with dnd := true })]
    reports := [{ kind := .assist, subject := 1, value := 0, stamp := live.stamp, arrival := 1 },
      { kind := .dndChange, subject := 1, value := 0, stamp := live.stamp, arrival := 0 }]
    reportArrival := 2
    replies := [{ port := .aft, dest := 1, seq := 0, body := [] }]
    programme := [entry 0, { entry 1 with status := .cancelled }]
    regions := live.regions.set 7 { Region.reset with lock := true } } : State).setStr 1
    { StringCtl.reset with
      state := .opened, txn := some (txn .poll .poll 1 (some (.routine, 4))), tag := 7, counter := 6
      service := [{ display := 8, stamp := 5 }] }

theorem witness_QueuesKept : busy.ReportsOk ∧ busy.LinkOk ∧ ∃ t, step busy = .next t :=
  ⟨⟨by decide, by show List.Pairwise reportBefore [_, _]; simp [reportBefore, ReportKind.cls], by decide, by decide⟩, ⟨by decide, by decide, by decide⟩,
    step_next _⟩

theorem witness_PhaseKept :
    (lineState true true .alert true).PhaseOk ∧ (lineState true true .alert true).QuietOk ∧
      (∃ t, step (lineState true true .alert true) = .next t) ∧ busy.CabinsOk ∧ (∃ t, step busy = .next t) ∧
      (let s : State := { live with
        node := { live.node with quietStart := 1320, quietEnd := 360 }
        ship := { live.ship with valid := true, minute := 359, quiet := true } };
        s.QuietInForce ∧ ∃ t, step s = .next t) :=
  ⟨by constructor <;> simp [lineState, live, State.reset, State.powerOn, Ship.reset], rfl, step_next _,
    by unfold State.CabinsOk; decide, step_next _, by unfold State.QuietInForce NodeParams.QuietMinute; decide +kernel,
    step_next _⟩

theorem witness_ProgrammeKept :
    busy.ProgrammeOk ∧ (∃ t, step busy = .next t) ∧ ∃ e ∈ busy.programme, e.status = .ended ∨ e.status = .cancelled :=
  ⟨⟨by decide, by decide, by decide, by decide⟩, step_next _, by decide⟩

/-- ALERT with a corridor from node 0 to node 5: destination 3 SETTLED, muster station 4 SOLVING after one sweep, destination 6
SUSPENDED before its first. -/
def solving : State :=
  { inPhase live .alert with
    nodes := [(0, 4), (5, 5)]
    segments := [(0, segment 0 5 .corridor 300 0 none)]
    dests :=
      [(3, destination .exit .settled 2 [(0, cell 300 300 0 false), (5, { effort := some 0, length := 0, hop := none })]),
       (4, destination .musterStation .solving 1
         [(0, cell 300 300 0 false), (5, { effort := some 0, length := 0, hop := none })]),
       (6, destination .exit .suspended 0 [(5, { effort := some 0, length := 0, hop := none })])] }

theorem solving_dests {d : Nat} {x : Dest} (h : Tab.fetch solving.dests d = some x) :
    d = 3 ∧ x.status = .settled ∧ x.kind = .exit ∧ x.sweeps = 2 ∧ x.targets = [5] ∧
        x.cells = [(0, cell 300 300 0 false), (5, { effort := some 0, length := 0, hop := none })] ∨
      d = 4 ∧ x.status = .solving ∧ x.kind = .musterStation ∧ x.sweeps = 1 ∧ x.targets = [5] ∧
        x.cells = [(0, cell 300 300 0 false), (5, { effort := some 0, length := 0, hop := none })] ∨
      d = 6 ∧ x.status = .suspended ∧ x.kind = .exit ∧ x.sweeps = 0 ∧ x.targets = [5] ∧
        x.cells = [(5, { effort := some 0, length := 0, hop := none })] := by
  have hm := Tab.mem_of_fetch h
  simp only [solving, List.mem_cons, List.not_mem_nil, or_false, Prod.mk.injEq] at hm
  rcases hm with ⟨rfl, rfl⟩ | ⟨rfl, rfl⟩ | ⟨rfl, rfl⟩ <;> simp [destination]

theorem solving_offers : solving.Offers { segment := 0, back := false } 0 5 300 300 :=
  ⟨_, rfl, (solving.passable_iff _).1 (by decide +kernel), by decide, rfl, rfl, rfl, by decide +kernel⟩

theorem solving_offered {h : Hop} {u v c l : Nat} (ho : solving.Offers h u v c l) :
    c = 300 ∧ (u = 0 ∧ v = 5 ∨ u = 5 ∧ v = 0) := by
  obtain ⟨g, hg, -, -, hu, hv, -, hc⟩ := ho
  have hm := Tab.mem_of_fetch hg
  simp only [solving, List.mem_cons, List.not_mem_nil, or_false, Prod.mk.injEq] at hm
  obtain ⟨-, rfl⟩ := hm
  have hw : ∀ b, solving.node.walkEffort (segment 0 5 .corridor 300 0 none) b = 300 := by decide
  rw [hw] at hc
  simp only [segment] at hu hv
  cases h.back <;> simp_all

theorem solving_path {k n w : Nat} (hk : k ≤ 1) (h : solving.Reaches [5] k n w) :
    (k = 0 ∧ n = 5 ∧ w = 0) ∨ (k = 1 ∧ n = 0 ∧ w = 300) := by
  obtain rfl | rfl := Nat.le_one_iff_eq_zero_or_eq_one.1 hk
  · simp only [State.Reaches, List.mem_singleton] at h
    exact Or.inl ⟨rfl, h⟩
  · simp only [State.Reaches, List.mem_singleton] at h
    obtain ⟨_, v, c, l, w', ho, ⟨hv, hw'⟩, hw⟩ := h
    have := solving_offered ho
    omega

theorem solving_ok : solving.SolverOk := by
  have far : ∀ n, n ≠ 0 → n ≠ 5 → ∀ c : Cell,
      cellAt [(0, c), (5, { effort := some 0, length := 0, hop := none })] n = unlistedCell := by
    intro n h0 h5 c
    simp [cellAt, Tab.fetchD, Tab.fetch, Ne.symm h0, Ne.symm h5]
  refine ⟨?_, ?_, ?_, ?_, ?_, ?_, by decide, ?_, ?_, ?_⟩
  · intro d e x y hx hy h1 h2
    have h3 := solving_dests hx
    have h4 := solving_dests hy
    simp_all
  · intro d e x y hx hy h1 h2
    have h3 := solving_dests hx
    have h4 := solving_dests hy
    simp_all
  · intro d x hx h
    have h3 := solving_dests hx
    simp_all
    exact Or.inl rfl
  · intro d e x y hx hy h1 h2
    have h3 := solving_dests hx
    have h4 := solving_dests hy
    simp_all
  · intro d x hx h
    rcases solving_dests hx with ⟨-, hs, -⟩ | ⟨-, -, -, -, ht, hc⟩ | ⟨-, -, -, -, ht, hc⟩
    · simp [hs] at h
    · refine ⟨?_, ?_, ?_⟩
      · rw [ht, hc]
        decide
      · rw [ht, hc]
        intro n e hn he
        by_cases h0 : n = 0
        · subst h0
          cases he
          exact ⟨by decide, by decide, _, 5, 300, 300, 0, rfl, solving_offers, rfl, Or.inl ⟨rfl, by decide⟩⟩
        · rw [far n h0 (by simpa using hn)] at he
          cases he
      · rw [ht, hc]
        intro n hn he
        by_cases h0 : n = 0
        · subst h0
          cases he
        · rw [far n h0 (by simpa using hn)]
          rfl
    · have far' : ∀ n, n ≠ 5 → cellAt [(5, ({ effort := some 0, length := 0, hop := none } : Cell))] n = unlistedCell := by
        intro n h5
        simp [cellAt, Tab.fetchD, Tab.fetch, Ne.symm h5]
      refine ⟨?_, ?_, ?_⟩
      · rw [ht, hc]
        decide
      · rw [ht, hc]
        intro n e hn he
        rw [far' n (by simpa using hn)] at he
        cases he
      · rw [ht, hc]
        intro n hn _
        rw [far' n (by simpa using hn)]
        rfl
  · intro d x hx h
    rcases solving_dests hx with ⟨-, -, -, -, ht, hc⟩ | ⟨-, hs, -⟩ | ⟨-, hs, -⟩
    · refine ⟨?_, ?_, ?_⟩
      · rw [ht, hc]
        decide
      · rw [ht, hc]
        intro n e hn he
        by_cases h0 : n = 0
        · subst h0
          cases he
          exact ⟨by decide, by decide, _, 5, 300, 300, 0, rfl, solving_offers, rfl, rfl, by decide⟩
        · rw [far n h0 (by simpa using hn)] at he
          cases he
      · rw [hc]
        intro hp u v c l ev ho hev _
        obtain ⟨rfl, ⟨rfl, rfl⟩ | ⟨rfl, rfl⟩⟩ := solving_offered ho
        · cases hev
          exact ⟨300, rfl, by decide⟩
        · exact ⟨0, rfl, Nat.zero_le _⟩
    · simp [hs] at h
    · simp [hs] at h
  · intro d x hx h k hk n w hr _
    rcases solving_dests hx with ⟨-, hs, -⟩ | ⟨-, -, -, hk', ht, hc⟩ | ⟨-, -, -, hk', ht, hc⟩
    · simp [hs] at h
    · rw [ht] at hr
      rw [hc]
      rcases solving_path (by omega) hr with ⟨-, rfl, rfl⟩ | ⟨-, rfl, rfl⟩
      · exact ⟨0, rfl, by decide⟩
      · exact ⟨300, rfl, by decide⟩
    · rw [ht] at hr
      rw [hc]
      rcases solving_path (by omega) hr with ⟨-, rfl, rfl⟩ | ⟨rfl, -, -⟩
      · exact ⟨0, rfl, by decide⟩
      · omega
  · intro d x hx h
    have h3 := solving_dests hx
    rcases h3 with ⟨-, -, -, h, -⟩ | ⟨-, -, -, h, -⟩ | ⟨-, -, -, h, -⟩ <;> rw [h] <;> decide
  · intro d x hx h
    have h3 := solving_dests hx
    rcases h3 with ⟨-, -, -, h, -⟩ | ⟨-, -, -, h, -⟩ | ⟨-, -, -, h, -⟩ <;> rw [h] <;> decide

theorem witness_SolverKept : solving.TablesOk ∧ solving.SolverOk ∧ ∃ t, step solving = .next t :=
  ⟨by constructor <;> (simp only [Tab.Rising]; decide), solving_ok, step_next _⟩

theorem witness_StringsKept : busy.TablesOk ∧ busy.StringsOk ∧ ∃ t, step busy = .next t :=
  ⟨by constructor <;> (simp only [Tab.Rising]; decide), strings_ok _ (by decide +kernel) (by decide +kernel) (by decide +kernel)
    (by decide +kernel) (by decide +kernel), step_next _⟩

theorem witness_TablesKept : live.TablesOk ∧ ∃ t, step live = .next t := ⟨tables_live, step_next _⟩

theorem witness_LockedRegionKept :
    busy.lockedAt 7 { Region.reset with lock := true } ∧ (∃ t, step busy = .next t) ∧
      ∀ straps rest, busy.pending ≠ .powerOnReset straps :: rest :=
  ⟨⟨by decide +kernel, rfl⟩, step_next _, by intro a b h; cases h⟩

end Sys2Proof.Tests
end

section
/-! SUPPORT. What arrives with a bulletin whatever its kind (R1, R15, R16, R155), and what a change of the drill flag brings (R10, R13). -/

namespace Sys2Proof.Machine

/-! ### The end of LINK_LOST after an entry to a phase -/

/-- R1, R15, R16: `u` once the bridge has been heard, before what the end of LINK_LOST brings, the forward queues as `t` has them. -/
def State.revived (u t : State) : State :=
  { u with
    fore := t.fore, aft := t.aft
    ship := { u.ship with silence := some (u.now + u.node.silenceTime * 1000), linkLost := false } }

theorem State.Marks.revived {s u : State} {m : Nat → Display → Urgency → Prop} (h : s.Marks u m) (t : State) :
    (s.revived t).Marks (u.revived t) m := h.congr rfl rfl rfl rfl fun _ => rfl

/-- R13, R16: displays that an entry has marked are marked again at no higher urgency. -/
theorem State.Entered.marked_again {s u t : State} {r : Phase} {d : Bool} (h : s.Entered u r d)
    (hm : u.Marks t fun _ _ v => v = emergencyUrgency r) (ht : { t with displays := u.displays, strings := u.strings } = u) :
    s.Entered t r d := by
  obtain ⟨x, y, rfl⟩ : ∃ x y, t = { u with displays := x, strings := y } := ⟨t.displays, t.strings, by rw [← ht]⟩
  obtain ⟨h1, h2, h3, h4, h5, h6, ⟨n, n1, n2, n3⟩, h8⟩ := h
  have hu : (if r = .alert ∨ r = .muster then Urgency.safety else if r = .standDown ∨ s.ship.phase = .alert then .service else .routine)
      = phaseUrgency s.ship.phase r := by cases r <;> simp [phaseUrgency]
  refine ⟨h1, h2, h3, h4, h5, h6, ⟨n, n1, n2, ?_⟩, h8⟩
  rw [hu] at n3 ⊢
  exact n3.again hm (phaseUrgency_covers _ _)

/-- An entry to a phase is one all the same once the bridge has been heard. -/
theorem State.Entered.revived {s u : State} {r : Phase} {d : Bool} (h : s.Entered u r d) (t : State) :
    (s.revived t).Entered (u.revived t) r d := by
  obtain ⟨h1, h2, h3, h4, h5, h6, ⟨n, n1, n2, n3⟩, h8⟩ := h
  have hnow : u.now = s.now := (congrArg State.now h8 :)
  have hnode : u.node = s.node := (congrArg State.node h8 :)
  refine ⟨?_, h2, h3, h4, h5, h6, ⟨n.revived t, n1, ?_, n3.revived t⟩, ?_⟩
  · simp only [State.revived, hnow, hnode]
    rw [h1]
  · exact congrArg (State.revived · t) n2
  · have := congrArg (State.revived · t) h8
    simpa only [State.revived, hnow, hnode] using this

/-- R16: an entry to a phase leaves no hold that ran out, so the end of LINK_LOST after it only marks, at no higher urgency. -/
theorem State.Entered.restored {s u t : State} {r : Phase} {d lost : Bool} (h : s.Entered u r d) (g : u.LinkRestored t lost) :
    s.Entered t r d := by
  cases lost with
  | false => rw [g.1 rfl]; exact h
  | true =>
    have hp : u.ship.phase = r := by rw [h.ship]
    have hn : ¬(u.ship.phase = .standDown ∧ u.ship.holdRunOut = true) := by rw [h.ship]; simp
    obtain ⟨hm, ht⟩ := (g.2 rfl).1 hn
    rw [hp] at hm
    exact h.marked_again hm ht

/-! ### The drill flag (R10, R13) -/

/-- R10, R13: everything that setting the drill flag can do. -/
theorem setDrill_spec (s : State) (b : Bool) :
    (s.Marks (s.setDrill b) fun _ _ u => b ≠ s.ship.drill ∧
      u = if s.ship.phase = .alert ∨ s.ship.phase = .muster then .safety else .service) ∧
    (b = s.ship.drill → s.setDrill b = s) ∧
    { s.setDrill b with displays := s.displays, strings := s.strings } = { s with ship := { s.ship with drill := b } } := by
  by_cases h : s.ship.drill = b
  · have e : s.setDrill b = s := if_pos h
    rw [e]
    exact ⟨.none fun _ _ _ _ hu => hu.1 h.symm, fun _ => rfl, by rw [← h]⟩
  · have e : s.setDrill b = (s.onShip fun k => { k with drill := b }).markAll (if s.ship.phase.emergency then .safety else .service) :=
      if_neg h
    have hu : (if s.ship.phase.emergency then Urgency.safety else .service) =
        if s.ship.phase = .alert ∨ s.ship.phase = .muster then .safety else .service := by
      cases s.ship.phase <;> rfl
    rw [e, hu]
    refine ⟨?_, fun hb => absurd hb.symm h, ?_⟩
    · have hr := (markAll_round (s.onShip fun k => { k with drill := b })
        (if s.ship.phase = .alert ∨ s.ship.phase = .muster then .safety else .service)).congr (s' := s) rfl rfl rfl rfl fun _ => rfl
      exact hr.congr_marks fun _ _ _ u => by simp [Ne.symm h]
    · rw [markAll_screens (s.onShip fun k => { k with drill := b })]
      rfl

/-! ### The table of R9 -/

/-- R9: a PHASE bulletin does what the cell of the table says. -/
theorem takePhase_eq_cell (s : State) (q : Phase) (d : Bool) :
    s.takePhase q d =
      match phaseCell s.ship.phase q s.ship.line with
      | .keep => s
      | .drill => s.setDrill d
      | .enter r => s.changePhase r d
      | .held => s.lineHeld q := by
  have hn : s.changePhase .normal false = s.changePhase .normal d := by simp [State.changePhase]
  unfold State.takePhase
  cases s.ship.phase <;> cases q <;> cases s.ship.line <;> first | rfl | exact hn

theorem Phase.ofCode_code (q : Phase) : Phase.ofCode q.code = some q := by cases q <;> rfl

theorem Phase.ofCode_eq_none {p : Nat} (h : 4 ≤ p) : Phase.ofCode p = none := by
  unfold Phase.ofCode
  split <;> first | omega | rfl

theorem Phase.exists_code {p : Nat} (h : ¬4 ≤ p) : ∃ q : Phase, q.code = p := by
  match p, h with
  | 0, _ => exact ⟨.normal, rfl⟩
  | 1, _ => exact ⟨.alert, rfl⟩
  | 2, _ => exact ⟨.muster, rfl⟩
  | 3, _ => exact ⟨.standDown, rfl⟩
  | _ + 4, h => exact absurd (Nat.le_add_left _ _) h

end Sys2Proof.Machine
end

section
/-! SUPPORT. Everything that the clock's notification of a minute brings (R5, R72, R74, R78, R98, R99, R102, R125, R35). -/

namespace Sys2Proof.Machine

/-! ### Marks by several reasons -/

/-- R132: rounds agree where the highest of the urgencies that each display is marked at agree. -/
theorem State.Marks.congr_highest {s t : State} {m m' : Nat → Display → Urgency → Prop} (h : s.Marks t m)
    (hn : ∀ d x, s.display d = some x → (∀ u, ¬m' d x u) → ∀ u, ¬m d x u)
    (hm : ∀ d x u, s.display d = some x → Highest (m' d x) u → Highest (m d x) u) : s.Marks t m' where
  absent := h.absent
  unmarked d x hx hu := h.unmarked d x hx (hn d x hx hu)
  marked d x u hx hu := h.marked d x u hx (hm d x u hx hu)
  strings := h.strings
  still := h.still
  places := h.places
  indices := h.indices
  order := h.order

/-! ### The programme (R72, R74, R78) -/

/-- R78: the boards that an evaluation concerns through an entry. -/
theorem evaluationMarks_iff (c : DisplayConfig) (old : Option Nat) (now retention : Nat) (e : ProgEntry) :
    evaluationMarks c old now retention e = true ↔ e.Concerns c old now retention := by
  unfold evaluationMarks ProgEntry.Concerns
  simp only [e.byClock_eq_movedAt, ← ProgEntry.prunable_iff]
  cases inWindow c old e <;> cases inWindow c (some now) (e.movedAt now) <;>
    cases (e.movedAt now).prunable retention now <;> simp

/-- R72: an entry that an evaluation leaves SCHEDULED has not started. -/
theorem ProgEntry.movedAt_scheduled {e : ProgEntry} {now : Nat} (h : (e.movedAt now).status = .scheduled) :
    now < (e.movedAt now).day * 1440 + (e.movedAt now).start := by
  show now < e.day * 1440 + e.start
  have hm : (e.movedAt now).status = statusAt (some now) (e.day * 1440 + e.start) e.duration e.status := rfl
  rw [hm] at h
  cases hs : e.status with
  | scheduled =>
    simp only [hs, statusAt] at h
    split_ifs at h
    omega
  | running =>
    simp only [hs, statusAt] at h
    split_ifs at h
  | ended => simp [hs, statusAt] at h
  | cancelled => simp [hs, statusAt] at h

/-- R77: the urgency of the marks of an evaluation. -/
theorem State.programmeUrgency_false (s : State) : s.programmeUrgency false = emergencyUrgency s.ship.phase := by
  unfold State.programmeUrgency emergencyUrgency
  cases s.ship.phase <;> rfl

/-- R72, R74, R78: an evaluation of the programme. -/
theorem programmeEvaluation_spec (s : State) (now : Nat) (first : Bool) :
    (Tab.Rising s.displays → s.Marks (s.programmeEvaluation now first) fun _ x u =>
      x.cfg.cls.isBoard = true ∧
        (∃ e ∈ s.programme, e.Concerns x.cfg (if first then none else s.lastEvaluation) now s.node.retention) ∧
        u = emergencyUrgency s.ship.phase) ∧
    s.programmeEvaluation now first =
      { s with
        programme := (s.programme.map (·.movedAt now)).filter fun e => ¬e.Outlived s.node.retention now
        lastEvaluation := some now
        displays := (s.programmeEvaluation now first).displays, strings := (s.programmeEvaluation now first).strings } := by
  rw [← evaluateProgramme_eq]
  refine ⟨fun hr => ?_, markWhere_screens _ _ _⟩
  have h := (markWhere_round
    { s with programme := evaluateProgramme s.programme s.node.retention now, lastEvaluation := some now } hr
    (fun _ x => x.cfg.cls.isBoard && s.programme.any
      (evaluationMarks x.cfg (if first then none else s.lastEvaluation) now s.node.retention)) (s.programmeUrgency false)).congr
    (s' := s) (t' := s.programmeEvaluation now first) rfl rfl rfl rfl fun _ => rfl
  refine h.congr_marks fun d x _ u => ?_
  simp only [Bool.and_eq_true, List.any_eq_true, evaluationMarks_iff, s.programmeUrgency_false, and_assoc]

/-! ### The notices (R98, R99, R102) -/

/-- R98, R99: what an evaluation makes of a notice. -/
theorem Notice.evaluate_eq (n : Notice) (now : Nat) :
    n.evaluate now =
      if ∃ b, n.stop = some b ∧ b ≤ now then none else some { n with current := n.isCurrent (some now) } := by
  unfold Notice.evaluate
  cases n.stop with
  | none => simp
  | some b => simp

/-- R98: a notice whose end has not come is current once its start has. -/
theorem Notice.isCurrent_some {n : Notice} {now : Nat} (h : ∀ b, n.stop = some b → now < b) :
    n.isCurrent (some now) = true ↔ ∀ a, n.start = some a → a ≤ now := by
  unfold Notice.isCurrent
  cases ha : n.start <;> cases hb : n.stop <;> simp_all

/-- R99: the slot of an index after an evaluation. -/
theorem fetch_evaluateNotices {t : Tab Notice} (h : Tab.Rising t) (now i : Nat) :
    Tab.fetch (evaluateNotices t now) i = (Tab.fetch t i).bind (·.evaluate now) := by
  induction t with
  | nil => rfl
  | cons e t ih =>
    obtain ⟨j, n⟩ := e
    obtain ⟨hlt, ht⟩ := List.pairwise_cons.1 h
    have ih := ih ht
    unfold evaluateNotices at ih ⊢
    rw [List.filterMap_cons, Tab.fetch_cons]
    by_cases hj : j = i
    · subst hj
      have hnone : Tab.fetch t j = none := Tab.fetch_none_iff.2 fun e he => (hlt e he).ne'
      cases hn : n.evaluate now with
      | none => simp [hn, ih, hnone]
      | some m => simp [hn, Tab.fetch_cons]
    · cases hn : n.evaluate now with
      | none => simp [ih, hj]
      | some m => simp [Tab.fetch_cons, ih, hj]

/-- R99: what is left of the notices at an evaluation has its end still to come. -/
theorem evaluateNotices_stop {t : Tab Notice} {now : Nat} {e : Nat × Notice} (he : e ∈ evaluateNotices t now) (b : Nat)
    (hb : e.2.stop = some b) : now < b := by
  obtain ⟨f, -, hf⟩ := List.mem_filterMap.1 he
  obtain ⟨m, hm, rfl⟩ := Option.map_eq_some_iff.1 hf
  rw [Notice.evaluate_eq] at hm
  split_ifs at hm with h
  cases hm
  by_contra hlt
  exact h ⟨b, hb, by omega⟩

/-- R102: a change of a slot that keeps the scope and the priority marks by them, where the notice counts on a side. -/
theorem State.noticeMark_same (s : State) (n : Notice) (after : Option Notice) (c : DisplayConfig)
    (h : ∀ m, after = some m → m.scope c = n.scope c ∧ m.priority = n.priority) :
    s.noticeMark (some n) after c =
      if (n.counts s.ship.phase = true ∨ ∃ m, after = some m ∧ m.counts s.ship.phase = true) ∧ n.scope c = true then
        some (s.noticeUrgency n.priority)
      else none := by
  cases after with
  | none => by_cases hn : n.counts s.ship.phase = true <;> simp [State.noticeMark, State.countingSide, hn]
  | some m =>
    obtain ⟨hs, hp⟩ := h m rfl
    by_cases hn : n.counts s.ship.phase = true <;> by_cases hm : m.counts s.ship.phase = true <;>
      simp [State.noticeMark, State.countingSide, hn, hm, hs, hp]

/-- R102: an evaluation's change of one notice marks a configuration: where the notice was current or has become so, above the
floor, with the configuration in its scope. -/
theorem State.noticeMark_evaluate (s : State) (n : Notice) (now : Nat) (c : DisplayConfig) (u : Urgency) :
    s.noticeMark (some n) (n.evaluate now) c = some u ↔
      (n.AboveFloor s.ship.phase ∧ n.InScope c ∧ (n.current = true ∨ ∃ m, n.evaluate now = some m ∧ m.current = true)) ∧
        u = noticeUrgencyAt s.ship.phase n.priority := by
  have he : ∀ m, n.evaluate now = some m → m = { n with current := n.isCurrent (some now) } := by
    intro m hm
    rw [Notice.evaluate_eq] at hm
    split_ifs at hm
    exact (Option.some.inj hm).symm
  have hk : (∃ m, n.evaluate now = some m ∧ m.counts s.ship.phase = true) ↔
      (∃ m, n.evaluate now = some m ∧ m.current = true) ∧ n.AboveFloor s.ship.phase := by
    refine ⟨fun ⟨m, hm, hc⟩ => ?_, fun ⟨⟨m, hm, hc⟩, ha⟩ => ⟨m, hm, (m.counts_iff _).2 ⟨hc, ?_⟩⟩⟩
    · have hc := (m.counts_iff _).1 hc
      refine ⟨⟨m, hm, hc.1⟩, ?_⟩
      rw [he m hm] at hc
      exact hc.2
    · rw [he m hm]
      exact ha
  rw [s.noticeMark_same n _ c fun m hm => by rw [he m hm]; exact ⟨rfl, rfl⟩,
    Option.ite_none_right_eq_some, hk, n.counts_iff, n.scope_iff, s.noticeUrgency_eq, Option.some.injEq, @eq_comm _ u]
  tauto

theorem Urgency.code_injective {u v : Urgency} (h : u.code = v.code) : u = v := by cases u <;> cases v <;> first | rfl | cases h

/-- R132: one urgency is the highest. -/
theorem Highest.unique {m : Urgency → Prop} {u v : Urgency} (hu : Highest m u) (hv : Highest m v) : u = v :=
  Urgency.code_injective (Nat.le_antisymm (hu.2 v hv.1) (hv.2 u hu.1))

/-- The higher of two urgencies is the highest of both. -/
theorem maxUrgency_highest (a b : Option Urgency) :
    (maxUrgency a b = none → a = none ∧ b = none) ∧
      ∀ u, maxUrgency a b = some u → Highest (fun v => a = some v ∨ b = some v) u := by
  cases a with
  | none => exact ⟨fun h => ⟨rfl, h⟩, fun u h => ⟨Or.inr h, fun v hv => by cases hv <;> simp_all [maxUrgency]⟩⟩
  | some a =>
    cases b with
    | none => exact ⟨nofun, fun u h => ⟨Or.inl h, fun v hv => by cases hv <;> simp_all [maxUrgency]⟩⟩
    | some b =>
      refine ⟨nofun, fun u h => ?_⟩
      cases Option.some.inj h
      cases a <;> cases b <;> exact ⟨by decide, by rintro v (h | h) <;> cases h <;> decide⟩

/-- The higher of several urgencies, one after another, is the highest of them. -/
theorem foldl_maxUrgency {α : Type} (f : α → Option Urgency) (l : List α) (a : Option Urgency) :
    (l.foldl (fun u p => maxUrgency u (f p)) a = none → a = none ∧ ∀ p ∈ l, f p = none) ∧
      ∀ u, l.foldl (fun u p => maxUrgency u (f p)) a = some u → Highest (fun v => a = some v ∨ ∃ p ∈ l, f p = some v) u := by
  induction l generalizing a with
  | nil => exact ⟨fun h => ⟨h, by simp⟩, fun u h => ⟨Or.inl h, fun v hv => by simp_all⟩⟩
  | cons p l ih =>
    obtain ⟨h1, h2⟩ := ih (maxUrgency a (f p))
    obtain ⟨g1, g2⟩ := maxUrgency_highest a (f p)
    rw [List.foldl_cons]
    refine ⟨fun h => ?_, fun u h => ?_⟩
    · obtain ⟨hm, hl⟩ := h1 h
      exact ⟨(g1 hm).1, List.forall_mem_cons.2 ⟨(g1 hm).2, hl⟩⟩
    · obtain ⟨hu, hle⟩ := h2 u h
      refine ⟨?_, fun v hv => ?_⟩
      · rcases hu with hu | ⟨q, hq, hu⟩
        · exact (g2 u hu).1.imp id fun e => ⟨p, List.mem_cons_self, e⟩
        · exact Or.inr ⟨q, List.mem_cons_of_mem _ hq, hu⟩
      · have both : a = some v ∨ f p = some v → u.code ≤ v.code := fun e => by
          cases hm : maxUrgency a (f p) with
          | none => simp [g1 hm] at e
          | some w => exact (hle w (Or.inl hm)).trans ((g2 w hm).2 v e)
        rcases hv with hv | ⟨q, hq, hv⟩
        · exact both (Or.inl hv)
        · rcases List.mem_cons.1 hq with rfl | hq
          · exact both (Or.inr hv)
          · exact hle v (Or.inr ⟨q, hq, hv⟩)

/-- R102: the urgency at which an evaluation of one slot marks a configuration: none where nothing changes. -/
def State.slotMark (s : State) (now : Nat) (c : DisplayConfig) (e : Nat × Notice) : Option Urgency :=
  if e.2.evaluate now = some e.2 then none else s.noticeMark (some e.2) (e.2.evaluate now) c

theorem evaluationMark_eq_foldl (s : State) (now : Nat) (c : DisplayConfig) :
    s.evaluationMark now c = s.notices.foldl (fun u e => maxUrgency u (s.slotMark now c e)) none := by
  have h : (fun (u : Option Urgency) (e : Nat × Notice) =>
      if e.2.evaluate now = some e.2 then u else maxUrgency u (s.noticeMark (some e.2) (e.2.evaluate now) c)) =
        fun u e => maxUrgency u (s.slotMark now c e) := by
    funext u e
    unfold State.slotMark
    split
    · cases u <;> rfl
    · rfl
  exact congrArg (fun g => s.notices.foldl g none) h

/-- R102: the slots whose evaluation marks a configuration at an urgency. -/
theorem slotMark_iff_moved {s t : State} {now : Nat} (hr : Tab.Rising s.notices) (ht : t.notices = evaluateNotices s.notices now)
    (c : DisplayConfig) (u : Urgency) :
    (∃ e ∈ s.notices, s.slotMark now c e = some u) ↔
      ∃ i n, s.NoticeMoved t i n c ∧ u = noticeUrgencyAt s.ship.phase n.priority := by
  have key : ∀ i n, Tab.fetch s.notices i = some n →
      (s.slotMark now c (i, n) = some u ↔ s.NoticeMoved t i n c ∧ u = noticeUrgencyAt s.ship.phase n.priority) := by
    intro i n hi
    have hf : Tab.fetch t.notices i = n.evaluate now := by rw [ht, fetch_evaluateNotices hr, hi]; rfl
    unfold State.slotMark State.NoticeMoved
    simp only [hi, hf, true_and, Option.ite_none_left_eq_some, s.noticeMark_evaluate, ne_eq, and_assoc]
  constructor
  · rintro ⟨⟨i, n⟩, he, hm⟩
    exact ⟨i, n, (key i n (Tab.fetch_of_mem hr he)).1 hm⟩
  · rintro ⟨i, n, hm, hu⟩
    exact ⟨(i, n), Tab.mem_of_fetch hm.1, (key i n hm.1).2 ⟨hm, hu⟩⟩

/-- R99, R102: an evaluation of the notices. -/
theorem noticeEvaluation_spec (s : State) (now : Nat) :
    (Tab.Rising s.displays → Tab.Rising s.notices → s.Marks (s.noticeEvaluation now) fun _ x u =>
      ∃ i n, s.NoticeMoved (s.noticeEvaluation now) i n x.cfg ∧ u = noticeUrgencyAt s.ship.phase n.priority) ∧
    s.noticeEvaluation now =
      { s with
        notices := evaluateNotices s.notices now
        displays := (s.noticeEvaluation now).displays, strings := (s.noticeEvaluation now).strings } := by
  have he : ({ s with notices := evaluateNotices s.notices now } : State).ScreensOnly (s.noticeEvaluation now) := markBy_screens _ _
  refine ⟨fun hd hn => ?_, he⟩
  have h := (markBy_round { s with notices := evaluateNotices s.notices now } hd
    (fun _ x => s.evaluationMark now x.cfg)).congr (s' := s) (t' := s.noticeEvaluation now) rfl rfl rfl rfl fun _ => rfl
  have hm := fun x : Display => slotMark_iff_moved (t := s.noticeEvaluation now) hn he.notices_eq x.cfg
  refine h.congr_highest (fun d x _ hu u hv => ?_) fun d x u _ hu => ?_
  · rw [evaluationMark_eq_foldl] at hv
    obtain ⟨g | g, -⟩ := (foldl_maxUrgency _ _ _).2 u hv
    · cases g
    · exact hu u ((hm x u).1 g)
  · rw [evaluationMark_eq_foldl]
    obtain ⟨g1, g2⟩ := foldl_maxUrgency (s.slotMark now x.cfg) s.notices none
    cases hv : s.notices.foldl (fun u e => maxUrgency u (s.slotMark now x.cfg e)) none with
    | none =>
      obtain ⟨e, he, hs⟩ := (hm x u).2 hu.1
      rw [(g1 hv).2 e he] at hs
      cases hs
    | some v =>
      have hg : Highest (fun u => ∃ i n, s.NoticeMoved (s.noticeEvaluation now) i n x.cfg ∧ u = noticeUrgencyAt s.ship.phase n.priority) v := by
        simpa only [reduceCtorEq, false_or, hm] using g2 v hv
      rw [hg.unique hu]
      exact ⟨rfl, fun w hw => by cases hw; exact Nat.le_refl _⟩

end Sys2Proof.Machine
end

section
/-! SUPPORT. The clock's notification of a minute (R5), all of it. -/

namespace Sys2Proof.Machine

/-! ### What a display shows by -/

/-- Two states agree in all that R33, R34, R98 and R112 make of a display's screen. -/
structure State.SameShow (s u : State) : Prop where
  notices : u.notices = s.notices
  templates : u.templates = s.templates
  selection : u.selection = s.selection
  phase : u.ship.phase = s.ship.phase
  light : u.ship.light = s.ship.light
  quiet : u.ship.quiet = s.ship.quiet

theorem State.SameShow.withNotices {s u : State} (h : s.SameShow u) (t : Tab Notice) :
    ({ s with notices := t } : State).SameShow { u with notices := t } :=
  ⟨rfl, h.templates, h.selection, h.phase, h.light, h.quiet⟩

/-- Two states agree in the displays, the strings and what the displays show by. -/
structure State.SameScreens (s u : State) : Prop extends s.SameShow u where
  displays : u.displays = s.displays
  strings : u.strings = s.strings

theorem State.SameScreens.refl (s : State) : s.SameScreens s := ⟨⟨rfl, rfl, rfl, rfl, rfl, rfl⟩, rfl, rfl⟩

/-- R132: a round of marks between states that agree in their screens. -/
theorem State.Marks.same {s s' t t' : State} {m : Nat → Display → Urgency → Prop} (h : s.Marks t m) (hs : s.SameScreens s')
    (ht : t.SameScreens t') : s'.Marks t' m :=
  h.congr hs.displays hs.strings (funext fun d => congrArg (Tab.fetch · d) ht.displays) ht.strings fun _ => by rw [ht.displays]

/-- R33: the mode is judged by the notices, the phase and quiet hours. -/
theorem screenMode_congr {s u : State} (hn : u.notices = s.notices) (hp : u.ship.phase = s.ship.phase)
    (hq : u.ship.quiet = s.ship.quiet) (c : DisplayConfig) : u.screenMode c = s.screenMode c := by
  unfold State.screenMode State.screenModeUnder State.activeNoticeFor
  rw [hn, hp, hq]

/-- R34: the brightness is judged by the phase, the light and quiet hours. -/
theorem brightness_congr {s u : State} (hp : u.ship.phase = s.ship.phase) (hl : u.ship.light = s.ship.light)
    (hq : u.ship.quiet = s.ship.quiet) (c : DisplayConfig) : u.brightness c = s.brightness c := by
  unfold State.brightness
  rw [hp, hl, hq]

theorem State.SameShow.showsApart {s s' t t' : State} (hs : s.SameShow s') (ht : t.SameShow t') (c : DisplayConfig) :
    s'.ShowsApart t' c ↔ s.ShowsApart t c := by
  unfold State.ShowsApart
  rw [brightness_congr hs.phase hs.light hs.quiet, brightness_congr ht.phase ht.light ht.quiet,
    screenMode_congr hs.notices hs.phase hs.quiet, screenMode_congr ht.notices ht.phase ht.quiet]

theorem State.SameShow.showsTime {s u : State} (h : s.SameShow u) (c : DisplayConfig) : u.ShowsTime c ↔ s.ShowsTime c := by
  unfold State.ShowsTime State.template State.templateInUse
  rw [screenMode_congr h.notices h.phase h.quiet, h.selection, h.templates]

/-! ### Rounds between states that agree -/

theorem State.NoticeMoved.same {s s' t t' : State} {i : Nat} {n : Notice} {c : DisplayConfig} (hs : s.SameShow s')
    (ht : t.SameShow t') : s'.NoticeMoved t' i n c ↔ s.NoticeMoved t i n c := by
  unfold State.NoticeMoved
  rw [hs.notices, ht.notices, hs.phase]

/-- R5: the marks of a clock's notification depend on no more than the screens, the programme and the retention time. -/
theorem State.ClockMarks.same {s s' t t' : State} {old : Option Nat} {now : Nat} {b : Prop} (h : s.ClockMarks t old now b)
    (hs : s.SameScreens s') (ht : t.SameScreens t') (hp : s'.programme = s.programme)
    (hr : s'.node.retention = s.node.retention) : s'.ClockMarks t' old now b := by
  obtain ⟨r1, m1, r2, m2, r3, m3, r4, m4, e1, e2⟩ := h
  have hw : ({ s with notices := t.notices } : State).SameShow { s' with notices := t'.notices } := by
    rw [ht.notices]
    exact hs.toSameShow.withNotices _
  refine ⟨r1, ?_, r2, ?_, r3, ?_, r4, ?_, ht.displays.trans e1, ht.strings.trans e2⟩
  · rw [hp, hr, hs.phase]
    exact m1.same hs (.refl _)
  · exact m2.congr_marks fun d x _ u => by simp only [State.NoticeMoved.same hs.toSameShow ht.toSameShow, hs.phase]
  · exact m3.congr_marks fun d x _ u => by rw [hw.showsTime]
  · exact m4.congr_marks fun d x _ u => by rw [hw.showsApart ht.toSameShow, hs.phase]

/-- R5: so does what it does to the tables. -/
theorem State.ClockTaken.same {s s' t t' : State} {now : Nat} {b : Prop} (h : s.ClockTaken t now b)
    (hn : s'.notices = s.notices) (hp : s'.programme = s.programme) (hr : s'.node.retention = s.node.retention)
    (gn : t'.notices = t.notices) (gp : t'.programme = t.programme) (gl : t'.lastEvaluation = t.lastEvaluation) :
    s'.ClockTaken t' now b := by
  obtain ⟨h1, h2, h3, h4, h5, h6⟩ := h
  constructor <;> simp only [hn, hp, hr, gn, gp, gl] <;> assumption

/-! ### The notification -/

/-- R125: the marks of the displays whose template in use depends on the time. -/
theorem minuteMarks_spec (s : State) :
    (Tab.Rising s.displays → s.Marks s.minuteMarks fun _ x u => s.ShowsTime x.cfg ∧ u = .routine) ∧ s.ScreensOnly s.minuteMarks := by
  refine ⟨fun h => (markWhere_round s h _ _).congr_marks fun d x _ u => and_congr_left' ?_, markWhere_screens _ _ _⟩
  unfold State.ShowsTime State.displayTemplate
  split
  · simp [*]
  · simp [*]

/-- R5: at a boundary the Notice Unit and the Screen Composer act. -/
def State.boundaryMarked (s : State) (boundary : Bool) (now : Nat) : State :=
  if boundary then (s.noticeEvaluation now).minuteMarks else s

/-- R99, R102, R125: what a boundary brings, and nothing without one. -/
theorem boundaryMarked_spec (s : State) (boundary : Bool) (now : Nat) :
    (Tab.Rising s.displays → Tab.Rising s.notices → ∃ r : State,
      (s.Marks r fun _ x u => boundary = true ∧
        ∃ i n, s.NoticeMoved (s.boundaryMarked boundary now) i n x.cfg ∧ u = noticeUrgencyAt s.ship.phase n.priority) ∧
      r.Marks (s.boundaryMarked boundary now) fun _ x u => boundary = true ∧
        ({ s with notices := (s.boundaryMarked boundary now).notices } : State).ShowsTime x.cfg ∧ u = .routine) ∧
    s.boundaryMarked boundary now =
      { s with
        notices := if boundary then evaluateNotices s.notices now else s.notices
        displays := (s.boundaryMarked boundary now).displays, strings := (s.boundaryMarked boundary now).strings } := by
  cases boundary with
  | false => exact ⟨fun _ _ => ⟨s, ⟨State.Marks.none fun _ _ _ _ h => Bool.noConfusion h.1, State.Marks.none fun _ _ _ _ h => Bool.noConfusion h.1⟩⟩, rfl⟩
  | true =>
    obtain ⟨n1, n2⟩ := noticeEvaluation_spec s now
    obtain ⟨m1, m2⟩ := minuteMarks_spec (s.noticeEvaluation now)
    have e : s.boundaryMarked true now = (s.noticeEvaluation now).minuteMarks := rfl
    rw [e]
    refine ⟨fun hd hn => ⟨s.noticeEvaluation now, ?_, ?_⟩, ?_⟩
    · refine (n1 hd hn).congr_marks fun d x _ u => ?_
      simp only [true_and, State.NoticeMoved, m2.notices_eq]
    · have hr := (n1 hd hn).rising hd
      refine (m1 hr).congr_marks fun d x _ u => ?_
      have hw : ({ s with notices := (s.noticeEvaluation now).minuteMarks.notices } : State).SameShow (s.noticeEvaluation now) := by
        rw [m2.notices_eq, n2]
        exact ⟨rfl, rfl, rfl, rfl, rfl, rfl⟩
      rw [← hw.showsTime x.cfg]
      exact (and_iff_right rfl).symm
    · rw [m2, n2]
      rfl

/-- R99: what an evaluation leaves of the notices. -/
theorem clockTaken_of_notices {s t : State} {now : Nat} {boundary : Bool} (hn : Tab.Rising s.notices)
    (hp : t.programme = (s.programme.map (·.movedAt now)).filter fun e => ¬e.Outlived s.node.retention now)
    (hl : t.lastEvaluation = some now) (ht : t.notices = if boundary then evaluateNotices s.notices now else s.notices) :
    s.ClockTaken t now (boundary = true) := by
  refine ⟨hp, hl, fun h => by rw [ht, if_neg h], fun i hi => ?_, fun hb i n b hi hs hle => ?_, fun hb i n hi hs => ?_⟩
  · rw [ht]
    split
    · rw [fetch_evaluateNotices hn, hi]
      rfl
    · exact hi
  · rw [ht, if_pos hb, fetch_evaluateNotices hn, hi]
    exact (n.evaluate_eq now).trans (if_pos ⟨b, hs, hle⟩)
  · refine ⟨n.isCurrent (some now), ?_, Notice.isCurrent_some hs⟩
    rw [ht, if_pos hb, fetch_evaluateNotices hn, hi]
    exact (n.evaluate_eq now).trans (if_neg fun ⟨b, h1, h2⟩ => Nat.not_lt.2 h2 (hs b h1))

/-- R5: everything that the clock's notification of a minute can do. -/
theorem clockNotify_spec (s : State) (boundary first : Bool) :
    (Tab.Rising s.displays → Tab.Rising s.notices →
      s.ClockTaken (s.clockNotify boundary first) s.ship.absMinute (boundary = true) ∧
        s.ClockMarks (s.clockNotify boundary first) (if first then none else s.lastEvaluation) s.ship.absMinute (boundary = true)) ∧
    (s.clockNotify boundary first).QuietInForce ∧
    (s.clockNotify boundary first).quietCopy =
      (if (s.clockNotify boundary first).ship.quiet = s.ship.quiet then s.quietCopy else (s.clockNotify boundary first).ship.quiet) ∧
    s.clockNotify boundary first =
      { s with
        ship := { s.ship with quiet := (s.clockNotify boundary first).ship.quiet }
        programme := (s.programme.map (·.movedAt s.ship.absMinute)).filter fun e => ¬e.Outlived s.node.retention s.ship.absMinute
        lastEvaluation := some s.ship.absMinute
        notices := if boundary then evaluateNotices s.notices s.ship.absMinute else s.notices
        displays := (s.clockNotify boundary first).displays, strings := (s.clockNotify boundary first).strings
        quietCopy := (s.clockNotify boundary first).quietCopy } := by
  obtain ⟨now, hnow⟩ : ∃ now, now = s.ship.absMinute := ⟨_, rfl⟩
  obtain ⟨p, hp⟩ : ∃ p, p = s.programmeEvaluation now first := ⟨_, rfl⟩
  obtain ⟨n, hn⟩ : ∃ n, n = p.boundaryMarked boundary now := ⟨_, rfl⟩
  have e : s.clockNotify boundary first = n.evaluateQuiet := by rw [hn, hp, hnow]; rfl
  obtain ⟨p1, p2⟩ := programmeEvaluation_spec s now first
  obtain ⟨n1, n2⟩ := boundaryMarked_spec p boundary now
  obtain ⟨q1, q2, q3, -, q5⟩ := evaluateQuiet_spec n
  rw [← hp] at p1 p2
  rw [← hn] at n1 n2
  rw [e, ← hnow]
  have en : n =
      { s with
        programme := (s.programme.map (·.movedAt now)).filter fun e => ¬e.Outlived s.node.retention now
        lastEvaluation := some now, notices := if boundary then evaluateNotices s.notices now else s.notices
        displays := n.displays, strings := n.strings } := by
    rw [n2, p2]
  have et : n.evaluateQuiet =
      { s with
        ship := { s.ship with quiet := n.evaluateQuiet.ship.quiet }
        programme := (s.programme.map (·.movedAt now)).filter fun e => ¬e.Outlived s.node.retention now
        lastEvaluation := some now, notices := if boundary then evaluateNotices s.notices now else s.notices
        displays := n.evaluateQuiet.displays, strings := n.evaluateQuiet.strings
        quietCopy := n.evaluateQuiet.quietCopy } := by
    have hs : n.evaluateQuiet.ship = { s.ship with quiet := n.evaluateQuiet.ship.quiet } := by rw [q1, en]
    rw [← hs]
    exact q5.trans (by rw [en])
  have pship : p.ship = s.ship := by rw [p2]
  have pnotices : p.notices = s.notices := by rw [p2]
  have nship : n.ship = s.ship := by rw [en]
  have tnotices : n.evaluateQuiet.notices = n.notices := by rw [q5]
  refine ⟨fun hd hr => ⟨?_, ?_⟩, ?_, ?_, et⟩
  · exact clockTaken_of_notices hr (by rw [et]) (by rw [et]) (by rw [et])
  · have m1 := p1 hd
    obtain ⟨r, m2, m3⟩ := n1 (m1.rising hd) (by rw [pnotices]; exact hr)
    have m4 := q3 (m3.rising (m2.rising (m1.rising hd)))
    have moved : ∀ i m c, p.NoticeMoved n i m c ↔ s.NoticeMoved n.evaluateQuiet i m c := fun i m c => by
      simp only [State.NoticeMoved, pnotices, pship, tnotices]
    have seen : ({ s with notices := n.evaluateQuiet.notices } : State).SameShow { p with notices := n.notices } := by
      rw [tnotices, p2]
      exact ⟨rfl, rfl, rfl, rfl, rfl, rfl⟩
    have seen' : ({ s with notices := n.evaluateQuiet.notices } : State).SameShow n := by
      rw [tnotices, en]
      exact ⟨rfl, rfl, rfl, rfl, rfl, rfl⟩
    refine ⟨p, m1, r, ?_, n, ?_, n.evaluateQuiet, ?_, rfl, rfl⟩
    · exact m2.congr_marks fun d x _ u => by simp only [moved, pship]
    · exact m3.congr_marks fun d x _ u => by rw [← seen.showsTime]
    · exact m4.congr_marks fun d x _ u => by rw [← seen'.showsApart (State.SameScreens.refl _).toSameShow, nship]
  · unfold State.QuietInForce
    rw [q1, show n.evaluateQuiet.node = n.node by rw [q5]]
    exact quietNow_iff n
  · rw [q2, nship, show n.quietCopy = s.quietCopy by rw [en]]

end Sys2Proof.Machine
end

section
/-! SUPPORT. The statements of reset, of the muster line, the ship clock and the stand-down hold. -/

namespace Sys2Proof.Machine

/-- The command of a timer that runs brings the time base to its deadline, and its effect follows. -/
theorem State.expire_some {s : State} {deadline : Option Nat} {t : Nat} (h : deadline = some t) (f : State → State) :
    s.expire deadline f = f { s with now := max s.now t } := by subst h; rfl

theorem State.expire_none {s : State} {deadline : Option Nat} (h : deadline = none) (f : State → State) : s.expire deadline f = s := by
  subst h; rfl

/-! ### The muster line (R7, R10, R11) -/

theorem Ship.lineAt_agrees {h : Ship} (e : h.raw = h.line) : h.lineAt = none := if_pos e

theorem Ship.lineAt_differs {h : Ship} (e : h.raw ≠ h.line) : h.lineAt = some (h.rawSince + 200) := if_neg e

theorem filterLine_low {s : State} (h : s.ship.raw = false) : s.filterLine = { s with ship := { s.ship with line := false } } := by
  simp [State.filterLine, State.onShip, h]

theorem filterLine_high {s : State} (h : s.ship.raw = true) :
    s.filterLine = ({ s with ship := { s.ship with line := true } } : State).lineAsserted := by
  simp [State.filterLine, State.onShip, h]

/-- R11: an assertion of the line enters ALERT from NORMAL and STAND_DOWN. -/
theorem lineAsserted_enters {s : State} (h : s.ship.phase = .normal ∨ s.ship.phase = .standDown) :
    s.lineAsserted = s.changePhase .alert false := by
  rcases h with h | h <;> simp [State.lineAsserted, h]

/-- R11: in ALERT and MUSTER it clears the drill flag. -/
theorem lineAsserted_clears {s : State} (h : s.ship.phase = .alert ∨ s.ship.phase = .muster) : s.lineAsserted = s.setDrill false := by
  rcases h with h | h <;> simp [State.lineAsserted, h]

/-- R7: the state at the moment at which the filter completes on a high level. -/
def State.lineRaised (s : State) : State :=
  { s with now := max s.now (s.ship.rawSince + 200), ship := { s.ship with line := true } }

/-- R7, R11: the filter's completion on a high level. -/
theorem exec_musterLineChange_high {s : State} (hr : s.ship.raw = true) (hl : s.ship.line = false) :
    exec .musterLineChange s = .next s.lineRaised.lineAsserted := by
  have ha := Ship.lineAt_differs (h := s.ship) (by simp [hr, hl])
  exact congrArg Host.Outcome.next ((s.expire_some ha State.filterLine).trans (filterLine_high hr))

/-- Settles O4, by what the filter's completion does at each level (R7) and what an assertion does in each phase (R11). -/
theorem musterLine : Obligations.MusterLine := by
  intro s
  refine ⟨fun level h => ?_, fun level h => ?_, fun hr hl => ?_, fun h => ?_, fun hr hl => ?_⟩
  · exact congrArg Host.Outcome.next (if_neg h)
  · exact congrArg Host.Outcome.next (if_pos h)
  · have ha := Ship.lineAt_differs (h := s.ship) (by simp [hr, hl])
    exact congrArg Host.Outcome.next ((s.expire_some ha State.filterLine).trans (filterLine_low hr))
  · exact congrArg Host.Outcome.next (s.expire_none (Ship.lineAt_agrees h) _)
  · refine ⟨_, exec_musterLineChange_high hr hl, fun hp => ?_, fun hp => ?_⟩
    · rw [lineAsserted_enters (s := s.lineRaised) hp]
      exact changePhase_entered s.lineRaised _ _
    · rw [lineAsserted_clears (s := s.lineRaised) hp]
      obtain ⟨hm, hn, he⟩ := setDrill_spec s.lineRaised false
      refine ⟨he, ?_, fun hd => ?_⟩
      · refine (hm.congr (s' := s) rfl rfl rfl rfl fun _ => rfl).congr_marks fun d x _ u => ?_
        rw [if_pos (show s.lineRaised.ship.phase = .alert ∨ s.lineRaised.ship.phase = .muster from hp)]
        refine and_congr_left' ?_
        show ¬false = s.ship.drill ↔ _
        cases s.ship.drill <;> simp
      · rw [hn hd.symm]
        exact ⟨rfl, rfl⟩

/-! ### The ship clock (R2, R3) -/

theorem Ship.secondAt_valid {h : Ship} (v : h.valid = true) : h.secondAt = some (h.subSecond + 1000) := if_pos v

theorem Ship.secondAt_invalid {h : Ship} (v : h.valid = false) : h.secondAt = none := if_neg (by simp [v])

theorem Ship.tick_within {h : Ship} (l : h.second < 59) :
    h.tick = { h with second := h.second + 1, subSecond := h.subSecond + 1000 } := by simp [Ship.tick, l]

/-- R2: the second advance at second 59 carries into the minute and the day. -/
theorem Ship.tick_carries {h : Ship} (l : ¬h.second < 59) :
    h.tick =
      { h with
        subSecond := h.subSecond + 1000, second := 0, minute := if h.minute < 1439 then h.minute + 1 else 0
        day := if h.minute < 1439 then h.day else if h.day < 255 then h.day + 1 else 0 } := by
  by_cases hm : h.minute < 1439 <;> simp [Ship.tick, l, hm]

/-- R72: what a clock's notification leaves SCHEDULED has not started. -/
theorem evaluated_scheduled {ps : List ProgEntry} {retention now : Nat} {e : ProgEntry}
    (he : e ∈ (ps.map (·.movedAt now)).filter fun e => ¬e.Outlived retention now) (h : e.status = .scheduled) :
    now < e.day * 1440 + e.start := by
  obtain ⟨f, -, rfl⟩ := List.mem_map.1 (List.mem_filter.1 he).1
  exact ProgEntry.movedAt_scheduled h

/-- Settles O5: the carry of the second, and at a minute all that the clock's notification brings. -/
theorem clockSecond : Obligations.ClockSecond := by
  intro s
  refine ⟨fun hv => ?_, fun hv hs => ?_, fun hv hs => ?_⟩
  · exact congrArg Host.Outcome.next (s.expire_none (Ship.secondAt_invalid hv) _)
  · refine congrArg Host.Outcome.next ((s.expire_some (Ship.secondAt_valid hv) _).trans ?_)
    simp [State.advanceSecond, State.onShip, hs, Ship.tick_within]
  · obtain ⟨u, hu⟩ : ∃ u : State, u = { s with now := max s.now (s.ship.subSecond + 1000), ship := s.ship.tick } := ⟨_, rfl⟩
    have hn : ¬s.ship.second < 59 := by omega
    have e : exec .clockSecondAdvance s = .next (u.clockNotify true false) := by
      refine congrArg Host.Outcome.next ((s.expire_some (Ship.secondAt_valid hv) _).trans ?_)
      rw [hu]
      exact if_neg hn
    have us : u.ship = _ := (congrArg State.ship hu).trans (Ship.tick_carries hn)
    obtain ⟨h1, h2, h3, h4⟩ := clockNotify_spec u true false
    obtain ⟨t, ht⟩ : ∃ t, t = u.clockNotify true false := ⟨_, rfl⟩
    rw [← ht] at h1 h2 h3 h4
    have ts : t.ship = { u.ship with quiet := t.ship.quiet } := by rw [h4]
    have am : u.ship.absMinute = t.ship.day * 1440 + t.ship.minute := by rw [ts]; rfl
    have show_s : u.SameScreens s := by
      rw [hu, Ship.tick_carries hn]
      exact ⟨⟨rfl, rfl, rfl, rfl, rfl, rfl⟩, rfl, rfl⟩
    have last : (if false = true then none else u.lastEvaluation) = s.lastEvaluation := by rw [hu]; rfl
    rw [am, last, eq_self] at h1
    rw [am] at h4
    refine ⟨t, e.trans (by rw [ht]), ?_, ?_, ?_, ?_, ?_, ?_, fun f hf hsch => ?_, fun f hf => ?_, fun ok => ⟨?_, ?_⟩, h2, ?_, ?_, ?_⟩
    · rw [h4, hu]
    · rw [ts, us]
    · rw [ts, us]
    · rw [ts, us]
    · rw [ts, us]
    · exact congrArg State.lastEvaluation h4
    · rw [h4] at hf
      exact evaluated_scheduled hf hsch
    · rw [h4] at hf
      exact evaluateNotices_stop hf
    · exact ((h1 (hu ▸ ok.displays.1) (hu ▸ ok.notices)).1.same (by rw [hu]) (by rw [hu]) (by rw [hu]) rfl rfl rfl)
    · exact ((h1 (hu ▸ ok.displays.1) (hu ▸ ok.notices)).2.same show_s (State.SameScreens.refl _) (by rw [hu]) (by rw [hu]))
    · rw [h3, hu, Ship.tick_carries hn]
    · rw [ts, us]
    · rw [h4, hu]

/-! ### The stand-down hold (R12) -/

/-- Settles O6: under LINK_LOST the mark that the hold ran out, else the entry to NORMAL. -/
theorem holdExpiry : Obligations.HoldExpiry := by
  intro s due hp hd
  have e : exec .standDownHoldExpiry s = .next ({ s with now := max s.now due } : State).holdExpires :=
    congrArg Host.Outcome.next (s.expire_some hd State.holdExpires)
  refine ⟨fun hl => ?_, fun hl => ?_⟩
  · rw [e, show ({ s with now := max s.now due } : State).holdExpires = _ from if_pos hl]
    rfl
  · refine ⟨_, e, ?_⟩
    rw [show ({ s with now := max s.now due } : State).holdExpires = _ from if_neg (by simp [hl])]
    exact changePhase_entered _ _ _

end Sys2Proof.Machine
end

section
/-! SUPPORT. The statements of power-on reset and of a step while no command waits. -/

namespace Sys2Proof.Machine

/-! ### Power-on reset (R20, R147, R171) -/

/-- R147: every string controller has its power-on values. -/
@[simp] theorem str_powerOn (p : List Instr) (straps : BitVec 8) (raw fore aft : Bool) (n : Nat) (k : StringNo) :
    (State.powerOn p straps raw fore aft n).str k = StringCtl.reset := by
  simp [State.str, State.powerOn]

/-- Settles O3, by the power-on values of each block. -/
theorem powerOnReset : Obligations.PowerOnReset := by
  intro straps s
  refine ⟨_, rfl, by simp [State.powerOn, Ship.reset, State.closure, Tab.fetchD], by simp [State.powerOn, NodeParams.reset, NodeParams.weights],
    by simp [State.powerOn], fun i => by simp [State.powerOn, Region.reset], fun k => ?_, rfl, fun p => ?_, rfl, rfl, rfl, rfl, rfl, rfl,
    rfl, rfl, rfl⟩
  · rw [str_powerOn]
    exact ⟨rfl, rfl, rfl, rfl, rfl, rfl, rfl, rfl, rfl, rfl, rfl, rfl⟩
  · cases p <;> exact ⟨rfl, rfl, rfl, rfl⟩

/-- R147: no queue of a string in its power-on values holds a place. -/
theorem StringCtl.queue_reset (u : Urgency) : StringCtl.reset.queue u = [] := by cases u <;> rfl

/-- R129, R131: with no display and every string at its power-on values the strings are in accord. -/
theorem stringsOk_of_reset {s : State} (hs : ∀ k, s.str k = StringCtl.reset) (hd : s.displays = []) : s.StringsOk := by
  have hn : ∀ d, s.display d = none := fun d => by rw [State.display, hd]; rfl
  have ht : ∀ k t, (s.str k).txn ≠ some t := fun k t => by rw [hs]; nofun
  refine ⟨fun k => by rw [hs]; decide, fun k t h => absurd h (ht k t), fun d x h => by simp [hn] at h, fun k t h => absurd h (ht k t),
    fun d x u h => by simp [hn] at h, fun k u e h => ?_, fun k u => ?_, fun k u => ?_, fun k => by rw [hs]; decide,
    fun d x e y h => by simp [hn] at h, fun d x h => by simp [hn] at h⟩
  · rw [hs, StringCtl.queue_reset] at h
    cases h
  · rw [hs, StringCtl.queue_reset]
    exact .nil
  · rw [hs, StringCtl.queue_reset]
    exact .nil

/-- R44: with no destination and no node the solver is in accord. -/
theorem solverOk_of_empty {s : State} (hd : s.dests = []) (hn : s.nodes = []) : s.SolverOk := by
  have h0 : ∀ d, Tab.fetch s.dests d = none := fun d => by rw [hd]; rfl
  constructor <;> simp [h0, hn]

/-- Settles O60: each invariant at the power-on values. -/
theorem resetMeetsInvariants : Obligations.ResetMeetsInvariants := by
  have hs : State.reset.SolverOk := solverOk_of_empty (s := State.reset) rfl rfl
  refine ⟨⟨by decide, .nil, .nil, nofun⟩, ⟨by decide, by decide, by decide⟩, ⟨nofun, fun _ => rfl, nofun, nofun⟩, rfl, ?_,
    ⟨.nil, .nil, nofun, by decide⟩, hs, nofun, stringsOk_of_reset (str_powerOn _ _ _ _ _ _) rfl, ?_⟩
  · exact ⟨nofun, fun h => nomatch h.2.1⟩
  · have empty : ∀ {α : Type} (p : α → Prop), ∀ e ∈ ([] : List α), p e := fun p => List.forall_mem_nil p
    exact ⟨⟨.nil, empty _⟩, ⟨.nil, empty _⟩, .nil, .nil, ⟨.nil, empty _⟩, ⟨.nil, empty _⟩, .nil, ⟨.nil, empty _⟩, .nil, .nil, .nil,
      ⟨.nil, empty _⟩⟩

/-! ### A step while no command waits (log entry 1) -/

/-- The events of a timer that are due. -/
theorem mem_dueAt {s : State} {deadline : Option Nat} {i j : Instr} :
    j ∈ s.dueAt deadline i ↔ j = i ∧ ∃ t, deadline = some t ∧ t ≤ s.now := by
  unfold State.dueAt
  cases deadline with
  | none => simp
  | some t => by_cases h : t ≤ s.now <;> simp [h]

theorem mem_takeDue {s : State} {k : StringNo} {j : Instr} :
    j ∈ s.takeDue k ↔
      (j = .dispatchTake k ∧ ∃ d u n, s.offer k = some (.dispatch d u n)) ∨ (j = .pollTake k ∧ ∃ d, s.offer k = some (.poll d)) ∨
        (j = .probeTake k ∧ ∃ d, s.offer k = some (.probe d)) := by
  unfold State.takeDue
  split <;> simp [*]

theorem mem_allStrings (k : StringNo) : k ∈ allStrings := by fin_cases k <;> decide

theorem isSome_orElse_iff {α : Type} (a b : Option α) : (a <|> b).isSome = true ↔ a.isSome = true ∨ b.isSome = true := by
  cases a <;> cases b <;> simp

/-- R161: the port, of those that are UP, that the head of the Report Queue is offered to. -/
theorem reportOffer_iff {s : State} {p : Port} (h : (s.port p).up = true) :
    s.reportOffer = some p ↔ s.node.reportPort = p ∨ (s.port s.node.reportPort).up = false := by
  unfold State.reportOffer
  cases hr : (s.port s.node.reportPort).up with
  | true => simp
  | false =>
    have hne : s.node.reportPort ≠ p := fun e => by rw [e, h] at hr; cases hr
    have ho : s.node.reportPort.other = p := by
      cases hp : s.node.reportPort <;> cases p <;> first | rfl | exact absurd hp hne
    simp [ho, h]

/-- R158: an arbiter has a choice to make. -/
theorem txReady_isSome {s : State} {p : Port} :
    (s.txReady p).isSome = true ↔
      (s.port p).up = true ∧ (s.port p).sending = none ∧
        ((s.port p).queue ≠ [] ∨ (∃ r ∈ s.replies, r.port = p) ∨
          (s.reports ≠ [] ∧ (s.node.reportPort = p ∨ (s.port s.node.reportPort).up = false))) := by
  have head : ∀ {α : Type} (l : List α), l.head?.isSome = true ↔ l ≠ [] := fun l => by cases l <;> simp
  unfold State.txReady
  by_cases h : (s.port p).up = true ∧ (s.port p).sending = none
  · have hr : (if s.reportOffer = some p then s.reports.head?.map TxChoice.report else none).isSome = true ↔
        s.reports ≠ [] ∧ (s.node.reportPort = p ∨ (s.port s.node.reportPort).up = false) := by
      rw [← reportOffer_iff h.1]
      split
      · simp [*]
      · simp [*]
    have hb : ((s.port p).queue.find? fun f => f.origin == originBridge).isSome = true → (s.port p).queue ≠ [] := by
      intro hf e
      simp [e] at hf
    rw [if_pos h]
    simp only [State.txChoice, isSome_orElse_iff, Option.isSome_map, hr, head, h.1, h.2, true_and]
    have order : ∀ a b c d : Prop, (a → d) → (a ∨ b ∨ c ∨ d ↔ d ∨ b ∨ c) := by tauto
    simp only [List.find?_isSome, beq_iff_eq] at hb ⊢
    exact order _ _ _ _ hb
  · rw [if_neg h]
    simp only [Option.isSome_none, Bool.false_eq_true, false_iff]
    exact fun g => h ⟨g.1, g.2.1⟩

theorem firstDest_isSome {s : State} {p : Dest → Bool} : (s.firstDest p).isSome = true ↔ ∃ e ∈ s.dests, p e.2 = true := by
  simp [State.firstDest]

/-- R49: the solver has a destination to take. -/
theorem nextDest_isSome {s : State} :
    s.nextDest.isSome = true ↔ ∃ e ∈ s.dests, e.2.status = .pending ∨ e.2.status = .suspended := by
  have both : (∃ e ∈ s.dests, e.2.status = .pending ∨ e.2.status = .suspended) ↔
      (∃ e ∈ s.dests, e.2.status = .suspended) ∨ ∃ e ∈ s.dests, e.2.status = .pending :=
    ⟨fun ⟨e, he, h⟩ => h.symm.imp (fun h => ⟨e, he, h⟩) fun h => ⟨e, he, h⟩,
      fun h => h.elim (fun ⟨e, he, h⟩ => ⟨e, he, Or.inr h⟩) fun ⟨e, he, h⟩ => ⟨e, he, Or.inl h⟩⟩
  rw [both]
  unfold State.nextDest
  split
  · simp only [isSome_orElse_iff, firstDest_isSome, Bool.and_eq_true, beq_iff_eq]
    refine ⟨fun h => h.elim (fun ⟨e, he, h⟩ => Or.inr ⟨e, he, h.1⟩) id, Or.inr⟩
  · simp only [isSome_orElse_iff, firstDest_isSome, beq_iff_eq]

theorem solving_isNone {s : State} : s.solving.isNone = true ↔ ∀ e ∈ s.dests, e.2.status ≠ .solving := by
  rw [← Option.not_isSome, Bool.not_eq_true', ← Bool.not_eq_true, State.solving, firstDest_isSome]
  simp

/-! Each part of the events of log entry 1 holds one command, where it is due. -/

theorem mem_lineDue (s : State) (i : Instr) :
    i ∈ s.dueAt s.ship.lineAt .musterLineChange ↔ i = .musterLineChange ∧ s.Due .musterLineChange := by
  simp only [mem_dueAt, Ship.lineAt, State.Due]
  split <;> simp [*]

theorem mem_secondDue (s : State) (i : Instr) :
    i ∈ s.dueAt s.ship.secondAt .clockSecondAdvance ↔ i = .clockSecondAdvance ∧ s.Due .clockSecondAdvance := by
  simp only [mem_dueAt, Ship.secondAt, State.Due]
  split <;> simp [*]

theorem mem_upDue (s : State) (p : Port) (i : Instr) : i ∈ s.dueAt (s.port p).upAt (.portUp p) ↔ i = .portUp p ∧ s.Due (.portUp p) := by
  simp only [mem_dueAt, LinkPort.upAt, State.Due]
  cases (s.port p).up <;> cases (s.port p).signal <;> simp

theorem mem_downDue (s : State) (p : Port) (i : Instr) :
    i ∈ s.dueAt (s.port p).downAt (.portDown p) ↔ i = .portDown p ∧ s.Due (.portDown p) := by
  simp only [mem_dueAt, LinkPort.downAt, State.Due]
  cases (s.port p).up <;> cases (s.port p).signal <;> simp

theorem mem_timeoutDue (s : State) (k : StringNo) (i : Instr) :
    i ∈ s.dueAt (s.timeoutAt k) (.replyTimeout k) ↔ i = .replyTimeout k ∧ s.Due (.replyTimeout k) := by
  simp only [mem_dueAt, State.timeoutAt, State.Due]
  cases (s.str k).txn <;> simp

theorem mem_ite_singleton {α : Type} {c : Prop} [Decidable c] {i j : α} : i ∈ (if c then [j] else []) ↔ i = j ∧ c := by
  split <;> simp [*]

theorem mem_beginDue (s : State) (p : Port) (i : Instr) :
    (i ∈ if (s.txReady p).isSome then [.transmitBegin p] else []) ↔ i = .transmitBegin p ∧ s.Due (.transmitBegin p) := by
  rw [mem_ite_singleton, txReady_isSome]
  rfl

theorem mem_solverDue (s : State) (i : Instr) : i ∈ s.solverDue ↔ i = .solverTake ∧ s.Due .solverTake := by
  rw [State.solverDue, mem_ite_singleton, Bool.and_eq_true, solving_isNone, nextDest_isSome]
  rfl

theorem mem_takesDue (s : State) (k : StringNo) (i : Instr) :
    i ∈ s.takeDue k ↔
      (i = .dispatchTake k ∧ s.Due (.dispatchTake k)) ∨ (i = .pollTake k ∧ s.Due (.pollTake k)) ∨
        (i = .probeTake k ∧ s.Due (.probeTake k)) := mem_takeDue

/-- Log entry 1: the events that come before any more time passes are those that are due. -/
theorem mem_dueEvents (s : State) (i : Instr) : i ∈ s.dueEvents ↔ s.Due i := by
  have hold : i ∈ s.dueAt s.ship.hold .standDownHoldExpiry ↔ i = .standDownHoldExpiry ∧ s.Due .standDownHoldExpiry := mem_dueAt
  have silence : i ∈ s.dueAt s.ship.silence .bridgeSilenceExpiry ↔ i = .bridgeSilenceExpiry ∧ s.Due .bridgeSilenceExpiry := mem_dueAt
  simp only [State.dueEvents, State.portDue, List.mem_append, List.mem_flatMap, mem_lineDue, mem_secondDue, hold, silence, mem_upDue,
    mem_downDue, mem_beginDue, mem_timeoutDue, mem_takesDue, mem_solverDue]
  constructor
  · have due : ∀ c, i = c ∧ s.Due c → s.Due i := fun c h => h.1 ▸ h.2
    rintro ((((((((h | h) | h) | h) | ((h | h) | h)) | ((h | h) | h)) | ⟨k, -, h⟩) | ⟨k, -, h | h | h⟩) | h) <;> exact due _ h
  · intro h
    cases i with
    | musterLineChange => simp [h]
    | clockSecondAdvance => simp [h]
    | standDownHoldExpiry => simp [h]
    | bridgeSilenceExpiry => simp [h]
    | portUp p => cases p <;> simp [h]
    | portDown p => cases p <;> simp [h]
    | transmitBegin p => cases p <;> simp [h]
    | replyTimeout k => simp [h, mem_allStrings]
    | dispatchTake k => simp [h, mem_allStrings]
    | pollTake k => simp [h, mem_allStrings]
    | probeTake k => simp [h, mem_allStrings]
    | solverTake => simp [h]
    | _ => exact h.elim

/-- Log entry 22: the ends of what is under way. -/
theorem underWay_of_mem {s : State} {i : Instr} (h : i ∈ s.openEvents) : s.UnderWay i := by
  have sending : ∀ p, (s.port p).sending.isSome = true → s.UnderWay (.transmitEnd p) := fun p hp e => by
    rw [e] at hp
    cases hp
  simp only [State.openEvents, List.mem_append, mem_ite_singleton] at h
  rcases h with (⟨rfl, h⟩ | ⟨rfl, h⟩) | ⟨rfl, h⟩
  · obtain ⟨e, he, hs⟩ := firstDest_isSome.1 h
    exact ⟨e, he, beq_iff_eq.1 hs⟩
  · exact sending _ h
  · exact sending _ h

/-- Log entry 1: a command that comes of the 820's own accord is due or under way; a millisecond passes while none is due. -/
theorem mem_ownEvents {s : State} {e : Option Instr} (h : e ∈ s.ownEvents) :
    (∀ i, e = some i → s.Due i ∨ s.UnderWay i) ∧ (e = none → ∀ i, ¬s.Due i) := by
  simp only [State.ownEvents, List.mem_append, List.mem_map, mem_ite_singleton] at h
  rcases h with ⟨i, hi, rfl⟩ | ⟨rfl, hd⟩
  · refine ⟨fun j hj => ?_, nofun⟩
    cases hj
    exact hi.imp (mem_dueEvents s i).1 underWay_of_mem
  · exact ⟨nofun, fun _ i hi => by simpa [hd] using (mem_dueEvents s i).2 hi⟩

/-- The choice among the 820's own events is one of them. -/
theorem ownChoice_mem (s : State) : s.ownChoice ∈ s.ownEvents := by
  have hne : s.ownEvents ≠ [] := by
    unfold State.ownEvents
    by_cases h : s.dueEvents = [] <;> simp [h]
  have hlt : Config.freePick s.draws % s.ownEvents.length < s.ownEvents.length := Nat.mod_lt _ (List.length_pos_iff.2 hne)
  unfold State.ownChoice
  rw [List.getElem?_eq_getElem hlt]
  exact List.getElem_mem hlt

/-- Settles O2: the choice is one of the 820's own events, or the millisecond where none is due. -/
theorem idleStep : Obligations.IdleStep := by
  intro s t hp hs
  have hs : s.idle = .next t := by rw [← hs, step, hp]
  unfold State.idle at hs
  split at hs
  · rename_i h
    cases hs
    exact Or.inr ⟨(mem_ownEvents (e := none) (by rw [h]; exact List.mem_singleton_self _)).2 rfl, rfl⟩
  · obtain ⟨hd, hn⟩ := mem_ownEvents (ownChoice_mem s)
    split at hs
    · rename_i i hc
      exact Or.inl ⟨i, hd i hc, hs⟩
    · rename_i hc
      cases hs
      exact Or.inr ⟨hn hc, rfl⟩

end Sys2Proof.Machine
end

section
/-! SUPPORT. The statements of the PHASE bulletin, of bridge silence and of the entries to ALERT and MUSTER. -/

namespace Sys2Proof.Machine

/-! ### Bulletins that are taken or ignored (R155) -/

theorem takesSequence_iff (s : State) (seq : Nat) : takesSequence s.watermark seq = true ↔ s.Fresh seq := by
  unfold takesSequence State.Fresh
  cases s.watermark <;> simp

theorem takeBulletin_taken {s : State} {seq : Nat} (h : s.Fresh seq) (b : Bulletin) :
    s.takeBulletin seq b = (({ s with watermark := some seq } : State).applyBulletin b).bridgeAlive :=
  if_pos ((takesSequence_iff s seq).2 h)

theorem takeBulletin_ignored {s : State} {seq : Nat} (h : ¬s.Fresh seq) (b : Bulletin) : s.takeBulletin seq b = s.bridgeAlive :=
  if_neg fun g => h ((takesSequence_iff s seq).1 g)

theorem exec_command {a : Arrival} {b : Bulletin} {i : Instr} (h : b.command a = some i) (s : State) :
    exec i s = .next (s.bulletinArrives a b) := by
  cases b <;> cases h <;> rfl

theorem State.Entered.withPorts {s t : State} {r : Phase} {d : Bool} (h : s.Entered t r d) (x y : LinkPort) :
    ({ s with fore := x, aft := y } : State).Entered { t with fore := x, aft := y } r d := by
  obtain ⟨h1, h2, h3, h4, h5, h6, ⟨n, n1, n2, n3⟩, h8⟩ := h
  exact ⟨h1, h2, h3, h4, h5, h6,
    ⟨{ n with fore := x, aft := y }, n1, congrArg (fun q : State => { q with fore := x, aft := y }) n2,
      n3.congr rfl rfl rfl rfl fun _ => rfl⟩,
    congrArg (fun q : State => { q with fore := x, aft := y }) h8⟩

theorem State.LinkRestored.withPorts {m t : State} {lost : Bool} (h : m.LinkRestored t lost) (x y : LinkPort) :
    ({ m with fore := x, aft := y } : State).LinkRestored { t with fore := x, aft := y } lost := by
  obtain ⟨h1, h2⟩ := h
  refine ⟨fun hl => by rw [h1 hl], fun hl => ⟨fun hn => ?_, fun hy => ((h2 hl).2 hy).withPorts x y⟩⟩
  obtain ⟨hm, ht⟩ := (h2 hl).1 hn
  exact ⟨hm.congr rfl rfl rfl rfl fun _ => rfl, congrArg (fun q : State => { q with fore := x, aft := y }) ht⟩

/-- R16: the bridge heard after a bulletin has left `u`, whatever the forward queues are. -/
theorem bridgeAlive_withPorts {u t : State} (h : t = { u.bridgeAlive with fore := t.fore, aft := t.aft }) :
    (u.revived t).LinkRestored t u.ship.linkLost := by
  have hr := (bridgeAlive_restored u).withPorts t.fore t.aft
  rw [← h] at hr
  exact hr

/-- A bulletin that arrives leaves what taking or ignoring it leaves, but for the forward queues (R152, R153). -/
theorem bulletinArrives_ports {s : State} {a : Arrival} (h : s.Hears a) {b : Bulletin} (hl : b.bytes.length ≤ 1024) :
    s.bulletinArrives a b =
      { s.takeBulletin a.seq b with fore := (s.bulletinArrives a b).fore, aft := (s.bulletinArrives a b).aft } := by
  rw [bulletinArrives_hears h hl]
  split
  · exact congrArg
      (fun q : State => { q with
        fore := ((s.takeBulletin a.seq b).forward a.port (a.bulletinFrame b)).fore
        aft := ((s.takeBulletin a.seq b).forward a.port (a.bulletinFrame b)).aft })
      (forward_queues (s.takeBulletin a.seq b) a.port (a.bulletinFrame b))
  · rfl

/-- R1, R15, R16, R155: a bulletin that is ignored. -/
theorem bulletin_ignored {s : State} {a : Arrival} (h : s.Hears a) (hf : ¬s.Fresh a.seq) {b : Bulletin}
    (hl : b.bytes.length ≤ 1024) : (s.revived (s.bulletinArrives a b)).LinkRestored (s.bulletinArrives a b) s.ship.linkLost := by
  have e := bulletinArrives_ports h hl
  rw [takeBulletin_ignored hf] at e
  exact bridgeAlive_withPorts e

/-- R1, R15, R16, R155: a bulletin that is taken, by the state that its application leaves. -/
theorem bulletin_taken {s u : State} {a : Arrival} (h : s.Hears a) (hf : s.Fresh a.seq) {b : Bulletin} (hl : b.bytes.length ≤ 1024)
    (hu : ({ s with watermark := some a.seq } : State).applyBulletin b = u) (hk : u.ship.linkLost = s.ship.linkLost) :
    (u.revived (s.bulletinArrives a b)).LinkRestored (s.bulletinArrives a b) s.ship.linkLost := by
  have e := bulletinArrives_ports h hl
  rw [takeBulletin_taken hf, hu] at e
  rw [← hk]
  exact bridgeAlive_withPorts e

/-! ### The PHASE bulletin (R9) -/

theorem applyBulletin_phase {s : State} {q : Phase} {p : Nat} (h : q.code = p) (d : Bool) :
    s.applyBulletin (.phase p d) = s.takePhase q d := by
  subst h
  simp only [State.applyBulletin, Phase.ofCode_code]

theorem applyBulletin_noPhase {s : State} {p : Nat} (h : 4 ≤ p) (d : Bool) : s.applyBulletin (.phase p d) = s := by
  simp only [State.applyBulletin, Phase.ofCode_eq_none h]

/-- R14: everything that the LINE_HELD report changes. -/
theorem lineHeld_eq (s : State) (q : Phase) :
    s.lineHeld q = { s with reports := (s.lineHeld q).reports, reportArrival := (s.lineHeld q).reportArrival } := by
  unfold State.lineHeld State.queueReport State.addReport
  split
  · rfl
  · split
    · rfl
    · split <;> rfl

section PhaseCells

variable {a : Arrival} {p : Nat} {d : Bool} {s : State}

/-- R9, R13: a taken PHASE bulletin that enters a phase. -/
theorem phaseBulletin_enters (h : s.Hears a) (hf : s.Fresh a.seq) {q r : Phase} (hq : q.code = p)
    (hc : phaseCell s.ship.phase q s.ship.line = .enter r) :
    (s.heard (s.bulletinArrives a (.phase p d)) a.seq).Entered (s.bulletinArrives a (.phase p d)) r d := by
  have hu : ({ s with watermark := some a.seq } : State).applyBulletin (.phase p d) =
      ({ s with watermark := some a.seq } : State).changePhase r d := by
    rw [applyBulletin_phase hq, takePhase_eq_cell, show phaseCell ({ s with watermark := some a.seq } : State).ship.phase q
      ({ s with watermark := some a.seq } : State).ship.line = .enter r from hc]
  have he := changePhase_entered { s with watermark := some a.seq } r d
  exact (he.revived _).restored (bulletin_taken h hf (by simp [Bulletin.bytes]) hu (by rw [he.ship]))

/-- R10, R13: a taken PHASE bulletin that sets the drill flag. -/
theorem phaseBulletin_drills (h : s.Hears a) (hf : s.Fresh a.seq) {q : Phase} (hq : q.code = p)
    (hc : phaseCell s.ship.phase q s.ship.line = .drill) :
    ((({ s with watermark := some a.seq } : State).setDrill d).revived (s.bulletinArrives a (.phase p d))).LinkRestored
      (s.bulletinArrives a (.phase p d)) s.ship.linkLost := by
  have hu : ({ s with watermark := some a.seq } : State).applyBulletin (.phase p d) =
      ({ s with watermark := some a.seq } : State).setDrill d := by
    rw [applyBulletin_phase hq, takePhase_eq_cell, show phaseCell ({ s with watermark := some a.seq } : State).ship.phase q
      ({ s with watermark := some a.seq } : State).ship.line = .drill from hc]
  have hs := congrArg (·.ship.linkLost) (setDrill_spec { s with watermark := some a.seq } d).2.2
  exact bulletin_taken h hf (by simp [Bulletin.bytes]) hu hs

/-- R9: a taken PHASE bulletin that changes nothing. -/
theorem phaseBulletin_keeps (h : s.Hears a) (hf : s.Fresh a.seq)
    (hc : 4 ≤ p ∨ ∃ q : Phase, q.code = p ∧ phaseCell s.ship.phase q s.ship.line = .keep) :
    (s.heard (s.bulletinArrives a (.phase p d)) a.seq).LinkRestored (s.bulletinArrives a (.phase p d)) s.ship.linkLost := by
  have hu : ({ s with watermark := some a.seq } : State).applyBulletin (.phase p d) = { s with watermark := some a.seq } := by
    rcases hc with hp | ⟨q, hq, hc⟩
    · exact applyBulletin_noPhase hp d
    · rw [applyBulletin_phase hq, takePhase_eq_cell, show phaseCell ({ s with watermark := some a.seq } : State).ship.phase q
        ({ s with watermark := some a.seq } : State).ship.line = .keep from hc]
  exact bulletin_taken h hf (by simp [Bulletin.bytes]) hu rfl

/-- R14: a taken PHASE bulletin that is refused while the line is held. -/
theorem phaseBulletin_held (h : s.Hears a) (hf : s.Fresh a.seq) {q : Phase} (hq : q.code = p)
    (hc : phaseCell s.ship.phase q s.ship.line = .held) :
    ((({ s with watermark := some a.seq } : State).lineHeld q).revived (s.bulletinArrives a (.phase p d))).LinkRestored
      (s.bulletinArrives a (.phase p d)) s.ship.linkLost := by
  have hu : ({ s with watermark := some a.seq } : State).applyBulletin (.phase p d) =
      ({ s with watermark := some a.seq } : State).lineHeld q := by
    rw [applyBulletin_phase hq, takePhase_eq_cell, show phaseCell ({ s with watermark := some a.seq } : State).ship.phase q
      ({ s with watermark := some a.seq } : State).ship.line = .held from hc]
  exact bulletin_taken h hf (by simp [Bulletin.bytes]) hu (by rw [lineHeld_eq])

end PhaseCells

/-- Settles O15: R9's table cell by cell. -/
theorem phaseEffects : Obligations.PhaseEffects := by
  intro a p d s h hf _
  refine ⟨_, rfl, fun q r hq hc => phaseBulletin_enters h hf hq hc, fun q hq hc => ?_, fun hk => ?_⟩
  · obtain ⟨hm, hn, he⟩ := setDrill_spec { s with watermark := some a.seq } d
    refine ⟨_, hm.revived _, fun hd => ?_, ?_, phaseBulletin_drills h hf hq hc⟩
    · rw [hn hd]
      exact ⟨rfl, rfl⟩
    · exact congrArg (State.revived · (s.bulletinArrives a (.phase p d))) he
  · by_cases hh : ∃ q : Phase, q.code = p ∧ phaseCell s.ship.phase q s.ship.line = .held
    · obtain ⟨q, hq, hc⟩ := hh
      refine ⟨_, fun _ => ?_, fun hn => absurd hc (hn q hq), ?_, phaseBulletin_held h hf hq hc⟩
      · subst hq
        exact queueReport_reported { s with watermark := some a.seq } .lineHeld (s.address.getD 0) q.code
      · rw [lineHeld_eq]
        rfl
    · refine ⟨s.heard _ a.seq, fun hy => absurd hy hh, fun _ => rfl, rfl, phaseBulletin_keeps h hf ?_⟩
      exact hk.imp id fun ⟨q, hq, hc⟩ => ⟨q, hq, hc.resolve_right fun hc => hh ⟨q, hq, hc⟩⟩

theorem Phase.code_injective {p q : Phase} (h : p.code = q.code) : p = q := by cases p <;> cases q <;> first | rfl | cases h

theorem Phase.code_lt (q : Phase) : q.code < 4 := by cases q <;> decide

/-- R15: the Ship State Unit once the bridge has been heard without LINK_LOST. -/
theorem ship_of_revived {s u t : State} (h : t = u.revived t) (hnow : u.now = s.now) (hnode : u.node = s.node)
    (hl : u.ship.linkLost = false) : t.ship = { u.ship with silence := some (s.now + s.node.silenceTime * 1000) } := by
  refine (congrArg State.ship h).trans ?_
  unfold State.revived
  rw [← hl, hnow, hnode]

/-- R13, R14, R155: the state `t` with every part that a PHASE bulletin reaches put back as `s` has it. -/
def State.phaseFrame (s t : State) : State :=
  { t with
    ship := s.ship, dests := s.dests, cabins := s.cabins, displays := s.displays, strings := s.strings, quietCopy := s.quietCopy
    reports := s.reports, reportArrival := s.reportArrival, watermark := s.watermark, fore := s.fore, aft := s.aft }

/-- Settles O13: while LINK_LOST is false a taken PHASE bulletin leaves what its cell says, but for the timer and the watermark. -/
theorem phaseBulletin : Obligations.PhaseBulletin := by
  intro a p d s h hf _ hl
  obtain ⟨t, ht⟩ : ∃ t, t = s.bulletinArrives a (.phase p d) := ⟨_, rfl⟩
  refine ⟨t, by rw [ht]; rfl, ?_⟩
  by_cases hp : 4 ≤ p
  · have e := (phaseBulletin_keeps (d := d) h hf (Or.inl hp)).1 hl
    rw [← ht] at e
    have hs := ship_of_revived (s := s) (u := { s with watermark := some a.seq }) e rfl rfl hl
    refine ⟨by rw [hs], fun q hq => absurd q.code_lt (by omega), fun _ => ⟨by rw [hs], ?_⟩, ?_⟩
    · rw [e]; rfl
    · rw [e]; rfl
  · obtain ⟨q, rfl⟩ := Phase.exists_code hp
    cases hc : phaseCell s.ship.phase q s.ship.line with
    | keep =>
      have e := (phaseBulletin_keeps (d := d) h hf (Or.inr ⟨q, rfl, hc⟩)).1 hl
      rw [← ht] at e
      have hs := ship_of_revived (s := s) (u := { s with watermark := some a.seq }) e rfl rfl hl
      refine ⟨by rw [hs], fun q' hq => ?_, fun g => absurd g hp, by rw [e]; rfl⟩
      rw [Phase.code_injective hq, hc]
      exact ⟨by rw [hs], by rw [e]; rfl⟩
    | drill =>
      have e := (phaseBulletin_drills (d := d) h hf rfl hc).1 hl
      rw [← ht] at e
      have he := (setDrill_spec { s with watermark := some a.seq } d).2.2
      have us : (({ s with watermark := some a.seq } : State).setDrill d).ship = { s.ship with drill := d } := (congrArg State.ship he :)
      have hs := ship_of_revived (s := s) e (congrArg State.now he :) (congrArg State.node he :) (by rw [us]; exact hl)
      rw [us] at hs
      refine ⟨by rw [hs], fun q' hq => ?_, fun g => absurd g hp, ?_⟩
      · rw [Phase.code_injective hq, hc]
        refine ⟨by rw [hs], ?_⟩
        rw [e]
        exact (congrArg State.reporting he :)
      · rw [e]
        exact (congrArg (State.phaseFrame s) he :)
    | enter r =>
      have he := phaseBulletin_enters (d := d) h hf rfl hc
      rw [← ht] at he
      have hs := he.ship
      refine ⟨by rw [hs]; rfl, fun q' hq => ?_, fun g => absurd g hp, ?_⟩
      · rw [Phase.code_injective hq, hc]
        refine ⟨?_, he.quiet, (congrArg State.reporting he.rest :)⟩
        refine hs.trans ?_
        rw [show t.ship.silence = _ from congrArg Ship.silence hs]
        simp only [State.heard, hl]
      · exact (congrArg (State.phaseFrame s) he.rest :)
    | held =>
      have e := (phaseBulletin_held (d := d) h hf rfl hc).1 hl
      rw [← ht] at e
      have he := lineHeld_eq { s with watermark := some a.seq } q
      have us : (({ s with watermark := some a.seq } : State).lineHeld q).ship = s.ship := (congrArg State.ship he :)
      have hs := ship_of_revived (s := s) e (congrArg State.now he :) (congrArg State.node he :) (by rw [us]; exact hl)
      rw [us] at hs
      refine ⟨by rw [hs], fun q' hq => ?_, fun g => absurd g hp, ?_⟩
      · rw [Phase.code_injective hq, hc]
        refine ⟨by rw [hs], ?_⟩
        rw [e]
        exact queueReport_reported { s with watermark := some a.seq } .lineHeld (s.address.getD 0) q.code
      · rw [e, he]
        rfl

/-- What an entry to ALERT or MUSTER from NORMAL or STAND_DOWN brings, part by part (R19, R53, R130, R132). -/
theorem State.Entered.alarm {s u t : State} {r : Phase} {d : Bool} (h : u.Entered t r d) (hr : r = .alert ∨ r = .muster)
    (hq : s.QuietOk) (hp : s.ship.phase = .normal ∨ s.ship.phase = .standDown) (hs : s.SameScreens u)
    (hcopy : u.quietCopy = s.quietCopy) (hdests : u.dests = s.dests) :
    t.ship.quiet = false ∧ t.quietCopy = false ∧ s.InvalidatesAll t ∧ (∀ k, (t.str k).state = freedState (s.str k).state) ∧
      ∀ d x, s.display d = some x → t.display d = some (x.markedAt .safety) := by
  have hn : r ≠ .normal := by rintro rfl; simp at hr
  have tp : t.ship.phase = r := by rw [h.ship]
  have tq : t.ship.quiet = false := by
    rw [← Bool.not_eq_true]
    exact fun hy => hn (tp ▸ (h.quiet.1 hy).1)
  obtain ⟨m, m1, m2, m3⟩ := h.marks
  have md : m.displays = s.displays := (congrArg State.displays m2 :).trans hs.displays
  refine ⟨tq, ?_, ?_, fun k => ?_, fun j x hx => ?_⟩
  · rw [h.copied, hcopy, hs.quiet, show s.quietCopy = s.ship.quiet from hq, tq]
    split
    · exact (‹_› : false = s.ship.quiet).symm
    · rfl
  · have hi := h.invalidated (by rw [hs.phase]; rcases hr with rfl | rfl <;> rcases hp with hp | hp <;> simp [hp])
    unfold State.InvalidatesAll at hi ⊢
    rwa [hdests] at hi
  · rw [m3.strings k, m1 k]
    simp only [if_pos hr]
    rw [State.str, hs.strings]
    rfl
  · have hm : m.display j = some x := by rw [State.display, md]; exact hx
    exact m3.marked j x .safety hm ⟨by simp [hr], fun v hv => by simp [hv, hr]⟩

/-- Settles O14: by the line through R11, by a bulletin through R9's table, and then what an entry brings. -/
theorem alarmEffects : Obligations.AlarmEffects := by
  intro s hq hp hl
  refine ⟨fun hr => ?_, fun a p d h hf hpp => ?_⟩
  · have he := changePhase_entered s.lineRaised .alert false
    obtain ⟨h1, h2, h3, h4, h5⟩ := he.alarm (Or.inl rfl) hq hp ⟨⟨rfl, rfl, rfl, rfl, rfl, rfl⟩, rfl, rfl⟩ rfl rfl
    refine ⟨_, ?_, h1, h2, h3, h4, h5, he⟩
    rw [exec_musterLineChange_high hr hl, lineAsserted_enters (s := s.lineRaised) hp]
  · obtain ⟨r, hr, hrp⟩ : ∃ r : Phase, (r = .alert ∨ r = .muster) ∧ (if p = 1 then .alert else .muster) = r ∧ r.code = p := by
      rcases hpp with rfl | rfl
      · exact ⟨.alert, Or.inl rfl, rfl, rfl⟩
      · exact ⟨.muster, Or.inr rfl, rfl, rfl⟩
    have hc : phaseCell s.ship.phase r s.ship.line = .enter r := by
      rw [hl]
      rcases hp with hp | hp <;> rcases hr with rfl | rfl <;> rw [hp] <;> rfl
    have he := phaseBulletin_enters (d := d) h hf hrp.2 hc
    obtain ⟨h1, h2, h3, h4, h5⟩ := he.alarm hr hq hp ⟨⟨rfl, rfl, rfl, rfl, rfl, rfl⟩, rfl, rfl⟩ rfl rfl
    rw [hrp.1]
    exact ⟨_, rfl, h1, h2, h3, h4, h5, he⟩

/-! ### Bridge silence (R15, R16) -/

/-- R10: the drill flag is false in NORMAL, whatever flag is named. -/
theorem State.Entered.normal_drill {s t : State} {d : Bool} (h : s.Entered t .normal d) (e : Bool) : s.Entered t .normal e :=
  ⟨h.ship, h.quiet, h.copied, h.invalidated, h.routes, h.cabins, h.marks, h.rest⟩

/-- Settles O7: the timer's expiry marks every display; a bulletin that ends LINK_LOST is applied first, and a hold that ran out takes
effect where the phase is still STAND_DOWN. -/
theorem bridgeSilence : Obligations.BridgeSilence := by
  refine ⟨fun s => ⟨fun due hd => ?_, fun hn => ?_⟩, fun a b i s hc h hl hf => ?_, fun a p d s h hf hl hp hline hr => ?_⟩
  · obtain ⟨u, hu⟩ : ∃ u : State, u = { s with now := max s.now due, ship := { s.ship with silence := none, linkLost := true } } := ⟨_, rfl⟩
    have e : exec .bridgeSilenceExpiry s = .next (u.markAll u.writeUrgency) := by
      refine congrArg Host.Outcome.next ((s.expire_some hd State.silenceExpires).trans ?_)
      rw [hu]
      rfl
    have hm := markAll_round u u.writeUrgency
    have hs := markAll_screens u u.writeUrgency
    have uu : u.writeUrgency = emergencyUrgency s.ship.phase := by rw [u.writeUrgency_eq, hu]
    refine ⟨_, e, ?_, ?_, ?_, ?_⟩
    · rw [hs.now_eq, hu]
    · rw [hs.ship_eq, hu]
    · rw [uu] at hm ⊢
      exact hm.congr (by rw [hu]) (by rw [hu]) rfl rfl fun _ => rfl
    · rw [hs, hu]
  · exact congrArg Host.Outcome.next (s.expire_none hn _)
  · exact ⟨_, _, exec_command hc s, rfl, bulletin_ignored h hf hl⟩
  · refine ⟨_, rfl, fun hpp => ?_, fun h3 => ?_, fun hpp => ?_⟩
    · rcases hpp with rfl | rfl
      · exact phaseBulletin_enters h hf (q := .alert) rfl (by rw [hp, hline]; rfl)
      · exact phaseBulletin_enters h hf (q := .muster) rfl (by rw [hp, hline]; rfl)
    · subst h3
      obtain ⟨hm, -, he⟩ := setDrill_spec { s with watermark := some a.seq } d
      have hk := phaseBulletin_drills (d := d) h hf (q := .standDown) rfl (by rw [hp, hline]; rfl)
      have hs : (({ s with watermark := some a.seq } : State).setDrill d).ship = { s.ship with drill := d } := (congrArg State.ship he :)
      refine ⟨_, (hm.revived _).congr_marks fun _ _ _ u => ?_,
        (congrArg (State.revived · (s.bulletinArrives a (.phase 3 d))) he :), (hk.2 hl).2 ⟨?_, ?_⟩⟩
      · simp [hp]
      · simp only [State.revived, hs, hp]
      · simp only [State.revived, hs, hr]
    · by_cases h0 : p = 0
      · subst h0
        exact (phaseBulletin_enters h hf (q := .normal) rfl (by rw [hp, hline]; rfl)).normal_drill false
      · exact ((phaseBulletin_keeps h hf (Or.inl (hpp.resolve_left h0))).2 hl).2 ⟨hp, hr⟩

end Sys2Proof.Machine
end

section
/-! SUPPORT. The statements of the TIME, CLOSURES and LIGHT bulletins and of the bulletins to the cabins. -/

namespace Sys2Proof.Machine

/-! ### The TIME bulletin (R4, R5) -/

/-- R4: the clock set to a day, a minute and a second that begins now. -/
def State.clockSet (s : State) (day minute second : Nat) : State :=
  { s with ship := { s.ship with day := day, minute := minute, second := second, valid := true, subSecond := s.now } }

/-- R4, R5: a TIME bulletin in range sets the clock and sends its notification. -/
theorem setClock_taken (s : State) {day minute second : Nat} (h : day ≤ 255 ∧ minute ≤ 1439 ∧ second ≤ 59) :
    s.setClock day minute second =
      (s.clockSet day minute second).clockNotify (!s.ship.valid || day * 1440 + minute != s.ship.absMinute) (!s.ship.valid) :=
  if_neg (by omega)

theorem setClock_dropped (s : State) {day minute second : Nat} (h : ¬(day ≤ 255 ∧ minute ≤ 1439 ∧ second ≤ 59)) :
    s.setClock day minute second = s := if_pos (by omega)

/-- R5: the state `t` with every part that the clock's notification reaches put back as `s` has it. -/
def State.clockFrame (s t : State) : State :=
  { t with
    ship := s.ship, programme := s.programme, lastEvaluation := s.lastEvaluation, notices := s.notices, displays := s.displays
    strings := s.strings, quietCopy := s.quietCopy }

/-- Settles O12: the clock set and its notification of a minute, or nothing for a value out of range. -/
theorem timeBulletin : Obligations.TimeBulletin := by
  intro a day minute second s h hf
  obtain ⟨t, ht⟩ : ∃ t, t = s.bulletinArrives a (.time day minute second) := ⟨_, rfl⟩
  obtain ⟨w, hw⟩ : ∃ w : State, w = { s with watermark := some a.seq } := ⟨_, rfl⟩
  have ws : w.ship = s.ship := by rw [hw]
  have taken : ∀ u, w.setClock day minute second = u → u.ship.linkLost = s.ship.linkLost →
      (u.revived t).LinkRestored t s.ship.linkLost := fun u hu hk => by
    rw [ht]
    exact bulletin_taken h hf (by simp [Bulletin.bytes, be16]) (hw ▸ hu) hk
  by_cases hr : day ≤ 255 ∧ minute ≤ 1439 ∧ second ≤ 59
  · obtain ⟨b, hb⟩ : ∃ b, b = (!w.ship.valid || day * 1440 + minute != w.ship.absMinute) := ⟨_, rfl⟩
    obtain ⟨c, hc⟩ : ∃ c, c = w.clockSet day minute second := ⟨_, rfl⟩
    obtain ⟨u, hu⟩ : ∃ u, u = c.clockNotify b (!w.ship.valid) := ⟨_, rfl⟩
    have e : w.setClock day minute second = u := by rw [setClock_taken w hr, hu, hb, hc]
    obtain ⟨h1, h2, h3, h4⟩ := clockNotify_spec c b (!w.ship.valid)
    have cm : c.ship.absMinute = day * 1440 + minute := by rw [hc]; rfl
    rw [← hu, cm] at h1
    rw [← hu] at h2 h3
    rw [← hu, cm] at h4
    have us : u.ship = { c.ship with quiet := u.ship.quiet } := (congrArg State.ship h4 :)
    have ue : u.now = s.now ∧ u.node = s.node := by rw [h4, hc, hw]; exact ⟨rfl, rfl⟩
    have cs : c.SameScreens s := by rw [hc, hw]; exact ⟨⟨rfl, rfl, rfl, rfl, rfl, rfl⟩, rfl, rfl⟩
    have lost : u.ship.linkLost = s.ship.linkLost := by rw [us, hc, hw]; rfl
    refine ⟨t, u.revived t, by rw [ht]; rfl, taken u e lost, fun _ => ⟨?_, ?_, ?_, ?_, ?_, ?_⟩, fun hn => absurd hr hn⟩
    · simp only [State.revived, State.heard, ue.1, ue.2]
      rw [us, hc, hw]
      rfl
    · exact (congrArg State.lastEvaluation h4 :)
    · exact h2
    · refine h3.trans ?_
      rw [hc, hw]
      rfl
    · rintro old boundary rfl hbd ok
      have hbb : boundary = (b = true) := by
        rw [hb, ws]
        refine propext (hbd.trans ?_)
        rw [Bool.or_eq_true, Bool.not_eq_true', bne_iff_ne]
        rfl
      have ho : (if (!w.ship.valid) = true then none else c.lastEvaluation) = if s.ship.valid = true then s.lastEvaluation else none := by
        rw [hc, hw]
        cases s.ship.valid <;> rfl
      have hd : Tab.Rising c.displays := by rw [hc, hw]; exact ok.displays.1
      have hn : Tab.Rising c.notices := by rw [hc, hw]; exact ok.notices
      obtain ⟨g1, g2⟩ := h1 hd hn
      rw [ho] at g2
      rw [hbb]
      exact ⟨g1.same (by rw [hc, hw]; rfl) (by rw [hc, hw]; rfl) (by rw [hc, hw]; rfl) rfl rfl rfl,
        g2.same cs ⟨⟨rfl, rfl, rfl, rfl, rfl, rfl⟩, rfl, rfl⟩ (by rw [hc, hw]; rfl) (by rw [hc, hw]; rfl)⟩
    · refine (congrArg (fun q => s.clockFrame (q.revived t)) h4 : s.clockFrame (u.revived t) = _).trans ?_
      rw [hc, hw]
      rfl
  · refine ⟨t, w.revived t, by rw [ht]; rfl, taken w (setClock_dropped w hr) (by rw [ws]), fun hy => absurd hy hr, fun _ => by rw [hw]; rfl⟩

/-! ### The CLOSURES bulletin (R17) -/

/-- R17: the state that a listed value gives a closure; any other value leaves it. -/
def closureGiven (old : Closure) (v : Nat) : Closure :=
  match v with
  | 0 => .opened
  | 1 => .closed
  | 2 => .unknown
  | _ => old

theorem closureGiven_eq (old : Closure) (v : Nat) : closureGiven old v = (Closure.ofCode v).getD old := by
  match v with
  | 0 => rfl
  | 1 => rfl
  | 2 => rfl
  | _ + 3 => rfl

/-- R17: the closures after a list of states from a first index on. -/
theorem fetchD_setClosures (t : Tab Closure) (vs : List Nat) (first c : Nat) :
    Tab.fetchD (setClosures t first vs) c .unknown =
      if first ≤ c ∧ c < first + vs.length ∧ c < 128 then
        closureGiven (Tab.fetchD t c .unknown) (vs.getD (c - first) 3)
      else Tab.fetchD t c .unknown := by
  induction vs generalizing t first with
  | nil =>
    have hn : ¬(first ≤ c ∧ c < first + 0 ∧ c < 128) := by omega
    simp only [setClosures, List.length_nil, hn, if_false]
  | cons v vs ih =>
    obtain ⟨u, hu⟩ : ∃ u, u = match Closure.ofCode v with
      | some x => if first < 128 then Tab.put t first x .unknown else t
      | none => t := ⟨_, rfl⟩
    have e : setClosures t first (v :: vs) = setClosures u (first + 1) vs := by
      rw [hu, setClosures]
      cases Closure.ofCode v <;> rfl
    have hf : Tab.fetchD u c .unknown =
        if c = first ∧ first < 128 then closureGiven (Tab.fetchD t c .unknown) v else Tab.fetchD t c .unknown := by
      rw [hu, closureGiven_eq]
      cases Closure.ofCode v with
      | none => simp
      | some x =>
        by_cases h8 : first < 128
        · simp [h8, Tab.fetchD_put]
        · simp [h8]
    rw [e, ih, hf]
    by_cases hc : c = first
    · subst hc
      by_cases h8 : c < 128 <;> simp [h8]
    · by_cases hlt : c < first
      · have h1 : ¬first ≤ c := by omega
        have h2 : ¬first + 1 ≤ c := by omega
        simp [h1, h2, hc]
      · have h3 : c - first = c - (first + 1) + 1 := by omega
        have h4 : (first + 1 ≤ c ∧ c < first + 1 + vs.length ∧ c < 128) ↔ (first ≤ c ∧ c < first + (v :: vs).length ∧ c < 128) := by
          simp only [List.length_cons]
          omega
        simp only [h4, hc, false_and, if_false, h3, List.getD_cons_succ]

theorem passable_iff (c : Closure) : c.passable = false ↔ c = .closed := by cases c <;> decide

/-- R17: some closure comes to or from CLOSED. -/
theorem passabilityDiffers_iff (a b : Tab Closure) :
    passabilityDiffers a b = true ↔
      ∃ c < 128, ¬(Tab.fetchD b c .unknown = .closed ↔ Tab.fetchD a c .unknown = .closed) := by
  unfold passabilityDiffers
  simp only [List.any_eq_true, List.mem_range, bne_iff_ne, ne_eq, ← passable_iff]
  refine exists_congr fun c => and_congr_right fun _ => not_congr ?_
  cases (Tab.fetchD a c .unknown).passable <;> cases (Tab.fetchD b c .unknown).passable <;> decide

/-- R52: every destination invalidated. -/
theorem invalidateAll_invalidates (s : State) : s.InvalidatesAll s.invalidateAll := by
  intro i
  have e : Tab.fetch s.invalidateAll.dests i = (Tab.fetch s.dests i).map Dest.invalidated := Tab.fetch_mapAll _ _ _
  refine ⟨fun h => by rw [e, h]; rfl, fun x hx => ⟨if x.status = .suspended then [] else x.cells, ?_, fun h => if_neg h⟩⟩
  rw [e, hx]
  rfl

/-- R17, R52: everything that a CLOSURES bulletin can do. -/
theorem takeClosures_spec (s : State) (first : Nat) (states : List Nat) :
    (s.takeClosures first states).ship.closures =
      (if first ≤ 127 ∧ 1 ≤ states.length ∧ states.length ≤ 32 then setClosures s.ship.closures first states
       else s.ship.closures) ∧
    (passabilityDiffers s.ship.closures (s.takeClosures first states).ship.closures = true →
      s.InvalidatesAll (s.takeClosures first states)) ∧
    (passabilityDiffers s.ship.closures (s.takeClosures first states).ship.closures = false →
      (s.takeClosures first states).dests = s.dests) ∧
    s.takeClosures first states =
      { s with
        ship := { s.ship with closures := (s.takeClosures first states).ship.closures }
        dests := (s.takeClosures first states).dests } := by
  by_cases h : first ≤ 127 ∧ 1 ≤ states.length ∧ states.length ≤ 32
  · obtain ⟨t, ht⟩ : ∃ t, t = s.onShip fun k => { k with closures := setClosures s.ship.closures first states } := ⟨_, rfl⟩
    have e : s.takeClosures first states =
        if passabilityDiffers s.ship.closures t.ship.closures then t.invalidateAll else t := by
      rw [ht]
      exact if_neg (by omega)
    have tc : t.ship.closures = setClosures s.ship.closures first states := by rw [ht]; rfl
    rw [if_pos h, ← tc, e]
    cases hp : passabilityDiffers s.ship.closures t.ship.closures with
    | true =>
      refine ⟨rfl, fun _ => ?_, fun hn => absurd (hp.symm.trans hn) nofun, by rw [ht]; rfl⟩
      have hi := invalidateAll_invalidates t
      unfold State.InvalidatesAll at hi ⊢
      rwa [show t.dests = s.dests by rw [ht]; rfl] at hi
    | false => exact ⟨rfl, fun hn => absurd (hp.symm.trans hn) nofun, fun _ => by rw [ht]; rfl, by rw [ht]; rfl⟩
  · have e : s.takeClosures first states = s := if_pos (by omega)
    have hp : ¬passabilityDiffers s.ship.closures s.ship.closures = true := by
      rw [passabilityDiffers_iff]
      rintro ⟨c, -, hc⟩
      exact hc Iff.rfl
    rw [e, if_neg h]
    exact ⟨rfl, fun hy => absurd hy hp, fun _ => rfl, rfl⟩

/-- Settles O16: the closures that the list gives, and the invalidation of a changed passability. -/
theorem closuresBulletin : Obligations.ClosuresBulletin := by
  intro a first states s h hf hl
  obtain ⟨w, hw⟩ : ∃ w : State, w = { s with watermark := some a.seq } := ⟨_, rfl⟩
  obtain ⟨h1, h2, h3, h4⟩ := takeClosures_spec w first states
  obtain ⟨u, hu⟩ : ∃ u, u = w.takeClosures first states := ⟨_, rfl⟩
  rw [← hu] at h1 h2 h3 h4
  have ws : w.ship = s.ship := by rw [hw]
  have lost : u.ship.linkLost = s.ship.linkLost := by rw [h4, ws]
  have hm := bulletin_taken h hf (b := .closures first states) (by simp [Bulletin.bytes]; omega) (hw ▸ hu.symm) lost
  have mc : ∀ t c, (u.revived t).closure c = Tab.fetchD u.ship.closures c .unknown := fun _ _ => rfl
  have diff := passabilityDiffers_iff w.ship.closures u.ship.closures
  refine ⟨_, _, rfl, hm, fun hr c => ?_, fun hr => ?_, fun hc => ?_, fun hc => ?_, ?_⟩
  · rw [mc, h1, if_pos hr, fetchD_setClosures, ws]
    rfl
  · show u.ship.closures = _
    rw [h1, if_neg hr, ws]
  · obtain ⟨c, h8, hc⟩ := hc
    have hd : passabilityDiffers w.ship.closures u.ship.closures = true := by
      refine diff.2 ⟨c, h8, ?_⟩
      rw [ws]
      exact fun e => hc.elim (fun ⟨x, y⟩ => y (e.1 x)) fun ⟨x, y⟩ => y (e.2 x)
    have hi := h2 hd
    rw [hw] at hi
    exact hi
  · refine (h3 (Bool.eq_false_iff.2 fun hd => ?_)).trans (by rw [hw])
    obtain ⟨c, h8, hn⟩ := diff.1 hd
    exact hn (ws ▸ hc c h8)
  · refine (congrArg (fun q : State => { (q.revived (s.bulletinArrives a (.closures first states))) with
      ship := { (q.revived (s.bulletinArrives a (.closures first states))).ship with closures := s.ship.closures }
      dests := s.dests }) h4 : _).trans ?_
    rw [hw]
    rfl

/-! ### The LIGHT bulletin (R18) -/

/-- R18, R35: everything that a LIGHT bulletin can do. -/
theorem takeLight_spec (s : State) (level : Nat) :
    (s.takeLight level).ship.light = (match level with
      | 0 => .day
      | 1 => .night
      | _ => s.ship.light) ∧
    ((s.takeLight level).ship.light = s.ship.light → s.takeLight level = s) ∧
    (Tab.Rising s.displays → s.Marks (s.takeLight level) fun _ x u =>
      (s.takeLight level).brightness x.cfg ≠ s.brightness x.cfg ∧ u = emergencyUrgency s.ship.phase) ∧
    s.takeLight level =
      { s with
        ship := { s.ship with light := (s.takeLight level).ship.light }
        displays := (s.takeLight level).displays, strings := (s.takeLight level).strings } := by
  have given : (match level with
      | 0 => .day
      | 1 => .night
      | _ => s.ship.light) = (Light.ofCode level).getD s.ship.light := by
    match level with
    | 0 => rfl
    | 1 => rfl
    | _ + 2 => rfl
  rw [given]
  by_cases h : (Light.ofCode level).getD s.ship.light = s.ship.light
  · have e : s.takeLight level = s := by
      unfold State.takeLight
      cases hl : Light.ofCode level with
      | none => rfl
      | some l =>
        rw [hl] at h
        exact if_pos h.symm
    rw [e, h]
    exact ⟨rfl, fun _ => rfl, fun _ => State.Marks.none fun _ _ _ _ hu => hu.1 rfl, rfl⟩
  · obtain ⟨l, hl⟩ : ∃ l, Light.ofCode level = some l := by
      cases hl : Light.ofCode level with
      | none => exact absurd (by rw [hl]; rfl) h
      | some l => exact ⟨l, rfl⟩
    rw [hl, Option.getD_some] at h ⊢
    obtain ⟨t, ht⟩ : ∃ t, t = s.onShip fun k => { k with light := l } := ⟨_, rfl⟩
    have e : s.takeLight level = t.markLightQuiet s.ship.light s.ship.quiet := by
      unfold State.takeLight
      rw [hl, ht]
      exact if_neg (Ne.symm h)
    have ts : t.ship = { s.ship with light := l } := by rw [ht]; rfl
    have g : t.ScreensOnly (t.markLightQuiet s.ship.light s.ship.quiet) := markWhere_screens _ _ _
    have gl : (t.markLightQuiet s.ship.light s.ship.quiet).ship.light = l := by rw [g.ship_eq, ts]
    rw [e, gl]
    refine ⟨rfl, fun hn => absurd hn h, fun hr => ?_, ?_⟩
    · have m := (markWhere_round t (by rw [ht]; exact hr) (fun _ x =>
          brightnessUnder t.ship.phase s.ship.light s.ship.quiet x.cfg != t.brightness x.cfg ||
            t.screenModeUnder s.ship.quiet x.cfg != t.screenMode x.cfg) t.writeUrgency).congr
        (s' := s) (t' := t.markLightQuiet s.ship.light s.ship.quiet) (by rw [ht]; rfl) (by rw [ht]; rfl) rfl rfl fun _ => rfl
      refine m.congr_marks fun d x _ u => ?_
      have mode : t.screenModeUnder s.ship.quiet x.cfg = t.screenMode x.cfg := by rw [State.screenMode, ts]
      have bright : brightnessUnder t.ship.phase s.ship.light s.ship.quiet x.cfg = s.brightness x.cfg := by rw [ts]; rfl
      have after : (t.markLightQuiet s.ship.light s.ship.quiet).brightness x.cfg = t.brightness x.cfg := by
        rw [State.brightness, g.ship_eq]
        rfl
      have urgent : t.writeUrgency = emergencyUrgency s.ship.phase := by rw [t.writeUrgency_eq, ts]
      rw [mode, bright, after, urgent, bne_self_eq_false, Bool.or_false, bne_iff_ne]
      exact and_congr_left' ne_comm
    · obtain ⟨x, y, q⟩ : ∃ x y, t.markLightQuiet s.ship.light s.ship.quiet = { t with displays := x, strings := y } := ⟨_, _, g⟩
      rw [q, ht]
      rfl

/-- R18: the state `t` with every part that a change of the light reaches put back as `s` has it. -/
def State.lightFrame (s t : State) : State :=
  { t with ship := { t.ship with light := s.ship.light }, displays := s.displays, strings := s.strings }

/-- Settles O17: the level, and the marks of the displays whose brightness it moves. -/
theorem lightBulletin : Obligations.LightBulletin := by
  intro a level s h hf ok
  obtain ⟨t, ht⟩ : ∃ t, t = s.bulletinArrives a (.light level) := ⟨_, rfl⟩
  obtain ⟨w, hw⟩ : ∃ w : State, w = { s with watermark := some a.seq } := ⟨_, rfl⟩
  obtain ⟨h1, h2, h3, h4⟩ := takeLight_spec w level
  obtain ⟨u, hu⟩ : ∃ u, u = w.takeLight level := ⟨_, rfl⟩
  rw [← hu] at h1 h2 h3 h4
  have ws : w.ship = s.ship := by rw [hw]
  have lost : u.ship.linkLost = s.ship.linkLost := by rw [h4, ws]
  have hm := bulletin_taken h hf (b := .light level) (by simp [Bulletin.bytes]) (hw ▸ hu.symm) lost
  rw [← ht] at hm
  rw [ws] at h1
  refine ⟨t, u.revived t, by rw [ht]; rfl, hm, h1, fun hk => ?_, ?_, ?_⟩
  · have e : u = w := h2 (hk.trans (by rw [ws]))
    rw [e, hw]
    exact ⟨rfl, rfl⟩
  · refine ((h3 (by rw [hw]; exact ok.displays.1)).same (s' := s) (t' := u.revived t) ?_ ?_).congr_marks fun d x _ v => ?_
    · rw [hw]
      exact ⟨⟨rfl, rfl, rfl, rfl, rfl, rfl⟩, rfl, rfl⟩
    · exact ⟨⟨rfl, rfl, rfl, rfl, rfl, rfl⟩, rfl, rfl⟩
    · rw [State.brightness, State.brightness, ws]
      rfl
  · refine (congrArg (fun q => s.lightFrame (q.revived t)) h4 : s.lightFrame (u.revived t) = _).trans ?_
    rw [hw]
    rfl

/-! ### CABIN_MARK and ASSIST_CLEAR (R84, R89, R90) -/

theorem cabinListOk_iff (ns : List Nat) : cabinListOk ns = true ↔ 1 ≤ ns.length ∧ ns.length ≤ 32 := by
  simp [cabinListOk]

theorem Phase.emergency_iff (p : Phase) : p.emergency = true ↔ p = .alert ∨ p = .muster := by cases p <;> decide

/-- R84: the displays of the linked cabins that a condition names. -/
theorem showsCabin_iff (s : State) (p : Cabin → Bool) (d : Nat) (x : Display) :
    s.showsCabin p d x = true ↔ x.cfg.cls = .cabin ∧ ∃ e ∈ s.cabins, e.2.display = d ∧ p e.2 = true := by
  simp [State.showsCabin]

/-- R84: cabins changed, and the displays of some of them marked at one urgency. -/
theorem cabinsMarked_spec (s : State) (cabins : Tab Cabin) (p : Cabin → Bool) (v : Urgency) (hr : Tab.Rising s.displays) :
    s.Marks (({ s with cabins := cabins } : State).markWhere (s.showsCabin p) v) fun d x u =>
      x.cfg.cls = .cabin ∧ (∃ e ∈ s.cabins, e.2.display = d ∧ p e.2 = true) ∧ u = v := by
  refine ((markWhere_round { s with cabins := cabins } hr (s.showsCabin p) v).congr (s' := s) rfl rfl rfl rfl fun _ => rfl).congr_marks
    fun d x _ u => ?_
  rw [showsCabin_iff, and_assoc]

/-- R89, R90: a bulletin to the cabins that changes them under a condition and marks the displays of those that another one names. -/
theorem cabinBulletin_taken {a : Arrival} {b : Bulletin} {s w : State} {c : Prop} [Decidable c] {cabins : Tab Cabin} {p : Cabin → Bool}
    {v : Urgency} (h : s.Hears a) (hf : s.Fresh a.seq) (hb : b.bytes.length ≤ 1024) (hw : w = { s with watermark := some a.seq })
    (hu : w.applyBulletin b = if c then ({ w with cabins := cabins } : State).markWhere (w.showsCabin p) v else w) :
    ∃ t m, s.bulletinArrives a b = t ∧ m.LinkRestored t s.ship.linkLost ∧ m.cabins = (if c then cabins else s.cabins) ∧
      (s.TablesOk → s.Marks m fun d x u =>
        c ∧ x.cfg.cls = .cabin ∧ (∃ e ∈ s.cabins, e.2.display = d ∧ p e.2 = true) ∧ u = v) ∧
      { m with cabins := s.cabins, displays := s.displays, strings := s.strings } = s.heard t a.seq := by
  obtain ⟨t, ht⟩ : ∃ t, t = s.bulletinArrives a b := ⟨_, rfl⟩
  obtain ⟨u, e⟩ : ∃ u, u = w.applyBulletin b := ⟨_, rfl⟩
  rw [← e] at hu
  have hm : u.ship.linkLost = s.ship.linkLost → (u.revived t).LinkRestored t s.ship.linkLost := fun hk => by
    rw [ht]
    exact bulletin_taken h hf hb (hw ▸ e.symm) hk
  by_cases hc : c
  · rw [if_pos hc] at hu
    have g := markWhere_screens { w with cabins := cabins } (w.showsCabin p) v
    rw [← hu] at g
    have us : u.ship = s.ship := by rw [g.ship_eq, hw]
    refine ⟨t, u.revived t, ht.symm, hm (by rw [us]), ?_, fun ok => ?_, ?_⟩
    · rw [if_pos hc]
      exact g.cabins_eq
    · have m := cabinsMarked_spec w cabins p v (by rw [hw]; exact ok.displays.1)
      rw [← hu] at m
      refine (m.congr (s' := s) (t' := u.revived t) ?_ ?_ rfl rfl fun _ => rfl).congr_marks fun d x _ v => ?_
      · rw [hw]
      · rw [hw]
      · rw [and_iff_right hc, hw]
    · obtain ⟨x, y, q⟩ : ∃ x y, u = { w with cabins := cabins, displays := x, strings := y } := ⟨_, _, g⟩
      rw [q, hw]
      rfl
  · rw [if_neg hc] at hu
    refine ⟨t, u.revived t, ht.symm, hm (by rw [hu, hw]), ?_, fun _ => ?_, ?_⟩
    · rw [if_neg hc, hu, hw]
      rfl
    · refine (State.Marks.none (s := s) fun _ _ _ _ hu => hc hu.1).congr rfl rfl ?_ ?_ fun _ => ?_
      all_goals rw [hu, hw]; rfl
    · rw [hu, hw]
      rfl

theorem length_writeU16s (ns : List Nat) : (writeU16s ns).length = 2 * ns.length := by
  induction ns with
  | nil => rfl
  | cons n ns ih =>
    show (be16 n ++ writeU16s ns).length = _
    rw [List.length_append, ih, List.length_cons]
    show 2 + 2 * ns.length = _
    omega

/-- R90: CABIN_MARK as the state it leaves. -/
theorem cabinMark_eq (s : State) (ns : List Nat) :
    s.cabinMark ns =
      if 1 ≤ ns.length ∧ ns.length ≤ 32 ∧ (s.ship.phase = .alert ∨ s.ship.phase = .muster) then
        ({ s with
          cabins := s.cabins.map fun e => (e.1, { e.2 with swept := e.2.swept || ns.contains e.2.number }) } : State).markWhere
          (s.showsCabin fun c => ns.contains c.number && !c.swept) .safety
      else s := by
  have hc : (cabinListOk ns && s.ship.phase.emergency) = true ↔
      1 ≤ ns.length ∧ ns.length ≤ 32 ∧ (s.ship.phase = .alert ∨ s.ship.phase = .muster) := by
    rw [Bool.and_eq_true, cabinListOk_iff, Phase.emergency_iff, and_assoc]
  have hm : (Tab.mapAll s.cabins fun c => if ns.contains c.number then { c with swept := true } else c) =
      s.cabins.map fun e => (e.1, { e.2 with swept := e.2.swept || ns.contains e.2.number }) := by
    refine List.map_congr_left fun e _ => congrArg (Prod.mk e.1) ?_
    by_cases hn : ns.contains e.2.number = true
    · simp only [hn, if_true, Bool.or_true]
    · simp only [hn, Bool.false_eq_true, if_false, Bool.or_false]
  unfold State.cabinMark
  rw [hm]
  exact if_congr hc rfl rfl

/-- R89: ASSIST_CLEAR as the state it leaves. -/
theorem assistClear_eq (s : State) (ns : List Nat) :
    s.assistClear ns =
      if 1 ≤ ns.length ∧ ns.length ≤ 32 then
        ({ s with
          cabins := s.cabins.map fun e => (e.1, { e.2 with assist := e.2.assist && !ns.contains e.2.number }) } : State).markWhere
          (s.showsCabin fun c => ns.contains c.number && c.assist)
          (if s.ship.phase = .alert ∨ s.ship.phase = .muster then .safety else .service)
      else s := by
  have hm : (Tab.mapAll s.cabins fun c => if ns.contains c.number then { c with assist := false } else c) =
      s.cabins.map fun e => (e.1, { e.2 with assist := e.2.assist && !ns.contains e.2.number }) := by
    refine List.map_congr_left fun e _ => congrArg (Prod.mk e.1) ?_
    by_cases hn : ns.contains e.2.number = true
    · simp only [hn, if_true, Bool.not_true, Bool.and_false]
    · simp only [hn, Bool.false_eq_true, if_false, Bool.not_false, Bool.and_true]
  unfold State.assistClear
  rw [hm]
  simp only [cabinListOk_iff, Phase.emergency_iff]

/-- Settles O18: the flags of the listed cabins, and the marks of their displays. -/
theorem cabinBulletins : Obligations.CabinBulletins := by
  intro a ns s h hf hl
  have size : ∀ k, (byteOf k :: byteOf ns.length :: writeU16s ns).length ≤ 1024 := fun k => by
    rw [List.length_cons, List.length_cons, length_writeU16s]
    omega
  constructor
  · obtain ⟨t, m, e, link, cabins, marks, rest⟩ := cabinBulletin_taken h hf (b := .cabinMark ns) (size 4) rfl (cabinMark_eq _ ns)
    refine ⟨t, m, congrArg Host.Outcome.next e, link, cabins, fun ok => (marks ok).congr_marks fun d x _ u => ?_, rest⟩
    simp only [Bool.and_eq_true, List.contains_iff_mem, Bool.not_eq_true']
  · obtain ⟨t, m, e, link, cabins, marks, rest⟩ := cabinBulletin_taken h hf (b := .assistClear ns) (size 5) rfl (assistClear_eq _ ns)
    refine ⟨t, m, congrArg Host.Outcome.next e, link, cabins, fun ok => (marks ok).congr_marks fun d x _ u => ?_, rest⟩
    simp only [Bool.and_eq_true, List.contains_iff_mem]

end Sys2Proof.Machine
end

section
/-! SUPPORT. The operations that leave the Ship State Unit, the node parameters, the cabins and the quiet copy as they are. -/

namespace Sys2Proof.Machine

/-- Every part but the Ship State Unit, the node parameters, the cabins and the string controllers' quiet copy. -/
abbrev steadyParts : List Part :=
  [.pending, .now, .straps, .displays, .nodes, .segments, .dests, .lists, .programme, .lastEvaluation, .lossReported, .notices,
   .templates, .selection, .texts, .regions, .strings, .fore, .aft, .address, .watermark, .replies, .reports, .reportArrival,
   .reportSeq, .draws]

/-- From one state to another the Ship State Unit, the node parameters, the cabins and the quiet copy stay. -/
abbrev State.Steady (s t : State) : Prop := s.Only t steadyParts

theorem steady_of {s t : State} (ship : t.ship = s.ship) (node : t.node = s.node) (cabins : t.cabins = s.cabins)
    (copy : t.quietCopy = s.quietCopy) : s.Steady t := by
  intro p hp
  cases p
  case ship => exact ship
  case node => exact node
  case cabins => exact cabins
  case quietCopy => exact copy
  all_goals simp at hp

theorem steady_refl (s : State) : s.Steady s := State.Only.refl _ _

theorem steady_screens {s t : State} (h : s.ScreensOnly t) : s.Steady t := h.only.mono _ (by decide)

theorem queueReport_steady (s : State) (k : ReportKind) (a b : Nat) : s.Steady (s.queueReport k a b) :=
  (queueReport_only s k a b).mono _ (by decide)

theorem placement_steady (s : State) (d : Nat) (away : Bool) : s.Steady (s.placement d away) :=
  (placement_only s d away).mono _ (by decide)

theorem recount_steady (s : State) (d : Nat) : s.Steady (s.recount d) := (recount_only s d).mono _ (by decide)

theorem recountStation_steady (s : State) (d : Option Nat) : s.Steady (s.recountStation d) :=
  (recountStation_only s d).mono _ (by decide)

theorem setPort_steady (s : State) (p : Port) (l : LinkPort) : s.Steady (s.setPort p l) := (setPort_only s p l).mono _ (by decide)

/-! ### The display strings -/

theorem setStr_steady (s : State) (k : StringNo) (c : StringCtl) : s.Steady (s.setStr k c) := steady_screens (setStr_screens s k c)

theorem onRuntime_steady (s : State) (d : Nat) (f : DisplayRuntime → DisplayRuntime) : s.Steady (s.onRuntime d f) :=
  steady_screens (onRuntime_screens s d f)

theorem endTxn_steady (s : State) (k : StringNo) : s.Steady (s.endTxn k) := setStr_steady _ _ _

theorem releaseEnd_steady (s : State) (k : StringNo) : s.Steady ((s.release k).endTxn k) :=
  (setStr_steady _ _ _).trans (endTxn_steady _ _)

theorem returnToPlace_steady (s : State) (d : Nat) (q : Option (Urgency × Nat)) : s.Steady (s.returnToPlace d q) := by
  unfold State.returnToPlace
  split
  · exact steady_screens (enterAt_screens _ _ _ _)
  · exact onRuntime_steady _ _ _

theorem applyStale_steady (s : State) (d : Nat) : s.Steady (s.applyStale d) := by
  unfold State.applyStale
  split
  · exact steady_refl _
  · split
    · exact steady_screens ((setDisplay_screens _ _ _).trans (mark_screens _ _ _))
    · exact steady_refl _

theorem faultReported_steady (s : State) (d : Nat) (c : FaultCause) : s.Steady (s.faultReported d c) :=
  (onRuntime_steady _ _ _).trans (queueReport_steady _ _ _ _)

theorem countFailure_steady (s : State) (t : Txn) (c : FaultCause) : s.Steady (s.countFailure t c) := by
  unfold State.countFailure
  split
  · exact steady_refl _
  · split
    · exact faultReported_steady _ _ _
    · exact ((onRuntime_steady _ _ _).trans (returnToPlace_steady _ _ _)).trans (applyStale_steady _ _)

theorem failTry_steady (s : State) (k : StringNo) (t : Txn) (c : FaultCause) : s.Steady (s.failTry k t c) := by
  unfold State.failTry
  split
  · exact setStr_steady _ _ _
  · unfold State.failTransaction
    split
    · exact (releaseEnd_steady _ _).trans (countFailure_steady _ _ _)
    · exact (endTxn_steady _ _).trans (countFailure_steady _ _ _)
    · exact (releaseEnd_steady _ _).trans (onRuntime_steady _ _ _)

theorem mismatch_steady (s : State) (k : StringNo) (t : Txn) : s.Steady (s.mismatch k t) := by
  unfold State.mismatch
  split
  · exact (releaseEnd_steady _ _).trans (faultReported_steady _ _ _)
  · exact steady_refl _
  · exact (releaseEnd_steady _ _).trans (onRuntime_steady _ _ _)

theorem onReady_steady (s : State) (k : StringNo) (t : Txn) (c : Nat) : s.Steady (s.onReady k t c) := by
  unfold State.onReady
  split
  · exact endTxn_steady _ _
  · split
    · split
      · exact setStr_steady _ _ _
      · exact (((releaseEnd_steady _ _).trans (onRuntime_steady _ _ _)).trans (queueReport_steady _ _ _ _)).trans
          (steady_screens (mark_screens _ _ _))
      · exact steady_refl _
    · exact mismatch_steady _ _ _

theorem onBusy_steady (s : State) (k : StringNo) (t : Txn) (ms : Nat) : s.Steady (s.onBusy k t ms) := by
  have ended : ∀ f, s.Steady ((s.endTxn k).onRuntime t.display f) := fun f => (endTxn_steady _ _).trans (onRuntime_steady _ _ _)
  unfold State.onBusy
  dsimp only
  split
  · exact (ended _).trans (onRuntime_steady _ _ _)
  · exact ((ended _).trans (returnToPlace_steady _ _ _)).trans (applyStale_steady _ _)
  · exact ended _

theorem onRefresh_steady (s : State) (k : StringNo) (t : Txn) (dg : Word16) (ms : Nat) : s.Steady (s.onRefresh k t dg ms) :=
  ((releaseEnd_steady _ _).trans (onRuntime_steady _ _ _)).trans (applyStale_steady _ _)

/-! ### WRITE -/

/-- What a WRITE leaves, where it is taken, is steady. -/
def WriteSteady (s : State) (w : WriteResult) : Prop := ∀ t b, w = .ok (t, b) → s.Steady t

theorem writeSteady_error (s : State) (r : ResultCode) : WriteSteady s (.error r) := by rintro _ _ ⟨⟩

theorem writeSteady_ok {s t : State} {b : Bool} (h : s.Steady t) : WriteSteady s (.ok (t, b)) := by
  rintro _ _ ⟨⟩
  exact h

/-- A check before a WRITE. -/
theorem writeSteady_check {s : State} {c : Prop} [Decidable c] {r : ResultCode} {w : WriteResult} (h : WriteSteady s w) :
    WriteSteady s (if c then .error r else w) := by
  split
  · exact writeSteady_error _ _
  · exact h

theorem markWhere_steady {s t : State} (h : s.Steady t) (p : Nat → Display → Bool) (u : Urgency) : s.Steady (t.markWhere p u) :=
  h.trans (steady_screens (markWhere_screens _ _ _))

theorem markAll_steady {s t : State} (h : s.Steady t) (u : Urgency) : s.Steady (t.markAll u) :=
  h.trans (steady_screens (markAll_screens _ _))

theorem relist_steady {s t : State} (h : s.Steady t) (p : Nat → Bool) : s.Steady (t.relist p) :=
  h.trans (steady_screens ((clearHeldMany_screens _ _ _).trans (markWhere_screens _ _ _)))

theorem changeDisplay_steady (s : State) (d : Nat) (x : Display) (b : DisplayConfig) : s.Steady (s.changeDisplay d x b) := by
  have queued := steady_screens (requeue_screens s d x b (x.rt.replaced x.cfg b))
  have marked : ∀ (t : State) (c : Bool), t.Steady (if c then t.mark d t.writeUrgency else t) := fun t c => by
    split
    · exact steady_screens (mark_screens _ _ _)
    · exact steady_refl _
  have placed : ∀ (t : State) (c : Prop) [Decidable c] (v : Bool), t.Steady (if c then t.placement d v else t) := fun t c _ v => by
    split
    · exact placement_steady _ _ _
    · exact steady_refl _
  exact (queued.trans (marked _ _)).trans (placed _ _ _)

theorem createDisplay_steady (s : State) (d : Nat) (c : DisplayConfig) : s.Steady (s.createDisplay d c) :=
  (steady_screens ((setDisplay_screens _ _ _).trans (mark_screens _ _ _))).trans (placement_steady _ _ _)

theorem writeEmpty_steady (s : State) (t i : Nat) : WriteSteady s (s.writeEmpty t i) := by
  unfold State.writeEmpty
  split
  · split
    · exact writeSteady_ok (steady_refl _)
    · exact writeSteady_error _ _
  · exact writeSteady_ok (steady_of rfl rfl rfl rfl)
  · exact writeSteady_ok (steady_of rfl rfl rfl rfl)
  · exact writeSteady_ok (steady_of rfl rfl rfl rfl)
  · exact writeSteady_ok (steady_refl _)

theorem writeDisplay_steady (s : State) (d : Nat) (fs : FieldList) : WriteSteady s (s.writeDisplay d fs) := by
  refine writeSteady_check ?_
  split
  · exact writeSteady_check (writeSteady_ok (createDisplay_steady _ _ _))
  · exact writeSteady_check (writeSteady_check (writeSteady_ok (changeDisplay_steady _ _ _ _)))

theorem writeString_steady (s : State) (i : Nat) (fs : FieldList) : WriteSteady s (s.writeString i fs) :=
  writeSteady_check (writeSteady_check (writeSteady_ok (setStr_steady _ _ _)))

theorem writeNodes_steady (s : State) (i : Nat) (fs : FieldList) : WriteSteady s (s.writeNodes i fs) :=
  writeSteady_check (writeSteady_ok (steady_of rfl rfl rfl rfl))

theorem writeSegment_steady (s : State) (i : Nat) (fs : FieldList) : WriteSteady s (s.writeSegment i fs) :=
  writeSteady_check (writeSteady_check (writeSteady_check (writeSteady_check (writeSteady_ok (steady_of rfl rfl rfl rfl)))))

theorem writeDest_steady (s : State) (i : Nat) (fs : FieldList) : WriteSteady s (s.writeDest i fs) :=
  writeSteady_check (writeSteady_check (writeSteady_ok (steady_of rfl rfl rfl rfl)))

theorem writeList_steady (s : State) (i : Nat) (fs : FieldList) : WriteSteady s (s.writeList i fs) :=
  writeSteady_check (writeSteady_ok (relist_steady (by exact steady_of rfl rfl rfl rfl) _))

theorem updateEntry_steady (s : State) (e : ProgEntry) (fs : FieldList) : s.Steady (s.updateEntry e fs) := by
  unfold State.updateEntry
  dsimp only
  split
  · exact steady_refl _
  · exact markWhere_steady (by exact steady_of rfl rfl rfl rfl) _ _

theorem writeProgramme_steady (s : State) (id : Nat) (fs : FieldList) : WriteSteady s (s.writeProgramme id fs) := by
  refine writeSteady_check ?_
  split
  · exact writeSteady_check (writeSteady_ok (markWhere_steady (by exact steady_of rfl rfl rfl rfl) _ _))
  · exact writeSteady_check (writeSteady_ok (updateEntry_steady _ _ _))

theorem writeNotice_steady (s : State) (o i : Nat) (fs : FieldList) : WriteSteady s (s.writeNotice o i fs) := by
  refine writeSteady_check (writeSteady_check (writeSteady_ok ?_))
  have stored : ∀ ns, s.Steady { s with notices := ns } := fun ns => steady_of rfl rfl rfl rfl
  split
  · exact stored _
  · exact (stored _).trans (steady_screens (markBy_screens _ _))

theorem writeText_steady (s : State) (o i : Nat) (fs : FieldList) : WriteSteady s (s.writeText o i fs) :=
  writeSteady_check (writeSteady_ok (markAll_steady (by exact steady_of rfl rfl rfl rfl) _))

theorem writeTemplate_steady (s : State) (i : Nat) (fs : FieldList) : WriteSteady s (s.writeTemplate i fs) := by
  refine writeSteady_check ?_
  split
  · exact writeSteady_error _ _
  · exact writeSteady_ok (markWhere_steady (by exact steady_of rfl rfl rfl rfl) _ _)

theorem writeSelection_steady (s : State) (i : Nat) (fs : FieldList) : WriteSteady s (s.writeSelection i fs) :=
  writeSteady_check (writeSteady_ok (markWhere_steady (by exact steady_of rfl rfl rfl rfl) _ _))

theorem writeRegion_steady (s : State) (i : Nat) (fs : FieldList) : WriteSteady s (s.writeRegion i fs) :=
  writeSteady_check (writeSteady_check (writeSteady_ok (steady_of rfl rfl rfl rfl)))

/-! ### CLEAR and CLEAR_TABLE -/

/-- What a CLEAR leaves, where it is taken, is steady. -/
def ClearSteady (s : State) (w : Except ResultCode State) : Prop := ∀ t, w = .ok t → s.Steady t

theorem clearSteady_error (s : State) (r : ResultCode) : ClearSteady s (.error r) := by rintro _ ⟨⟩

theorem clearSteady_ok {s t : State} (h : s.Steady t) : ClearSteady s (.ok t) := by
  rintro _ ⟨⟩
  exact h

theorem removeDisplay_steady (s : State) (d : Nat) : s.Steady (s.removeDisplay d) := by
  have removed : (s.leaveQueue d).Steady { s.leaveQueue d with displays := Tab.discard (s.leaveQueue d).displays d } :=
    steady_of rfl rfl rfl rfl
  exact ((steady_screens (leaveQueue_screens s d)).trans removed).trans (placement_steady _ _ _)

theorem clearDisplays_steady (s : State) (hit : Nat → Bool) : ClearSteady s (s.clearDisplays hit) := by
  unfold State.clearDisplays
  dsimp only
  split
  · exact clearSteady_error _ _
  · exact clearSteady_ok (foldl_only _ removeDisplay_steady _ _)

theorem clearString_steady (s : State) (i : Nat) : ClearSteady s (s.clearString i) := by
  unfold State.clearString
  split
  · exact clearSteady_error _ _
  · exact clearSteady_ok (setStr_steady _ _ _)

theorem clearStrings_steady (s : State) : ClearSteady s s.clearStrings := by
  unfold State.clearStrings
  split
  · exact clearSteady_ok (steady_of rfl rfl rfl rfl)
  · exact clearSteady_error _ _

theorem clearNodes_steady (s : State) (hit : Nat → Bool) : s.Steady (s.clearNodes hit) := by
  unfold State.clearNodes
  split
  · exact steady_refl _
  · exact steady_of rfl rfl rfl rfl

theorem clearSegments_steady (s : State) (hit : Nat → Bool) : s.Steady (s.clearSegments hit) := by
  unfold State.clearSegments
  split
  · exact steady_refl _
  · exact steady_of rfl rfl rfl rfl

theorem destRemoved_steady (s : State) (d : Nat) (t : Dest) : s.Steady (s.destRemoved d t) := by
  unfold State.destRemoved
  split
  · exact (reportLoss_only _ _ _).mono _ (by decide)
  · exact steady_refl _

theorem clearDest_steady (s : State) (d : Nat) : s.Steady (s.clearDest d) := by
  unfold State.clearDest
  split
  · exact steady_refl _
  · exact (markWhere_steady (by exact steady_of rfl rfl rfl rfl) _ _).trans (destRemoved_steady _ _ _)

theorem clearList_steady (s : State) (i : Nat) : s.Steady (s.clearList i) := relist_steady (by exact steady_of rfl rfl rfl rfl) _

theorem clearProgramme_steady (s : State) (id : Nat) : s.Steady (s.clearProgramme id) := by
  unfold State.clearProgramme
  split
  · exact steady_refl _
  · exact markWhere_steady (by exact steady_of rfl rfl rfl rfl) _ _

theorem clearNotice_steady (s : State) (i : Nat) : s.Steady (s.clearNotice i) := by
  have removed : s.Steady { s with notices := Tab.discard s.notices i } := steady_of rfl rfl rfl rfl
  unfold State.clearNotice
  split
  · exact steady_refl _
  · exact removed.trans (steady_screens (markBy_screens _ _))

theorem clearTexts_steady (s : State) (o : Nat) (hit : Nat → Bool) : s.Steady (s.clearTexts o hit) :=
  markAll_steady (by exact steady_of rfl rfl rfl rfl) _

theorem clearTemplate_steady (s : State) (i : Nat) : s.Steady (s.clearTemplate i) := by
  unfold State.clearTemplate
  split
  · exact steady_refl _
  · exact markWhere_steady (by exact steady_of rfl rfl rfl rfl) _ _

theorem clearSelection_steady (s : State) (i : Nat) : s.Steady (s.clearSelection i) :=
  markWhere_steady (t := s.setSelection i none) (by exact steady_of rfl rfl rfl rfl) _ _

end Sys2Proof.Machine
end

section
/-! SUPPORT. What the readers of the NODE fields do when the fields change. -/

namespace Sys2Proof.Machine

/-! ### NODE (R167) -/

/-- R42: the destinations after new kind weights. -/
theorem weights_taken (s : State) (n : NodeParams) {u : State}
    (hu : u = if s.node.weights ≠ n.weights then ({ s with node := n } : State).invalidateAll else { s with node := n }) :
    u = { s with node := n, dests := u.dests } ∧ (s.node.weights ≠ n.weights → s.InvalidatesAll u) ∧
      (s.node.weights = n.weights → u.dests = s.dests) := by
  by_cases h : s.node.weights = n.weights
  · rw [if_neg (not_not.2 h)] at hu
    rw [hu]
    exact ⟨rfl, fun hn => absurd h hn, fun _ => rfl⟩
  · rw [if_pos h] at hu
    rw [hu]
    exact ⟨rfl, fun _ => invalidateAll_invalidates { s with node := n }, fun hy => absurd hy h⟩

/-- R167: the marks of a new walk rate. -/
theorem walkRate_taken (u : State) (c : Prop) [Decidable c] {v : State} (hv : v = if c then u.markAll u.writeUrgency else u) :
    u.ScreensOnly v ∧ (c → u.Marks v fun _ _ w => w = emergencyUrgency u.ship.phase) ∧ (¬c → v = u) := by
  by_cases h : c
  · rw [if_pos h] at hv
    rw [hv, u.writeUrgency_eq]
    exact ⟨markAll_screens _ _, fun _ => markAll_round _ _, fun hn => absurd h hn⟩
  · rw [if_neg h] at hv
    rw [hv]
    exact ⟨.refl u, fun hy => absurd hy h, fun _ => rfl⟩

/-- R19, R167: quiet hours judged again, or not, after every display was marked or none was. -/
theorem quietWindow_taken {u v : State} (c : Prop) [Decidable c] {t : State} (ht : t = if c then v.evaluateQuiet else v)
    (screens : u.ScreensOnly v) (marked : Prop) (walk : marked → u.Marks v fun _ _ w => w = emergencyUrgency u.ship.phase)
    (still : ¬marked → v = u) :
    (c → t.QuietInForce ∧ t.quietCopy = if t.ship.quiet = u.ship.quiet then u.quietCopy else t.ship.quiet) ∧
      (¬c → t = v) ∧
      (Tab.Rising u.displays → u.Marks t fun _ x w => (marked ∨ u.ShowsApart t x.cfg) ∧ w = emergencyUrgency u.ship.phase) ∧
      t = { u with
        ship := { u.ship with quiet := t.ship.quiet }, displays := t.displays, strings := t.strings, quietCopy := t.quietCopy } := by
  have urgency : emergencyUrgency v.ship.phase = emergencyUrgency u.ship.phase := by rw [screens.ship_eq]
  by_cases h : c
  · rw [if_pos h] at ht
    rw [ht]
    obtain ⟨ship, copied, apart, absorbed, frame⟩ := evaluateQuiet_spec v
    refine ⟨fun _ => ⟨?_, ?_⟩, fun hn => absurd h hn, fun rising => ?_, ?_⟩
    · have node : v.evaluateQuiet.node = v.node := (congrArg State.node frame :)
      unfold State.QuietInForce
      rw [ship, node]
      exact quietNow_iff v
    · rw [copied, screens.ship_eq, screens.quietCopy_eq]
    · by_cases hm : marked
      · have all := absorbed u _ (walk hm) (Nat.le_of_eq (by rw [urgency]))
        exact all.congr_marks fun d x _ w => (and_iff_right (Or.inl hm)).symm
      · have e := still hm
        have round := apart (by rw [e]; exact rising)
        rw [e] at round ⊢
        exact round.congr_marks fun d x _ w => and_congr_left' (or_iff_right hm).symm
    · obtain ⟨x, y, q⟩ : ∃ x y, v = { u with displays := x, strings := y } := ⟨_, _, screens⟩
      rw [ship] at frame ⊢
      refine frame.trans ?_
      rw [q]
  · rw [if_neg h] at ht
    rw [ht]
    refine ⟨fun hy => absurd hy h, fun _ => rfl, fun _ => ?_, ?_⟩
    · by_cases hm : marked
      · exact (walk hm).congr_marks fun d x _ w => (and_iff_right (Or.inl hm)).symm
      · rw [still hm]
        exact .none fun d x w _ hw => hw.1.elim hm fun ha => ha.elim (fun g => g rfl) fun g => g rfl
    · obtain ⟨x, y, q⟩ : ∃ x y, v = { u with displays := x, strings := y } := ⟨_, _, screens⟩
      rw [q]

/-- R19, R42, R167: what the readers of the NODE fields do when the fields become those of `n`. -/
theorem setNode_taken (s : State) (n : NodeParams) : (s.setNode n).node = n ∧ s.NodeTaken (s.setNode n) := by
  obtain ⟨u, hu⟩ : ∃ u, u = if s.node.weights ≠ n.weights then ({ s with node := n } : State).invalidateAll else { s with node := n } :=
    ⟨_, rfl⟩
  obtain ⟨v, hv⟩ : ∃ v, v = if s.node.walkRate ≠ n.walkRate then u.markAll u.writeUrgency else u := ⟨_, rfl⟩
  obtain ⟨t, ht⟩ : ∃ t, t = if s.node.quietStart ≠ n.quietStart ∨ s.node.quietEnd ≠ n.quietEnd then v.evaluateQuiet else v := ⟨_, rfl⟩
  have e : s.setNode n = t := by rw [ht, hv, hu]; rfl
  obtain ⟨weighed, invalidated, kept⟩ := weights_taken s n hu
  obtain ⟨screens, walk, unwalked⟩ := walkRate_taken u _ hv
  obtain ⟨judged, unjudged, marks, frame⟩ := quietWindow_taken _ ht screens _ walk unwalked
  have us : u.ship = s.ship := (congrArg State.ship weighed :)
  have uc : u.quietCopy = s.quietCopy := (congrArg State.quietCopy weighed :)
  have shown : u.SameScreens s := by rw [weighed]; exact ⟨⟨rfl, rfl, rfl, rfl, rfl, rfl⟩, rfl, rfl⟩
  have tn : t.node = n := (congrArg State.node frame :).trans (congrArg State.node weighed :)
  have td : t.dests = u.dests := (congrArg State.dests frame :)
  have ts : t.ship = { s.ship with quiet := t.ship.quiet } := by rw [← us]; exact (congrArg State.ship frame :)
  rw [us, uc] at judged
  rw [us] at marks
  rw [e]
  refine ⟨tn, ⟨?_, ?_, ?_, fun ok => ?_, ?_, ?_⟩⟩
  · rw [tn]
    refine ⟨fun h => ?_, fun h => td.trans (kept h)⟩
    have all := invalidated h
    unfold State.InvalidatesAll at all ⊢
    rwa [td]
  · rw [tn]
    refine ⟨judged, fun hs he => ?_⟩
    rw [unjudged (not_or.2 ⟨not_not.2 hs, not_not.2 he⟩), screens.ship_eq, screens.quietCopy_eq]
    exact ⟨us, uc⟩
  · rw [tn]
    intro hw hs he
    rw [unjudged (not_or.2 ⟨not_not.2 hs, not_not.2 he⟩), unwalked (not_not.2 hw)]
    exact ⟨shown.displays.symm, shown.strings.symm⟩
  · rw [tn]
    refine ((marks (shown.displays ▸ ok.displays.1)).same shown (.refl t)).congr_marks fun d x _ w => ?_
    rw [shown.toSameShow.showsApart ⟨rfl, rfl, rfl, rfl, rfl, rfl⟩]
  · rw [ts]
  · refine (congrArg (fun q : State => { q with
      node := s.node, ship := s.ship, dests := s.dests, displays := s.displays, strings := s.strings
      quietCopy := s.quietCopy }) frame : _).trans ?_
    rw [weighed]

end Sys2Proof.Machine
end

section
/-! SUPPORT. The accord of phase, line, drill flag, hold, quiet hours and cabins, kept by every command. -/

namespace Sys2Proof.Machine

/-! ### What a change of state keeps -/

/-- From one state to another the accord of phase, line, drill flag and hold, that of quiet hours, and that of the cabins are kept. -/
structure State.KeepsPhase (s t : State) : Prop where
  phase : s.PhaseOk → s.QuietOk → t.PhaseOk ∧ t.QuietOk
  quiet : s.QuietInForce → t.QuietInForce
  cabins : s.CabinsOk → t.CabinsOk

theorem State.KeepsPhase.refl (s : State) : s.KeepsPhase s := ⟨fun h g => ⟨h, g⟩, id, id⟩

theorem State.KeepsPhase.trans {s t u : State} (h : s.KeepsPhase t) (g : t.KeepsPhase u) : s.KeepsPhase u :=
  ⟨fun p q => (h.phase p q).elim g.phase, g.quiet ∘ h.quiet, g.cabins ∘ h.cabins⟩

theorem State.KeepsPhase.foldl {α : Type} {f : State → α → State} (h : ∀ (s : State) (a : α), s.KeepsPhase (f s a)) (l : List α) (s : State) :
    s.KeepsPhase (l.foldl f s) := by
  induction l generalizing s with
  | nil => exact .refl s
  | cons a l ih => exact (h s a).trans (ih _)

/-- The phase, the line, the drill flag and the hold stay, and a change of quiet hours is copied. -/
structure State.SamePhase (s t : State) : Prop where
  line : t.ship.line = s.ship.line
  phase : t.ship.phase = s.ship.phase
  drill : t.ship.drill = s.ship.drill
  hold : t.ship.hold = s.ship.hold
  holdRunOut : t.ship.holdRunOut = s.ship.holdRunOut
  copied : t.quietCopy = if t.ship.quiet = s.ship.quiet then s.quietCopy else t.ship.quiet

/-- R128: a change of quiet hours that is copied leaves the copy in accord. -/
theorem quietOk_of_copied {s t : State} (h : t.quietCopy = if t.ship.quiet = s.ship.quiet then s.quietCopy else t.ship.quiet)
    (g : s.QuietOk) : t.QuietOk := by
  unfold State.QuietOk at g ⊢
  rw [h, g]
  split
  · exact Eq.symm ‹_›
  · rfl

theorem State.SamePhase.phaseOk {s t : State} (h : s.SamePhase t) (ok : s.PhaseOk) : t.PhaseOk := by
  obtain ⟨line, phase, drill, hold, runOut, -⟩ := h
  refine ⟨?_, ?_, ?_, ?_⟩
  · rw [line, phase]
    exact ok.line
  · rw [phase, drill]
    exact ok.drill
  · rw [hold, phase]
    exact ok.hold
  · rw [runOut, phase]
    exact ok.runOut

theorem State.SamePhase.keeps {s t : State} (h : s.SamePhase t) (quiet : s.QuietInForce → t.QuietInForce)
    (cabins : s.CabinsOk → t.CabinsOk) : s.KeepsPhase t :=
  ⟨fun p q => ⟨h.phaseOk p, quietOk_of_copied h.copied q⟩, quiet, cabins⟩

theorem quietInForce_congr {s t : State} (quiet : t.ship.quiet = s.ship.quiet) (phase : t.ship.phase = s.ship.phase)
    (valid : t.ship.valid = s.ship.valid) (minute : t.ship.minute = s.ship.minute) (start : t.node.quietStart = s.node.quietStart)
    (stop : t.node.quietEnd = s.node.quietEnd) : s.QuietInForce → t.QuietInForce := by
  unfold State.QuietInForce NodeParams.QuietMinute
  rw [quiet, phase, valid, minute, start, stop]
  exact id

theorem cabinsOk_congr {s t : State} (phase : t.ship.phase = s.ship.phase) (cabins : t.cabins = s.cabins) : s.CabinsOk → t.CabinsOk := by
  unfold State.CabinsOk
  rw [phase, cabins]
  exact id

/-- Two states agree in all that the three accords speak of. -/
structure State.SameCourse (s t : State) : Prop where
  line : t.ship.line = s.ship.line
  phase : t.ship.phase = s.ship.phase
  drill : t.ship.drill = s.ship.drill
  hold : t.ship.hold = s.ship.hold
  holdRunOut : t.ship.holdRunOut = s.ship.holdRunOut
  quiet : t.ship.quiet = s.ship.quiet
  valid : t.ship.valid = s.ship.valid
  minute : t.ship.minute = s.ship.minute
  start : t.node.quietStart = s.node.quietStart
  stop : t.node.quietEnd = s.node.quietEnd
  copy : t.quietCopy = s.quietCopy
  cabins : t.cabins = s.cabins

theorem State.SameCourse.samePhase {s t : State} (h : s.SameCourse t) : s.SamePhase t :=
  ⟨h.line, h.phase, h.drill, h.hold, h.holdRunOut, by rw [h.copy, if_pos h.quiet]⟩

theorem State.SameCourse.keeps {s t : State} (h : s.SameCourse t) : s.KeepsPhase t :=
  h.samePhase.keeps (quietInForce_congr h.quiet h.phase h.valid h.minute h.start h.stop) (cabinsOk_congr h.phase h.cabins)

/-- What leaves the Ship State Unit, the node parameters, the cabins and the copy alone keeps all three accords. -/
theorem State.Only.keeps {s t : State} (h : s.Steady t) : s.KeepsPhase t := by
  have ship : t.ship = s.ship := h .ship (by decide)
  have node : t.node = s.node := h .node (by decide)
  exact State.SameCourse.keeps ⟨by rw [ship], by rw [ship], by rw [ship], by rw [ship], by rw [ship], by rw [ship], by rw [ship],
    by rw [ship], by rw [node], by rw [node], h .quietCopy (by decide), h .cabins (by decide)⟩

/-! ### The Ship State Unit -/

/-- R5, R19: the clock's notification ends with quiet hours judged anew. -/
theorem clockNotify_keeps {s c : State} (b first : Bool) (h : s.SamePhase c) (quiet : c.ship.quiet = s.ship.quiet)
    (copy : c.quietCopy = s.quietCopy) (cabins : c.cabins = s.cabins) : s.KeepsPhase (c.clockNotify b first) := by
  obtain ⟨-, inForce, copied, frame⟩ := clockNotify_spec c b first
  have ship : (c.clockNotify b first).ship = { c.ship with quiet := (c.clockNotify b first).ship.quiet } :=
    (congrArg State.ship frame :)
  have same : s.SamePhase (c.clockNotify b first) :=
    ⟨(congrArg Ship.line ship :).trans h.line, (congrArg Ship.phase ship :).trans h.phase, (congrArg Ship.drill ship :).trans h.drill,
      (congrArg Ship.hold ship :).trans h.hold, (congrArg Ship.holdRunOut ship :).trans h.holdRunOut, by rw [copied, quiet, copy]⟩
  exact same.keeps (fun _ => inForce) (cabinsOk_congr same.phase ((congrArg State.cabins frame :).trans cabins))

/-- R10, R12: a phase entered is in accord with the line where the line lets it be entered; what comes before the entry may have
moved the line. -/
theorem State.Entered.keeps_from {s u t : State} {r : Phase} {d : Bool} (h : u.Entered t r d) (quiet : u.ship.quiet = s.ship.quiet)
    (copy : u.quietCopy = s.quietCopy) (cabins : u.cabins = s.cabins)
    (line : s.PhaseOk → u.ship.line = true → r = .alert ∨ r = .muster) : s.KeepsPhase t := by
  refine ⟨fun ok q => ⟨⟨?_, ?_, ?_, ?_⟩, quietOk_of_copied (quiet ▸ copy ▸ h.copied) q⟩, fun _ => h.quiet, fun ok => ?_⟩
  · rw [h.ship]
    exact line ok
  · rw [h.ship]
    exact fun hn => if_pos hn
  · rw [h.ship]
    intro hh
    by_contra hn
    simp [show r ≠ .standDown from hn] at hh
  · rw [h.ship]
    nofun
  · intro e he
    rw [h.ship]
    rw [h.cabins, cabins] at he
    by_cases hn : r = .normal
    · rw [if_pos hn] at he
      obtain ⟨c, hc, rfl⟩ := List.mem_map.1 he
      obtain ⟨number, flags, -⟩ := ok c hc
      exact ⟨number, flags, fun _ => ⟨rfl, rfl⟩⟩
    · rw [if_neg hn] at he
      obtain ⟨number, flags, -⟩ := ok e he
      exact ⟨number, flags, fun hp => absurd hp hn⟩

theorem State.Entered.keeps {s t : State} {r : Phase} {d : Bool} (h : s.Entered t r d)
    (line : s.PhaseOk → s.ship.line = true → r = .alert ∨ r = .muster) : s.KeepsPhase t := h.keeps_from rfl rfl rfl line

/-- R10: the drill flag set outside NORMAL, or cleared. -/
theorem setDrill_keeps (s : State) (b : Bool) (h : s.ship.phase = .normal → b = false) : s.KeepsPhase (s.setDrill b) := by
  obtain ⟨-, -, frame⟩ := setDrill_spec s b
  have ship : (s.setDrill b).ship = { s.ship with drill := b } := (congrArg State.ship frame :)
  have node : (s.setDrill b).node = s.node := (congrArg State.node frame :)
  have copy : (s.setDrill b).quietCopy = s.quietCopy := (congrArg State.quietCopy frame :)
  refine ⟨fun ok q => ⟨⟨?_, ?_, ?_, ?_⟩, ?_⟩, quietInForce_congr ?_ ?_ ?_ ?_ ?_ ?_, cabinsOk_congr ?_ (congrArg State.cabins frame :)⟩
  · rw [ship]; exact ok.line
  · rw [ship]; exact h
  · rw [ship]; exact ok.hold
  · rw [ship]; exact ok.runOut
  · rw [State.QuietOk, ship, copy]; exact q
  iterate 4 rw [ship]
  iterate 2 rw [node]
  rw [ship]

/-- R9: the table enters a phase other than ALERT and MUSTER while the line is DEASSERTED alone, and sets no drill flag in NORMAL. -/
theorem phaseCell_enters {p q r : Phase} (h : phaseCell p q true = .enter r) : r = .alert ∨ r = .muster := by
  cases p <;> cases q <;> cases h
  all_goals decide

theorem phaseCell_drills {p q : Phase} {line : Bool} (h : phaseCell p q line = .drill) : p ≠ .normal := by
  rintro rfl
  cases q <;> cases line <;> cases h

theorem takePhase_keeps (s : State) (q : Phase) (d : Bool) : s.KeepsPhase (s.takePhase q d) := by
  rw [takePhase_eq_cell]
  cases hc : phaseCell s.ship.phase q s.ship.line with
  | keep => exact .refl s
  | drill => exact setDrill_keeps s d fun hn => absurd hn (phaseCell_drills hc)
  | enter r => exact (changePhase_entered s r d).keeps fun _ hl => phaseCell_enters (hl ▸ hc)
  | held => exact (queueReport_steady _ _ _ _).keeps

/-- R11: an assertion of the line brings the phase into accord with it. -/
theorem filterLine_keeps (s : State) : s.KeepsPhase s.filterLine := by
  cases hr : s.ship.raw with
  | false =>
    rw [filterLine_low hr]
    exact ⟨fun ok q => ⟨⟨nofun, ok.drill, ok.hold, ok.runOut⟩, q⟩, id, id⟩
  | true =>
    obtain ⟨t, ht⟩ : ∃ t : State, t = { s with ship := { s.ship with line := true } } := ⟨_, rfl⟩
    rw [filterLine_high hr, ← ht]
    cases hp : s.ship.phase.emergency with
    | false =>
      rw [lineAsserted_enters (by rw [ht]; revert hp; cases s.ship.phase <;> decide)]
      exact (changePhase_entered t .alert false).keeps_from (by rw [ht]) (by rw [ht]) (by rw [ht]) fun _ _ => Or.inl rfl
    | true =>
      have emergency := (Phase.emergency_iff _).1 hp
      rw [lineAsserted_clears (by rw [ht]; exact emergency)]
      have raised : s.KeepsPhase t := by
        rw [ht]
        exact ⟨fun ok q => ⟨⟨fun _ => emergency, ok.drill, ok.hold, ok.runOut⟩, q⟩, id, id⟩
      exact raised.trans (setDrill_keeps t false fun _ => rfl)

/-- R12: the hold's expiry, while a hold runs. -/
theorem holdExpires_keeps {s u : State} (h : s.SameCourse u) (running : s.ship.hold.isSome = true) : s.KeepsPhase u.holdExpires := by
  cases hl : u.ship.linkLost with
  | true =>
    rw [show u.holdExpires = _ from if_pos hl]
    refine h.keeps.trans ⟨fun ok q => ⟨⟨ok.line, ok.drill, nofun, fun _ => ?_⟩, q⟩, id, id⟩
    exact ok.hold (by rw [h.hold]; exact running)
  | false =>
    rw [show u.holdExpires = u.changePhase .normal false from if_neg (by simp [hl])]
    refine (changePhase_entered u .normal false).keeps_from h.quiet h.copy h.cabins fun ok line => ?_
    rw [h.line] at line
    have phase := ok.hold running
    have := ok.line line
    rw [phase] at this
    simp at this

theorem silenceExpires_keeps (s : State) : s.KeepsPhase s.silenceExpires := by
  obtain ⟨t, ht⟩ : ∃ t : State, t = s.onShip fun h => { h with silence := none, linkLost := true } := ⟨_, rfl⟩
  have lost : s.SameCourse t := by rw [ht]; constructor <;> rfl
  have e : s.silenceExpires = t.markAll t.writeUrgency := by rw [ht]; rfl
  rw [e]
  exact lost.keeps.trans (State.Only.keeps (steady_screens (markAll_screens _ _)))

/-- R16: what follows on a bulletin, with LINK_LOST at its end or not. -/
theorem State.LinkRestored.keeps {m t : State} {lost : Bool} (h : m.LinkRestored t lost) : m.KeepsPhase t := by
  obtain ⟨heard, ended⟩ := h
  cases lost with
  | false =>
    rw [heard rfl]
    exact .refl m
  | true =>
    obtain ⟨marked, entered⟩ := ended rfl
    by_cases hy : m.ship.phase = .standDown ∧ m.ship.holdRunOut = true
    · refine (entered hy).keeps fun ok line => ?_
      have := ok.line line
      rw [hy.1] at this
      simp at this
    · have e := (marked hy).2
      exact State.Only.keeps (steady_of (congrArg State.ship e :) (congrArg State.node e :) (congrArg State.cabins e :)
        (congrArg State.quietCopy e :))

theorem bridgeAlive_keeps (s : State) : s.KeepsPhase s.bridgeAlive := by
  have heard : s.SameCourse { s with ship := { s.ship with silence := some (s.now + s.node.silenceTime * 1000), linkLost := false } } := by
    constructor <;> rfl
  exact heard.keeps.trans (bridgeAlive_restored s).keeps

/-! ### The ship clock -/

/-- R2, R3: a second that carries no minute leaves the course, and one that does ends in the clock's notification. -/
theorem advanceSecond_keeps (s : State) : s.KeepsPhase s.advanceSecond := by
  by_cases h : s.ship.second < 59
  · rw [show s.advanceSecond = s.onShip Ship.tick from if_pos h, State.onShip, Ship.tick_within h]
    exact State.SameCourse.keeps (by constructor <;> rfl)
  · rw [show s.advanceSecond = (s.onShip Ship.tick).clockNotify true false from if_neg h, State.onShip, Ship.tick_carries h]
    exact clockNotify_keeps _ _ ⟨rfl, rfl, rfl, rfl, rfl, (if_pos rfl).symm⟩ rfl rfl rfl

theorem setClock_keeps (s : State) (day minute second : Nat) : s.KeepsPhase (s.setClock day minute second) := by
  by_cases h : day ≤ 255 ∧ minute ≤ 1439 ∧ second ≤ 59
  · rw [setClock_taken s h]
    exact clockNotify_keeps _ _ ⟨rfl, rfl, rfl, rfl, rfl, (if_pos rfl).symm⟩ rfl rfl rfl
  · rw [setClock_dropped s h]
    exact .refl s

/-! ### Cabins (R80, R85, R91) -/

/-- R80, R85, R91: what CabinsOk says of one cabin in a phase. -/
def Cabin.Fair (p : Phase) (c : Cabin) : Prop :=
  (1 ≤ c.number ∧ c.number ≤ 65535) ∧ ¬(c.dnd = true ∧ c.mur = true) ∧ (p = .normal → c.assist = false ∧ c.swept = false)

theorem cabinsOk_iff (s : State) : s.CabinsOk ↔ ∀ e ∈ s.cabins, e.2.Fair s.ship.phase := Iff.rfl

theorem fair_of_fetch {s : State} {i : Nat} {c : Cabin} (ok : s.CabinsOk) (h : Tab.fetch s.cabins i = some c) : c.Fair s.ship.phase :=
  ok _ (Tab.mem_of_fetch h)

/-- What is in a table after an entry is put at an index. -/
theorem Tab.mem_store {α : Type} {t : Tab α} {k : Nat} {v : α} {e : Nat × α} (h : e ∈ Tab.store t k v) : e = (k, v) ∨ e ∈ t := by
  induction t with
  | nil => exact Or.inl (List.mem_singleton.1 h)
  | cons x t ih =>
    unfold Tab.store at h
    split at h
    · exact List.mem_cons.1 h
    · split at h
      · exact (List.mem_cons.1 h).imp_right (List.mem_cons_of_mem _)
      · rcases List.mem_cons.1 h with rfl | h
        · exact Or.inr List.mem_cons_self
        · exact (ih h).imp_right (List.mem_cons_of_mem _)

/-- A change of the cabins alone. -/
theorem keeps_of_cabins {s t : State} (ship : t.ship = s.ship) (node : t.node = s.node) (copy : t.quietCopy = s.quietCopy)
    (cabins : s.CabinsOk → ∀ e ∈ t.cabins, e.2.Fair s.ship.phase) : s.KeepsPhase t := by
  refine ⟨fun ok q => ⟨⟨?_, ?_, ?_, ?_⟩, ?_⟩, quietInForce_congr ?_ ?_ ?_ ?_ ?_ ?_, fun ok => ?_⟩
  · rw [ship]; exact ok.line
  · rw [ship]; exact ok.drill
  · rw [ship]; exact ok.hold
  · rw [ship]; exact ok.runOut
  · rw [State.QuietOk, copy, ship]; exact q
  iterate 4 rw [ship]
  iterate 2 rw [node]
  · rw [cabinsOk_iff, ship]
    exact cabins ok

theorem setCabin_keeps {s : State} {i : Nat} {c : Cabin} (h : s.CabinsOk → c.Fair s.ship.phase) : s.KeepsPhase (s.setCabin i c) := by
  refine keeps_of_cabins rfl rfl rfl fun ok e he => ?_
  rcases Tab.mem_store he with rfl | he
  · exact h ok
  · exact ok e he

/-- A cabin put and a report of it queued. -/
theorem setCabin_reported {s : State} {i : Nat} {c : Cabin} (h : s.CabinsOk → c.Fair s.ship.phase) (k : ReportKind) (a b : Nat) :
    s.KeepsPhase ((s.setCabin i c).queueReport k a b) := (setCabin_keeps h).trans (queueReport_steady _ _ _ _).keeps

/-- R87: a press sets DND or MUR only where the other is clear or goes with it. -/
theorem servicePress_keeps (s : State) (i code : Nat) : s.KeepsPhase (s.servicePress i code) := by
  unfold State.servicePress
  cases hc : Tab.fetch s.cabins i with
  | none => exact .refl s
  | some c =>
    have fair : ∀ dnd mur, ¬(dnd = true ∧ mur = true) → s.CabinsOk → Cabin.Fair s.ship.phase { c with dnd := dnd, mur := mur } :=
      fun dnd mur h ok => by
        obtain ⟨number, -, flags⟩ := fair_of_fetch ok hc
        exact ⟨number, h, flags⟩
    dsimp only
    split
    · cases hd : c.dnd <;> cases hm : c.mur
      · exact setCabin_reported (fair _ _ (by simp)) _ _ _
      · exact (setCabin_reported (fair _ _ (by simp)) _ _ _).trans (queueReport_steady _ _ _ _).keeps
      · exact setCabin_reported (fair _ _ (by simp)) _ _ _
      · exact setCabin_reported (fair _ _ (by simp)) _ _ _
    · cases hd : c.dnd <;> cases hm : c.mur
      · exact setCabin_reported (fair _ _ (by simp)) _ _ _
      · exact setCabin_reported (fair _ _ (by simp)) _ _ _
      · exact (setCabin_reported (fair _ _ (by simp)) _ _ _).trans (queueReport_steady _ _ _ _).keeps
      · exact setCabin_reported (fair _ _ (by simp)) _ _ _
    · exact (queueReport_steady _ _ _ _).keeps
    · exact .refl s

/-- R88: ASSIST is set outside NORMAL. -/
theorem assistPress_keeps (s : State) (i : Nat) (h : s.ship.phase ≠ .normal) : s.KeepsPhase (s.assistPress i) := by
  unfold State.assistPress
  cases hc : Tab.fetch s.cabins i with
  | none => exact .refl s
  | some c =>
    refine setCabin_reported (fun ok => ?_) _ _ _
    obtain ⟨number, flags, -⟩ := fair_of_fetch ok hc
    exact ⟨number, flags, fun hn => absurd hn h⟩

theorem assistPresses_keeps (i : Nat) (codes : List Nat) (s : State) (h : s.ship.phase ≠ .normal) :
    s.KeepsPhase (codes.foldl (fun t _ => t.assistPress i) s) := by
  induction codes generalizing s with
  | nil => exact .refl s
  | cons b codes ih =>
    have ship : (s.assistPress i).ship = s.ship := assistPress_only s i .ship (by decide)
    exact (assistPress_keeps s i h).trans (ih _ (by rwa [ship]))

/-- R86: the button events of a poll. -/
theorem takeEvents_keeps (s : State) (d : Nat) (codes : List Nat) : s.KeepsPhase (s.takeEvents d codes) := by
  unfold State.takeEvents
  split
  · exact .refl s
  · split
    · exact .refl s
    · split
      · rename_i emergency
        have phase : s.ship.phase ≠ .normal := fun hn => by simp [hn, Phase.emergency] at emergency
        exact (assistPresses_keeps _ _ _ phase).trans (steady_screens (mark_screens _ _ _)).keeps
      · split
        · exact (State.KeepsPhase.foldl (fun t b => servicePress_keeps t _ b) _ _).trans (steady_screens (mark_screens _ _ _)).keeps
        · exact .refl s

/-- R140: a reply on a string. -/
theorem stringReply_keeps (s : State) (k : StringNo) (tag : Nat) (r : StringReply) : s.KeepsPhase (s.stringReply k tag r) := by
  unfold State.stringReply
  split
  · exact .refl s
  · split
    · unfold State.answer
      split
      · exact (onReady_steady _ _ _ _).keeps
      · exact (onBusy_steady _ _ _ _).keeps
      · exact (setStr_steady _ _ _).keeps
      · exact (onRefresh_steady _ _ _ _ _).keeps
      · rename_i t _ _ _ _
        exact (State.Only.keeps ((((endTxn_steady _ _).trans (onRuntime_steady _ _ _)).trans (returnToPlace_steady _ _ _)).trans
          (applyStale_steady _ _))).trans (takeEvents_keeps _ _ _)
      · exact (failTry_steady _ _ _ _).keeps
    · exact .refl s

/-! ### Bulletins -/

theorem takeClosures_keeps (s : State) (first : Nat) (states : List Nat) : s.KeepsPhase (s.takeClosures first states) := by
  obtain ⟨-, -, -, frame⟩ := takeClosures_spec s first states
  rw [frame]
  exact State.SameCourse.keeps (by constructor <;> rfl)

theorem takeLight_keeps (s : State) (level : Nat) : s.KeepsPhase (s.takeLight level) := by
  obtain ⟨-, -, -, frame⟩ := takeLight_spec s level
  rw [frame]
  exact State.SameCourse.keeps (by constructor <;> rfl)

/-- R84: cabins changed, and displays marked. -/
theorem cabinsMarked_keeps {s : State} {cabins : Tab Cabin} (p : Nat → Display → Bool) (u : Urgency)
    (h : s.CabinsOk → ∀ e ∈ cabins, e.2.Fair s.ship.phase) : s.KeepsPhase (({ s with cabins := cabins } : State).markWhere p u) := by
  have changed : s.KeepsPhase { s with cabins := cabins } := keeps_of_cabins rfl rfl rfl h
  exact changed.trans (steady_screens (markWhere_screens _ _ _)).keeps

theorem cabinMark_keeps (s : State) (ns : List Nat) : s.KeepsPhase (s.cabinMark ns) := by
  rw [cabinMark_eq]
  split
  · rename_i h
    refine cabinsMarked_keeps _ _ fun ok e he => ?_
    obtain ⟨c, hc, rfl⟩ := List.mem_map.1 he
    obtain ⟨number, flags, -⟩ := ok c hc
    exact ⟨number, flags, fun hn => by simp [hn] at h⟩
  · exact .refl s

theorem assistClear_keeps (s : State) (ns : List Nat) : s.KeepsPhase (s.assistClear ns) := by
  rw [assistClear_eq]
  split
  · refine cabinsMarked_keeps _ _ fun ok e he => ?_
    obtain ⟨c, hc, rfl⟩ := List.mem_map.1 he
    obtain ⟨number, flags, normal⟩ := ok c hc
    refine ⟨number, flags, fun hn => ⟨?_, (normal hn).2⟩⟩
    show (c.2.assist && _) = false
    rw [(normal hn).1, Bool.false_and]
  · exact .refl s

theorem applyBulletin_keeps (s : State) (b : Bulletin) : s.KeepsPhase (s.applyBulletin b) := by
  unfold State.applyBulletin
  split
  · exact setClock_keeps _ _ _ _
  · split
    · exact takePhase_keeps _ _ _
    · exact .refl s
  · exact takeClosures_keeps _ _ _
  · exact takeLight_keeps _ _
  · exact cabinMark_keeps _ _
  · exact assistClear_keeps _ _
  · exact .refl s

theorem takeBulletin_keeps (s : State) (seq : Nat) (b : Bulletin) : s.KeepsPhase (s.takeBulletin seq b) := by
  unfold State.takeBulletin
  split
  · have moved : s.KeepsPhase { s with watermark := some seq } := State.Only.keeps (steady_of rfl rfl rfl rfl)
    exact (moved.trans (applyBulletin_keeps _ _)).trans (bridgeAlive_keeps _)
  · exact bridgeAlive_keeps _

/-! ### WRITE -/

/-- What a WRITE leaves, where it is taken, keeps the accords. -/
def WriteKeeps (s : State) (w : WriteResult) : Prop := ∀ t b, w = .ok (t, b) → s.KeepsPhase t

theorem WriteSteady.keeps {s : State} {w : WriteResult} (h : WriteSteady s w) : WriteKeeps s w := fun t b e => (h t b e).keeps

theorem writeKeeps_error (s : State) (r : ResultCode) : WriteKeeps s (.error r) := (writeSteady_error s r).keeps

theorem writeKeeps_ok {s t : State} {b : Bool} (h : s.KeepsPhase t) : WriteKeeps s (.ok (t, b)) := by
  rintro _ _ ⟨⟩
  exact h

/-- R19, R167: new node parameters judge quiet hours anew where their window changes. -/
theorem setNode_keeps (s : State) (n : NodeParams) : s.KeepsPhase (s.setNode n) := by
  obtain ⟨-, taken⟩ := setNode_taken s n
  obtain ⟨judged, unjudged⟩ := taken.quiet
  have ship := taken.ship
  have phase : (s.setNode n).ship.phase = s.ship.phase := (congrArg Ship.phase ship :)
  have cabins : (s.setNode n).cabins = s.cabins := (congrArg State.cabins taken.rest :)
  by_cases window : s.node.quietStart ≠ (s.setNode n).node.quietStart ∨ s.node.quietEnd ≠ (s.setNode n).node.quietEnd
  · obtain ⟨inForce, copied⟩ := judged window
    have same : s.SamePhase (s.setNode n) := ⟨(congrArg Ship.line ship :), phase, (congrArg Ship.drill ship :),
      (congrArg Ship.hold ship :), (congrArg Ship.holdRunOut ship :), copied⟩
    exact same.keeps (fun _ => inForce) (cabinsOk_congr phase cabins)
  · obtain ⟨start, stop⟩ := not_or.1 window
    obtain ⟨kept, copy⟩ := unjudged (not_not.1 start) (not_not.1 stop)
    refine State.SameCourse.keeps ⟨?_, phase, ?_, ?_, ?_, ?_, ?_, ?_, (not_not.1 start).symm, (not_not.1 stop).symm, copy, cabins⟩
    all_goals rw [kept]

theorem cabinChanged_steady (s : State) (old : Option Cabin) (c : Cabin) : s.Steady (s.cabinChanged old c) := by
  have held : s.Steady (s.cabinHeld old c) := by
    unfold State.cabinHeld
    split
    · exact steady_screens (clearHeldMany_screens _ _ _)
    · exact steady_refl _
  have marked : ∀ t : State, t.Steady (t.cabinMarks old c) := fun t => by
    unfold State.cabinMarks
    split
    · exact steady_refl _
    · exact steady_screens (markWhere_screens _ _ _)
  have recounted : ∀ t : State, t.Steady (t.cabinRecounts old c) := fun t => by
    unfold State.cabinRecounts
    split
    · split
      · exact recountStation_steady _ _
      · exact (recountStation_steady _ _).trans (recountStation_steady _ _)
    · exact recountStation_steady _ _
  unfold State.cabinChanged
  dsimp only
  split
  · exact (held.trans (marked _)).trans (recounted _)
  · exact held.trans (marked _)

/-- R81, R82: a cabin's number after a WRITE that its checks let pass. -/
theorem numField_cabin {fs : FieldList} {old : Nat} (h : 1 ≤ old ∧ old ≤ 65535)
    (ok : numberBreaks fs 1 (fun v => decide (1 ≤ v) && decide (v ≤ 65535)) = false) :
    1 ≤ numField 8 fs 1 old ∧ numField 8 fs 1 old ≤ 65535 := by
  unfold numberBreaks at ok
  unfold numField
  split
  · rename_i v hv
    rw [hv] at ok
    simpa [bring, maskWidth, fieldRange] using ok
  · exact h

/-- R80, R82: a cabin stays fair through a WRITE. -/
theorem Cabin.Fair.written {p : Phase} {c : Cabin} (h : c.Fair p) {fs : FieldList}
    (ok : numberBreaks fs 1 (fun v => decide (1 ≤ v) && decide (v ≤ 65535)) = false) : (c.written fs).Fair p := by
  obtain ⟨number, flags, normal⟩ := h
  refine ⟨numField_cabin number ok, fun hb => flags ?_, normal⟩
  obtain ⟨dnd, mur⟩ := hb
  exact ⟨(Bool.and_eq_true_iff.1 dnd).1, (Bool.and_eq_true_iff.1 mur).1⟩

theorem Cabin.created_fair (p : Phase) : Cabin.created.Fair p := ⟨⟨by decide, by decide⟩, by decide, fun _ => ⟨rfl, rfl⟩⟩

theorem writeCabin_keeps (s : State) (i : Nat) (fs : FieldList) : WriteKeeps s (s.writeCabin i fs) := by
  unfold State.writeCabin
  dsimp only
  split
  · exact writeKeeps_error _ _
  rename_i fields
  split
  · exact writeKeeps_error _ _
  split
  · exact writeKeeps_error _ _
  refine writeKeeps_ok ((setCabin_keeps fun ok => ?_).trans (cabinChanged_steady _ _ _).keeps)
  have number : numberBreaks fs 1 (fun v => decide (1 ≤ v) && decide (v ≤ 65535)) = false := by
    simp only [Bool.or_eq_true, not_or, Bool.not_eq_true] at fields
    exact fields.1.1.2
  refine Cabin.Fair.written ?_ number
  cases hc : Tab.fetch s.cabins i with
  | none => exact Cabin.created_fair _
  | some c => exact fair_of_fetch ok hc

theorem writeTable_keeps (s : State) (o t i : Nat) (fs : FieldList) : WriteKeeps s (s.writeTable o t i fs) := by
  unfold State.writeTable
  split
  · exact (writeEmpty_steady _ _ _).keeps
  split
  · unfold State.writeNode
    split
    · exact writeKeeps_error _ _
    · exact writeKeeps_ok (setNode_keeps _ _)
  · exact (writeDisplay_steady _ _ _).keeps
  · exact (writeString_steady _ _ _).keeps
  · exact (writeNodes_steady _ _ _).keeps
  · exact (writeSegment_steady _ _ _).keeps
  · exact (writeDest_steady _ _ _).keeps
  · exact (writeList_steady _ _ _).keeps
  · exact (writeProgramme_steady _ _ _).keeps
  · exact writeCabin_keeps _ _ _
  · exact (writeNotice_steady _ _ _ _).keeps
  · exact (writeText_steady _ _ _ _).keeps
  · exact (writeTemplate_steady _ _ _).keeps
  · exact (writeSelection_steady _ _ _).keeps
  · exact (writeRegion_steady _ _ _).keeps
  · exact writeKeeps_error _ _

/-! ### CLEAR and CLEAR_TABLE -/

/-- What a CLEAR leaves, where it is taken, keeps the accords. -/
def ClearKeeps (s : State) (w : Except ResultCode State) : Prop := ∀ t, w = .ok t → s.KeepsPhase t

theorem ClearSteady.keeps {s : State} {w : Except ResultCode State} (h : ClearSteady s w) : ClearKeeps s w := fun t e => (h t e).keeps

theorem clearKeeps_ok {s t : State} (h : s.KeepsPhase t) : ClearKeeps s (.ok t) := by
  rintro _ ⟨⟩
  exact h

theorem clearKeeps_steady {s t : State} (h : s.Steady t) : ClearKeeps s (.ok t) := clearKeeps_ok h.keeps

theorem removeCabin_keeps (s : State) (i : Nat) : s.KeepsPhase (s.removeCabin i) := by
  have removed : s.KeepsPhase { s with cabins := Tab.discard s.cabins i } :=
    keeps_of_cabins rfl rfl rfl fun ok e he => ok e (List.mem_filter.1 he).1
  unfold State.removeCabin
  split
  · exact .refl s
  · exact removed.trans (steady_screens ((clearHeld_screens _ _ _).trans (mark_screens _ _ _))).keeps

theorem clearCabin_keeps (s : State) (i : Nat) : s.KeepsPhase (s.clearCabin i) := by
  unfold State.clearCabin
  split
  · exact .refl s
  · exact (removeCabin_keeps _ _).trans (recountStation_steady _ _).keeps

theorem clearCabins_keeps (s : State) : s.KeepsPhase s.clearCabins :=
  (State.KeepsPhase.foldl removeCabin_keeps _ _).trans (State.KeepsPhase.foldl (fun t d => (recount_steady t d).keeps) _ _)

theorem clearEntry_keeps (s : State) (o t i : Nat) : ClearKeeps s (s.clearEntry o t i) := by
  unfold State.clearEntry
  dsimp only
  split
  · exact clearKeeps_ok (setNode_keeps _ _)
  · exact (clearDisplays_steady _ _).keeps
  · exact (clearString_steady _ _).keeps
  · exact clearKeeps_steady (clearNodes_steady _ _)
  · exact clearKeeps_steady (clearSegments_steady _ _)
  · exact clearKeeps_steady (clearDest_steady _ _)
  · exact clearKeeps_steady (clearList_steady _ _)
  · exact clearKeeps_steady (clearProgramme_steady _ _)
  · exact clearKeeps_ok (clearCabin_keeps _ _)
  · exact clearKeeps_steady (clearNotice_steady _ _)
  · exact clearKeeps_steady (clearTexts_steady _ _ _)
  · exact clearKeeps_steady (clearTemplate_steady _ _)
  · exact clearKeeps_steady (clearSelection_steady _ _)
  · exact clearKeeps_steady (steady_of rfl rfl rfl rfl)
  · exact (clearSteady_error _ _).keeps

theorem clearAll_keeps (s : State) (o t : Nat) : ClearKeeps s (s.clearAll o t) := by
  unfold State.clearAll
  dsimp only
  split
  · exact clearKeeps_ok (setNode_keeps _ _)
  · exact (clearDisplays_steady _ _).keeps
  · exact (clearStrings_steady _).keeps
  · exact clearKeeps_steady (clearNodes_steady _ _)
  · exact clearKeeps_steady (clearSegments_steady _ _)
  · exact clearKeeps_steady (foldl_only _ clearDest_steady _ _)
  · exact clearKeeps_steady (foldl_only _ clearList_steady _ _)
  · exact clearKeeps_steady (foldl_only _ clearProgramme_steady _ _)
  · exact clearKeeps_ok (clearCabins_keeps _)
  · exact clearKeeps_steady (foldl_only _ clearNotice_steady _ _)
  · exact clearKeeps_steady (clearTexts_steady _ _ _)
  · exact clearKeeps_steady (foldl_only _ clearTemplate_steady _ _)
  · exact clearKeeps_steady (foldl_only _ clearSelection_steady _ _)
  · exact clearKeeps_steady (steady_of rfl rfl rfl rfl)
  · exact (clearSteady_error _ _).keeps

/-! ### Requests and frames -/

/-- R91, R95, R175: a warm restart clears the cabins' flags and leaves the rest of the course. -/
theorem warmRestart_keeps (s : State) : s.KeepsPhase s.warmRestart := by
  have cleared : ∀ u : State, u.KeepsPhase u.clearCabinFlags := fun u => keeps_of_cabins rfl rfl rfl fun ok e he => by
    obtain ⟨c, hc, rfl⟩ := List.mem_map.1 he
    obtain ⟨number, flags, -⟩ := ok c hc
    exact ⟨number, flags, fun _ => ⟨rfl, rfl⟩⟩
  have restarted : ∀ u : State, u.KeepsPhase u.restartDisplays := fun u =>
    State.Only.keeps (markAll_steady (by exact steady_of rfl rfl rfl rfl) _)
  unfold State.warmRestart
  dsimp only
  refine State.KeepsPhase.trans ?_ ((cleared _).trans (restarted _))
  exact State.Only.keeps (steady_of rfl rfl rfl rfl)

theorem checked_keeps {s : State} (cs : List (Bool × ResultCode)) {a : Answer} (h : s.KeepsPhase a.state) :
    s.KeepsPhase (s.checked cs a).state := by
  unfold State.checked
  split
  · exact .refl s
  · exact h

theorem ofWrite_keeps {s : State} {w : WriteResult} (h : WriteKeeps s w) : s.KeepsPhase (s.ofWrite w).state := by
  unfold State.ofWrite
  split
  · exact .refl s
  · exact h _ _ rfl

theorem ofClear_keeps {s : State} {w : Except ResultCode State} (h : ClearKeeps s w) : s.KeepsPhase (s.ofClear w).state := by
  unfold State.ofClear
  split
  · exact .refl s
  · exact h _ rfl

theorem respond_keeps (s : State) (o : Nat) (r : Request) : s.KeepsPhase (s.respond o r).state := by
  unfold State.respond
  split
  · exact checked_keeps _ (ofWrite_keeps (writeTable_keeps _ _ _ _ _))
  · exact checked_keeps _ (.refl s)
  · exact checked_keeps _ (ofClear_keeps (clearEntry_keeps _ _ _ _))
  · exact checked_keeps _ (ofClear_keeps (clearAll_keeps _ _ _))
  · exact checked_keeps _ (State.Only.keeps (markWhere_steady (by exact steady_of rfl rfl rfl rfl) _ _))
  · exact checked_keeps _ (setStr_steady _ _ _).keeps
  · exact checked_keeps _ (setStr_steady _ _ _).keeps
  · exact checked_keeps _ (show s.KeepsPhase (s.retry _) from (onRuntime_steady _ _ _).keeps)
  · exact checked_keeps _ (warmRestart_keeps s)
  · exact .refl s
  · exact checked_keeps _ (.refl s)
  · exact .refl s
  · exact .refl s

theorem takeRequest_keeps (s : State) (p : Port) (f : Frame) (r : Request) : s.KeepsPhase (s.takeRequest p f r) := by
  have h := respond_keeps s f.origin r
  unfold State.takeRequest
  dsimp only
  split
  · split
    · exact .refl s
    · refine h.trans ?_
      unfold State.oweReply
      split
      · exact State.Only.keeps (steady_of rfl rfl rfl rfl)
      · exact State.Only.keeps (steady_of rfl rfl rfl rfl)
  · exact h

theorem act_keeps (s : State) (p : Port) (f : Frame) (c : Content) : s.KeepsPhase (s.act p f c) := by
  unfold State.act
  split
  · split
    · exact takeBulletin_keeps _ _ _
    · exact .refl s
  · split
    · exact takeRequest_keeps _ _ _ _
    · exact .refl s
  · exact .refl s

theorem forward_keeps (s : State) (p : Port) (f : Frame) : s.KeepsPhase (s.forward p f) := by
  unfold State.forward
  dsimp only
  split
  · exact (setPort_steady _ _ _).keeps
  · exact .refl s

/-- R151 to R154: an arriving frame. -/
theorem frameArrives_keeps (s : State) (p : Port) (f : Frame) (c : Content) : s.KeepsPhase (s.frameArrives p f c) := by
  have acted : s.KeepsPhase (if s.concerns f.dest then s.act p f c else s) := by
    split
    · exact act_keeps _ _ _ _
    · exact .refl s
  unfold State.frameArrives
  split
  · dsimp only
    split
    · exact acted.trans (forward_keeps _ _ _)
    · exact acted
  · exact .refl s

theorem bytesArrive_keeps (s : State) (p : Port) (bs : List Byte) : s.KeepsPhase (s.bytesArrive p bs) := by
  unfold State.bytesArrive
  split
  · exact frameArrives_keeps _ _ _ _
  · exact .refl s

/-! ### Ports, takes and the solver -/

theorem sends_steady {s t : State} (h : s.Steady t) (p : Port) (f : Frame) : s.Steady (t.sends p f) := h.trans (setPort_steady _ _ _)

theorem beginTransmit_steady (s : State) (p : Port) : s.Steady (s.beginTransmit p) := by
  unfold State.beginTransmit
  split
  · unfold State.transmit
    split
    · exact sends_steady (setPort_steady _ _ _) _ _
    · exact sends_steady (by exact steady_of rfl rfl rfl rfl) _ _
    · exact sends_steady (by exact steady_of rfl rfl rfl rfl) _ _
    · exact sends_steady (setPort_steady _ _ _) _ _
  · exact steady_refl _

theorem portFalls_steady (s : State) (p : Port) : s.Steady (s.portFalls p) := by
  have down := setPort_steady s p { s.port p with up := false, queue := [], sending := none }
  exact down.trans (steady_of rfl rfl rfl rfl)

theorem dispatchTaken_steady (s : State) (k : StringNo) : s.Steady (s.dispatchTaken k) := by
  unfold State.dispatchTaken
  split
  · exact steady_screens (takeDispatch_screens _ _ _ _ _)
  all_goals exact steady_refl _

theorem pollTaken_steady (s : State) (k : StringNo) : s.Steady (s.pollTaken k) := by
  unfold State.pollTaken
  split
  · exact steady_screens (takePoll_screens _ _ _)
  all_goals exact steady_refl _

theorem probeTaken_steady (s : State) (k : StringNo) : s.Steady (s.probeTaken k) := by
  unfold State.probeTaken
  split
  · exact steady_screens (takeProbe_screens _ _ _)
  all_goals exact steady_refl _

theorem unanswered_steady (s : State) (k : StringNo) : s.Steady (s.unanswered k) := by
  unfold State.unanswered
  split
  · exact failTry_steady _ _ _ _
  · exact steady_refl _

/-! ### Commands and steps -/

theorem reach_keeps (s : State) (t : Nat) : s.KeepsPhase (s.reach t) := State.Only.keeps (steady_of rfl rfl rfl rfl)

/-- A timer's event whose effect keeps the accords. -/
theorem expire_keeps (s : State) (deadline : Option Nat) {f : State → State} (h : ∀ t : State, t.KeepsPhase (f t)) :
    s.KeepsPhase (s.expire deadline f) := by
  unfold State.expire
  split
  · exact (reach_keeps _ _).trans (h _)
  · exact .refl s

/-- A command's outcome keeps the accords in the state it leaves. -/
def OutcomeKeeps (s : State) (o : Result) : Prop := ∀ t, o = .next t → s.KeepsPhase t

theorem outcomeKeeps_next {s t : State} (h : s.KeepsPhase t) : OutcomeKeeps s (.next t) := by
  rintro _ ⟨⟩
  exact h

theorem outcomeKeeps_expire {s : State} (deadline : Option Nat) {f : State → State} (h : ∀ t : State, t.KeepsPhase (f t)) :
    OutcomeKeeps s (.next (s.expire deadline f)) := outcomeKeeps_next (expire_keeps s deadline h)

/-- R20: the power-on values are in accord. -/
theorem powerOn_keeps (s : State) (p : List Instr) (straps : BitVec 8) (raw fore aft : Bool) (n : Nat) :
    s.KeepsPhase (State.powerOn p straps raw fore aft n) :=
  ⟨fun _ _ => ⟨⟨nofun, fun _ => rfl, nofun, nofun⟩, rfl⟩, fun _ => ⟨nofun, fun h => nomatch h.2.1⟩, fun _ => nofun⟩

theorem exec_keeps (i : Instr) (s : State) : OutcomeKeeps s (exec i s) := by
  have bulletin : ∀ (a : Arrival) (b : Bulletin), OutcomeKeeps s (.next (s.bulletinArrives a b)) := fun a b =>
    outcomeKeeps_next (frameArrives_keeps _ _ _ _)
  have request : ∀ (a : Arrival) (r : Request), OutcomeKeeps s (.next (s.requestArrives a r)) := fun a r =>
    outcomeKeeps_next (frameArrives_keeps _ _ _ _)
  have reply : ∀ (k : StringNo) (tag : Nat) (r : StringReply), OutcomeKeeps s (.next (s.stringReply k tag r)) := fun k tag r =>
    outcomeKeeps_next (stringReply_keeps _ _ _ _)
  cases i with
  | powerOnReset straps => exact outcomeKeeps_next (powerOn_keeps _ _ _ _ _ _ _)
  | musterInChange level =>
    refine outcomeKeeps_next ?_
    unfold State.rawLevel
    split
    · exact .refl s
    · exact State.SameCourse.keeps (by constructor <;> rfl)
  | musterLineChange => exact outcomeKeeps_expire _ filterLine_keeps
  | clockSecondAdvance => exact outcomeKeeps_expire _ advanceSecond_keeps
  | standDownHoldExpiry =>
    refine outcomeKeeps_next ?_
    cases hd : s.ship.hold with
    | none =>
      rw [s.expire_none rfl]
      exact .refl s
    | some due =>
      rw [s.expire_some rfl]
      exact holdExpires_keeps (by constructor <;> rfl) (by rw [hd]; rfl)
  | bridgeSilenceExpiry => exact outcomeKeeps_expire _ silenceExpires_keeps
  | lineSignalChange p present => exact outcomeKeeps_next (setPort_steady _ _ _).keeps
  | portUp p => exact outcomeKeeps_expire _ fun t => (setPort_steady _ _ _).keeps
  | portDown p => exact outcomeKeeps_expire _ fun t => (portFalls_steady t p).keeps
  | frameReceive p bytes => exact outcomeKeeps_next (bytesArrive_keeps _ _ _)
  | timeBulletin a day minute second => exact bulletin _ _
  | phaseBulletin a phase drill => exact bulletin _ _
  | closuresBulletin a first states => exact bulletin _ _
  | lightBulletin a level => exact bulletin _ _
  | cabinMarkBulletin a cabins => exact bulletin _ _
  | assistClearBulletin a cabins => exact bulletin _ _
  | write a table index fields => exact request _ _
  | read a table index => exact request _ _
  | clear a table index => exact request _ _
  | clearTable a table => exact request _ _
  | adjustSteps a kind value code => exact request _ _
  | holdString a string => exact request _ _
  | freeString a string => exact request _ _
  | retryDisplay a display => exact request _ _
  | restart a => exact request _ _
  | status a => exact request _ _
  | displayStatus a display => exact request _ _
  | identify a => exact request _ _
  | transmitBegin p => exact outcomeKeeps_next (beginTransmit_steady _ _).keeps
  | transmitEnd p => exact outcomeKeeps_next (setPort_steady _ _ _).keeps
  | dispatchTake k => exact outcomeKeeps_next (dispatchTaken_steady _ _).keeps
  | pollTake k => exact outcomeKeeps_next (pollTaken_steady _ _).keeps
  | probeTake k => exact outcomeKeeps_next (probeTaken_steady _ _).keeps
  | ready k tag cls => exact reply _ _ _
  | busy k tag ms => exact reply _ _ _
  | ack k tag => exact reply _ _ _
  | nak k tag => exact reply _ _ _
  | refresh k tag ms => exact reply _ _ _
  | events k tag codes =>
    refine outcomeKeeps_next ?_
    unfold State.eventsReply
    split
    · exact stringReply_keeps _ _ _ _
    · exact .refl s
  | stringReplyDiscard k bytes =>
    refine outcomeKeeps_next ?_
    unfold State.replyBytes
    split
    · exact stringReply_keeps _ _ _ _
    · exact .refl s
  | replyTimeout k => exact outcomeKeeps_expire _ fun t => (unanswered_steady t k).keeps
  | refreshBusyReached display => exact outcomeKeeps_expire _ .refl
  | minRefreshExpiry display => exact outcomeKeeps_expire _ .refl
  | pollDue display => exact outcomeKeeps_expire _ .refl
  | probeDue display => exact outcomeKeeps_expire _ .refl
  | solverTake => exact outcomeKeeps_next (State.Only.keeps ((solverTakes_only s).mono _ (by decide)))
  | sweepEnd => exact outcomeKeeps_next (State.Only.keeps ((sweepEnds_only s).mono _ (by decide)))

/-- A step is a command, or a millisecond, after what keeps the accords. -/
theorem step_keeps {s t : State} (h : step s = .next t) : s.KeepsPhase t := by
  cases hp : s.pending with
  | cons i rest =>
    have taken : s.KeepsPhase { s with pending := rest } := State.Only.keeps (steady_of rfl rfl rfl rfl)
    refine taken.trans (exec_keeps i _ t ?_)
    rw [← h, step, hp]
  | nil =>
    have drawn : s.KeepsPhase { s with draws := s.draws + 1 } := State.Only.keeps (steady_of rfl rfl rfl rfl)
    have ticked : ∀ u : State, u.KeepsPhase u.tick := fun u => State.Only.keeps (steady_of rfl rfl rfl rfl)
    rw [step, hp] at h
    have h : s.idle = .next t := h
    unfold State.idle at h
    split at h
    · cases h
      exact ticked s
    · split at h
      · exact drawn.trans (exec_keeps _ _ t h)
      · cases h
        exact drawn.trans (ticked _)

/-- Settles O54: what each command keeps, over the commands, the timers and the idle millisecond. -/
theorem phaseKept : Obligations.PhaseKept := fun _ _ h => ⟨(step_keeps h).phase, (step_keeps h).quiet, (step_keeps h).cabins⟩

end Sys2Proof.Machine
end

section
/-! SUPPORT. WRITE and CLEAR of NODE, STRINGS and REGIONS. -/

namespace Sys2Proof.Machine

/-! ### A WRITE or a CLEAR that reaches its table (R165, R168) -/

/-- R165: a pair whose value is of the kind that its field holds and takes at most five bytes. -/
def PlainPair (t : Nat) (p : Nat × FieldValue) : Prop :=
  (∃ k, fieldKind t p.1 = some k ∧ k.holds p.2 = true) ∧ p.2.bytes.length ≤ 5

/-- R165: a field list without a number twice, of at most 22 plain pairs. -/
structure PlainFields (t : Nat) (fs : FieldList) : Prop where
  nodup : (fs.map (·.1)).Nodup
  few : fs.length ≤ 22
  plain : ∀ p ∈ fs, PlainPair t p

theorem PlainFields.perm {t : Nat} {fs gs : FieldList} (h : PlainFields t gs) (p : fs.Perm gs) : PlainFields t fs :=
  ⟨(p.map _).nodup_iff.2 h.nodup, p.length_eq ▸ h.few, fun q hq => h.plain q (p.subset hq)⟩

/-- R165: a list whose field numbers are some of a short list, each once. -/
theorem PlainFields.of_keys {t : Nat} {fs : FieldList} {ns : List Nat} (h : (fs.map (·.1)).Sublist ns) (nodup : ns.Nodup)
    (few : ns.length ≤ 22) (plain : ∀ p ∈ fs, PlainPair t p) : PlainFields t fs := by
  have length := h.length_le
  rw [List.length_map] at length
  exact ⟨h.nodup nodup, length.trans few, plain⟩

theorem PlainFields.kindsOk {t : Nat} {fs : FieldList} (h : PlainFields t fs) : kindsOk t fs = true := by
  refine List.all_eq_true.2 fun p hp => ?_
  obtain ⟨⟨k, hk, hv⟩, -⟩ := h.plain p hp
  rw [hk]
  exact hv

/-- R165: a field that holds a kind of value is one of its table's. -/
theorem known_of_fieldKind {t n : Nat} {k : FieldKind} (h : fieldKind t n = some k) : 1 ≤ n ∧ n ≤ fieldCount t := by
  unfold fieldKind at h
  split at h
  · cases h
  · omega

theorem PlainFields.known {t : Nat} {fs : FieldList} (h : PlainFields t fs) : unknownField t fs = false := by
  refine List.any_eq_false.2 fun p hp => ?_
  obtain ⟨⟨k, hk, -⟩, -⟩ := h.plain p hp
  have := known_of_fieldKind hk
  simp only [Bool.or_eq_true, beq_iff_eq, decide_eq_true_iff]
  omega

theorem length_pairs_le {t : Nat} {fs : FieldList} (h : ∀ p ∈ fs, PlainPair t p) : (fs.flatMap pairBytes).length ≤ 6 * fs.length := by
  induction fs with
  | nil => exact Nat.le_refl 0
  | cons p fs ih =>
    obtain ⟨hp, hfs⟩ := List.forall_mem_cons.1 h
    have small : (pairBytes p).length ≤ 6 := Nat.succ_le_succ hp.2
    have rest := ih hfs
    rw [List.flatMap_cons, List.length_append, List.length_cons]
    omega

/-- R180: a request body that carries such a list. -/
theorem PlainFields.bytes {t : Nat} {fs : FieldList} (h : PlainFields t fs) (i : Nat) : (Request.write t i fs).bytes.length ≤ 1024 := by
  have few := h.few
  have pairs := length_pairs_le h.plain
  have e : (Request.write t i fs).bytes.length = (fs.flatMap pairBytes).length + 5 := rfl
  omega

/-- R168: some number of a list was brought into range. -/
theorem numbersAdjusted_iff (t : Nat) (fs : FieldList) :
    numbersAdjusted t fs = true ↔ ∃ f v, (f, FieldValue.number v) ∈ fs ∧ bring t f v ≠ v := by
  unfold numbersAdjusted
  rw [List.any_eq_true]
  constructor
  · rintro ⟨⟨f, x⟩, hp, h⟩
    cases x with
    | number v => exact ⟨f, v, hp, bne_iff_ne.1 h⟩
    | _ => cases h
  · rintro ⟨f, v, hp, h⟩
    exact ⟨(f, .number v), hp, bne_iff_ne.2 h⟩

theorem bring_ne_iff {t n lo hi : Nat} (mask : maskWidth t n = none) (range : fieldRange t n = some (lo, hi)) (le : lo ≤ hi) (v : Nat) :
    bring t n v ≠ v ↔ v < lo ∨ hi < v := by
  simp only [bring, mask, range, clampTo]
  omega

theorem mem_given {n f : Nat} {x : FieldValue} {v : Option FieldValue} : (f, x) ∈ given n v ↔ f = n ∧ v = some x := by
  simp [given, and_comm, eq_comm]

/-- R156: the reply to a WRITE. -/
theorem exec_write {s : State} {a : Arrival} {t i : Nat} {fs : FieldList} (h : s.Asked a) (plain : PlainFields t fs) {x : Answer}
    (hx : s.answerWrite a.origin t i fs = x) : exec (.write a t i fs) s = .next (x.state.answered a x.code.code 0 x.data) := by
  subst hx
  exact congrArg Host.Outcome.next (requestArrives_asked h (plain.bytes i) rfl)

theorem exec_clear {s : State} {a : Arrival} {t i : Nat} (h : s.Asked a) {x : Answer} (hx : s.answerClear a.origin t i = x) :
    exec (.clear a t i) s = .next (x.state.answered a x.code.code 2 x.data) := by
  subst hx
  exact congrArg Host.Outcome.next (requestArrives_asked h (r := .clear t i) (by decide : 4 ≤ 1024) rfl)

/-- R165, R168: the checks of a WRITE to an entry that exists, of a table all of whose fields may be left out, before the table's own. -/
structure State.WritePasses (s : State) (a : Arrival) (t i : Nat) (fs : FieldList) : Prop where
  asked : s.Asked a
  plain : PlainFields t fs
  table : tableOk t = true
  index : indexOk t i false = true
  optional : alwaysRequires t = false
  present : s.entryExists t i = true

theorem State.WritePasses.form {s : State} {a : Arrival} {t i : Nat} {fs : FieldList} (h : s.WritePasses a t i fs) :
    s.writeFormOk t i fs = true := by
  have once := (hasDuplicate_eq_false_iff fs).2 h.plain.nodup
  simp [State.writeFormOk, once, h.plain.kindsOk, h.optional, h.present]

/-- R168: access and phase let the WRITE through to its table. -/
theorem State.WritePasses.taken {s : State} {a : Arrival} {t i : Nat} {fs : FieldList} (h : s.WritePasses a t i fs)
    (access : s.mayWrite a.origin t i = true) (phase : s.phasePassesWrite a.origin t fs = true) {u : State} {b : Bool}
    (hw : s.writeTable a.origin t i fs = .ok (u, b)) :
    exec (.write a t i fs) s = .next (u.answered a (if b then 1 else 0) 0 []) := by
  rw [exec_write h.asked h.plain (x := { state := u, code := if b then .adjusted else .done, data := [] })]
  · cases b <;> rfl
  · simp [State.answerWrite, State.checked, firstRefusal, h.form, h.table, h.index, access, phase, hw, State.ofWrite]

theorem State.WritePasses.refused {s : State} {a : Arrival} {t i : Nat} {fs : FieldList} (h : s.WritePasses a t i fs)
    (access : s.mayWrite a.origin t i = true) (phase : s.phasePassesWrite a.origin t fs = true) {r : ResultCode}
    (hw : s.writeTable a.origin t i fs = .error r) : exec (.write a t i fs) s = .next (s.answered a r.code 0 []) := by
  rw [exec_write h.asked h.plain (x := s.refuse r)]
  · rfl
  · simp [State.answerWrite, State.checked, firstRefusal, h.form, h.table, h.index, access, phase, hw, State.ofWrite]

theorem State.WritePasses.denied {s : State} {a : Arrival} {t i : Nat} {fs : FieldList} (h : s.WritePasses a t i fs)
    (access : s.mayWrite a.origin t i = false) : exec (.write a t i fs) s = .next (s.answered a 5 0 []) := by
  rw [exec_write h.asked h.plain (x := s.refuse .denied)]
  · rfl
  · simp [State.answerWrite, State.checked, firstRefusal, h.form, h.table, h.index, access]

/-- R168: a CLEAR that access and phase let through to its table. -/
theorem clear_taken {s : State} {a : Arrival} {t i : Nat} (h : s.Asked a) (table : tableOk t = true) (index : indexOk t i false = true)
    (access : s.mayWrite a.origin t i = true) (phase : s.phasePassesClear a.origin t = true) {u : State}
    (hw : s.clearEntry a.origin t i = .ok u) : exec (.clear a t i) s = .next (u.answered a 0 2 []) := by
  rw [exec_clear h (x := u.done)]
  · rfl
  · simp [State.answerClear, State.checked, firstRefusal, table, index, access, phase, hw, State.ofClear]

theorem clear_refused {s : State} {a : Arrival} {t i : Nat} (h : s.Asked a) (table : tableOk t = true) (index : indexOk t i false = true)
    (access : s.mayWrite a.origin t i = true) (phase : s.phasePassesClear a.origin t = true) {r : ResultCode}
    (hw : s.clearEntry a.origin t i = .error r) : exec (.clear a t i) s = .next (s.answered a r.code 2 []) := by
  rw [exec_clear h (x := s.refuse r)]
  · rfl
  · simp [State.answerClear, State.checked, firstRefusal, table, index, access, phase, hw, State.ofClear]

theorem clear_denied {s : State} {a : Arrival} {t i : Nat} (h : s.Asked a) (table : tableOk t = true) (index : indexOk t i false = true)
    (access : s.mayWrite a.origin t i = false) : exec (.clear a t i) s = .next (s.answered a 5 2 []) := by
  rw [exec_clear h (x := s.refuse .denied)]
  · rfl
  · simp [State.answerClear, State.checked, firstRefusal, table, index, access]

end Sys2Proof.Machine
end

section
/-! SUPPORT. The field lists of NODE, STRINGS and REGIONS, and the statement about their WRITE and CLEAR. -/

namespace Sys2Proof.Machine

/-! ### Field lists given field by field -/

/-- R165: the pairs of the fields that are supplied. -/
def pairsOf (es : List (Nat × Option FieldValue)) : FieldList := es.flatMap fun e => given e.1 e.2

theorem mem_pairsOf {es : List (Nat × Option FieldValue)} {n : Nat} {v : FieldValue} :
    (n, v) ∈ pairsOf es ↔ (n, some v) ∈ es := by
  simp only [pairsOf, List.mem_flatMap, mem_given]
  constructor
  · rintro ⟨⟨m, o⟩, he, rfl, rfl⟩
    exact he
  · exact fun h => ⟨_, h, rfl, rfl⟩

theorem supplied_pairsOf_cons (n m : Nat) (v : Option FieldValue) (es : List (Nat × Option FieldValue)) :
    supplied (pairsOf ((n, v) :: es)) m = if n = m then v.or (supplied (pairsOf es) m) else supplied (pairsOf es) m := by
  rw [pairsOf, List.flatMap_cons]
  exact supplied_given n m v _

theorem supplied_pairsOf_none {es : List (Nat × Option FieldValue)} {n : Nat} (h : n ∉ es.map (·.1)) : supplied (pairsOf es) n = none := by
  induction es with
  | nil => rfl
  | cons e es ih =>
    obtain ⟨hne, hn⟩ := not_or.1 (mt List.mem_cons.2 h)
    rw [supplied_pairsOf_cons, if_neg (Ne.symm hne), ih hn]

/-- R165: a field of the list supplies what stands beside its number. -/
theorem supplied_pairsOf {es : List (Nat × Option FieldValue)} (nodup : (es.map (·.1)).Nodup) {n : Nat} {v : Option FieldValue}
    (h : (n, v) ∈ es) : supplied (pairsOf es) n = v := by
  induction es with
  | nil => cases h
  | cons e es ih =>
    obtain ⟨m, o⟩ := e
    obtain ⟨new, nodup⟩ := List.nodup_cons.1 nodup
    rw [supplied_pairsOf_cons]
    rcases List.mem_cons.1 h with e | h
    · cases e
      rw [if_pos rfl, supplied_pairsOf_none new, Option.or_none]
    · rw [if_neg, ih nodup h]
      rintro rfl
      exact new (List.mem_map.2 ⟨_, h, rfl⟩)

theorem pairsOf_keys (es : List (Nat × Option FieldValue)) : ((pairsOf es).map (·.1)).Sublist (es.map (·.1)) := by
  induction es with
  | nil => exact List.Sublist.refl _
  | cons e es ih =>
    rw [pairsOf, List.flatMap_cons, List.map_append]
    exact (given_keys e.1 e.2).append ih

/-- R165: a value is of the kind that its field holds, and takes at most five bytes. -/
def PlainField (t : Nat) (e : Nat × Option FieldValue) : Prop := ∀ x, e.2 = some x → PlainPair t (e.1, x)

theorem plain_number {t n : Nat} (h : fieldKind t n = some .number) (v : Option Nat) : PlainField t (n, v.map .number) := by
  rintro x hx
  obtain ⟨m, -, rfl⟩ := Option.map_eq_some_iff.1 hx
  exact ⟨⟨_, h, rfl⟩, Nat.le_refl 5⟩

theorem plain_flag {t n : Nat} (h : fieldKind t n = some .flag) (v : Option Bool) : PlainField t (n, v.map .flag) := by
  rintro x hx
  obtain ⟨m, -, rfl⟩ := Option.map_eq_some_iff.1 hx
  exact ⟨⟨_, h, rfl⟩, (by decide : 2 ≤ 5)⟩

theorem plain_opt {t n : Nat} (h : fieldKind t n = some .numberOrNone) (v : Option (Option Nat)) : PlainField t (n, v.map optValue) := by
  rintro x hx
  obtain ⟨m, -, rfl⟩ := Option.map_eq_some_iff.1 hx
  cases m with
  | none => exact ⟨⟨_, h, rfl⟩, (by decide : 1 ≤ 5)⟩
  | some m => exact ⟨⟨_, h, rfl⟩, Nat.le_refl 5⟩

theorem PlainFields.of_fields {t : Nat} {es : List (Nat × Option FieldValue)} (nodup : (es.map (·.1)).Nodup) (few : es.length ≤ 22)
    (plain : ∀ e ∈ es, PlainField t e) : PlainFields t (pairsOf es) :=
  .of_keys (pairsOf_keys es) nodup (by rwa [List.length_map]) fun p hp => plain _ (mem_pairsOf.1 hp) _ rfl

/-! ### NODE (R167) -/

/-- R167: its fields, in the order of their numbers. -/
def NodeWrite.fields (w : NodeWrite) : List (Nat × Option FieldValue) :=
  [(1, w.holdTime.map .number), (2, w.silenceTime.map .number), (3, w.quietStart.map .number), (4, w.quietEnd.map .number),
   (5, w.walkRate.map .number), (6, w.wCorridor.map .number), (7, w.wStairUp.map .number), (8, w.wStairDown.map .number),
   (9, w.wLift.map .number), (10, w.wOpenDeck.map .number), (11, w.retention.map .number), (12, w.minRefresh[0].map .number),
   (13, w.minRefresh[1].map .number), (14, w.minRefresh[2].map .number), (15, w.minRefresh[3].map .number),
   (16, w.minRefresh[4].map .number), (17, w.minRefresh[5].map .number), (18, w.quietMask.map .number), (19, w.zoneGroup.map optValue),
   (20, w.reportDest.map .number), (21, w.reportPort.map .number), (22, w.txHop.map .number)]

theorem NodeWrite.pairs_eq (w : NodeWrite) : w.pairs = pairsOf w.fields := by
  unfold NodeWrite.pairs NodeWrite.fields pairsOf
  simp only [List.flatMap_cons, List.flatMap_nil, List.append_assoc, List.append_nil]

theorem NodeWrite.fields_nodup (w : NodeWrite) : (w.fields.map (·.1)).Nodup :=
  (by decide : [1, 2, 3, 4, 5, 6, 7, 8, 9, 10, 11, 12, 13, 14, 15, 16, 17, 18, 19, 20, 21, 22].Nodup)

theorem NodeWrite.plain (w : NodeWrite) : PlainFields 0 w.pairs := by
  rw [w.pairs_eq]
  refine .of_fields w.fields_nodup (Nat.le_refl 22) ?_
  unfold NodeWrite.fields
  simp only [List.forall_mem_cons]
  have number : ∀ {n : Nat}, fieldKind 0 n = some .number → ∀ v : Option Nat, PlainField 0 (n, v.map .number) := plain_number
  exact ⟨number rfl _, number rfl _, number rfl _, number rfl _, number rfl _, number rfl _, number rfl _, number rfl _, number rfl _,
    number rfl _, number rfl _, number rfl _, number rfl _, number rfl _, number rfl _, number rfl _, number rfl _, number rfl _,
    plain_opt rfl _, number rfl _, number rfl _, number rfl _, List.forall_mem_nil _⟩

/-- R167: the parameters after a WRITE. -/
theorem NodeParams.written_eq (w : NodeWrite) (n : NodeParams) {fs : FieldList} (h : fs.Perm w.pairs) : n.written fs = w.leaves n := by
  have given : ∀ (k : Nat) {f : Nat} {v : Option FieldValue}, w.fields[k]? = some (f, v) → supplied fs f = v := fun k f v hf => by
    rw [supplied_perm h w.plain.nodup, w.pairs_eq]
    exact supplied_pairsOf w.fields_nodup (List.mem_of_getElem? hf)
  have number : ∀ (k : Nat) {f lo hi : Nat} {v : Option Nat}, w.fields[k]? = some (f, v.map .number) → fieldRange 0 f = some (lo, hi) →
      ∀ old, numField 0 fs f old = v.elim old fun x => max lo (min hi x) := fun k f lo hi v hf hr old => by
    rw [numField_eq 0 fs f old v (given k hf), show bring 0 f = fun x => max lo (min hi x) from funext fun x => by
      simp [bring, maskWidth, hr, clampTo]]
  have low : ∀ hi : Nat, (fun x => max 0 (min hi x)) = min hi := fun hi => funext fun x => Nat.zero_max _
  have refresh : (Vector.ofFn fun c : Fin 6 => numField 0 fs (12 + c.val) n.minRefresh[c]) =
      Vector.ofFn fun c : Fin 6 => (w.minRefresh[c]).elim n.minRefresh[c] (min 600) := by
    refine congrArg Vector.ofFn (funext fun c => ?_)
    rw [← low 600]
    match c with
    | 0 => exact number 11 rfl rfl _
    | 1 => exact number 12 rfl rfl _
    | 2 => exact number 13 rfl rfl _
    | 3 => exact number 14 rfl rfl _
    | 4 => exact number 15 rfl rfl _
    | 5 => exact number 16 rfl rfl _
  have mask : BitVec.ofNat 8 (w.quietMask.elim n.quietMask.toNat (min 255)) =
      w.quietMask.elim n.quietMask fun v => BitVec.ofNat 8 (min 255 v) := by
    cases w.quietMask with
    | none => simp
    | some v => rfl
  have port : (if w.reportPort.elim (Port.code n.reportPort) (min 1) = 0 then Port.fore else .aft) =
      w.reportPort.elim n.reportPort fun v => if v = 0 then .fore else .aft := by
    cases w.reportPort with
    | none => cases n.reportPort <;> rfl
    | some v => cases v <;> simp
  have zone : optField 0 fs 19 n.zoneGroup = w.zoneGroup.elim n.zoneGroup fun v => v.map (min 14) := by
    rw [optField_eq 0 fs 19 _ w.zoneGroup (given 18 rfl), show bring 0 19 = min 14 from funext fun x => Nat.zero_max _]
  unfold NodeParams.written NodeWrite.leaves
  rw [number 0 rfl rfl, number 1 rfl rfl, number 2 rfl rfl, number 3 rfl rfl, number 4 rfl rfl, number 5 rfl rfl, number 6 rfl rfl,
    number 7 rfl rfl, number 8 rfl rfl, number 9 rfl rfl, number 10 rfl rfl, refresh, number 17 rfl rfl, zone, number 19 rfl rfl,
    number 20 rfl rfl, number 21 rfl rfl, low, low, low, low, mask, port]

/-- R167: the table of ranges holds the range of every field of NODE. -/
theorem bring_node_iff {f : Nat} (h : 1 ≤ f ∧ f ≤ 22) (v : Nat) :
    bring 0 f v ≠ v ↔ ∃ lo hi, (f, lo, hi) ∈ nodeRanges ∧ (v < lo ∨ hi < v) := by
  have range : ∀ e ∈ nodeRanges, fieldRange 0 e.1 = some e.2 ∧ e.2.1 ≤ e.2.2 := by decide
  have listed : ∀ k < 23, 1 ≤ k → ∃ e ∈ nodeRanges, e.1 = k := by decide
  have iff : ∀ {lo hi : Nat}, (f, lo, hi) ∈ nodeRanges → (bring 0 f v ≠ v ↔ v < lo ∨ hi < v) := fun he =>
    bring_ne_iff (by simp [maskWidth]) (range _ he).1 (range _ he).2 v
  obtain ⟨⟨k, lo, hi⟩, he, rfl⟩ := listed f (by omega) h.1
  exact ⟨fun hv => ⟨lo, hi, he, (iff he).1 hv⟩, fun ⟨_, _, he', hv⟩ => (iff he').2 hv⟩

theorem NodeWrite.adjusted_iff (w : NodeWrite) {fs : FieldList} (h : fs.Perm w.pairs) : numbersAdjusted 0 fs = true ↔ w.Adjusted := by
  rw [numbersAdjusted_perm h, numbersAdjusted_iff]
  unfold NodeWrite.Adjusted
  have own : ∀ {f v}, (f, FieldValue.number v) ∈ w.pairs → 1 ≤ f ∧ f ≤ 22 := fun hp => by
    obtain ⟨⟨k, hk, -⟩, -⟩ := w.plain.plain _ hp
    exact known_of_fieldKind hk
  constructor
  · rintro ⟨f, v, hp, hv⟩
    obtain ⟨lo, hi, he, hv⟩ := (bring_node_iff (own hp) v).1 hv
    exact ⟨f, v, lo, hi, hp, he, hv⟩
  · rintro ⟨f, v, lo, hi, hp, he, hv⟩
    exact ⟨f, v, hp, (bring_node_iff (own hp) v).2 ⟨lo, hi, he, hv⟩⟩

/-- R165, R167: an empty WRITE to NODE is one of no field. -/
theorem setNode_same (s : State) : s.setNode s.node = s := by simp [State.setNode]

theorem NodeParams.written_nil (n : NodeParams) : n.written [] = n := by
  have refresh : (Vector.ofFn fun c : Fin 6 => n.minRefresh[c]) = n.minRefresh := Vector.ext fun i hi => by simp
  have mask : BitVec.ofNat 8 n.quietMask.toNat = n.quietMask := by simp
  have port : (if Port.code n.reportPort = 0 then Port.fore else .aft) = n.reportPort := by cases n.reportPort <;> rfl
  show ({ n with
    minRefresh := Vector.ofFn fun c : Fin 6 => n.minRefresh[c], quietMask := BitVec.ofNat 8 n.quietMask.toNat
    reportPort := if Port.code n.reportPort = 0 then .fore else .aft } : NodeParams) = n
  rw [refresh, mask, port]

theorem writeTable_node (s : State) (o : Nat) (w : NodeWrite) {fs : FieldList} (h : fs.Perm w.pairs) :
    s.writeTable o 0 0 fs = .ok (s.setNode (w.leaves s.node), numbersAdjusted 0 fs) := by
  rw [← NodeParams.written_eq w s.node h]
  cases fs with
  | nil =>
    rw [NodeParams.written_nil, setNode_same]
    rfl
  | cons p fs =>
    have known := (w.plain.perm h).known
    simp [State.writeTable, State.writeNode, known]

/-! ### STRINGS (R127) -/

def StringWrite.fields (w : StringWrite) : List (Nat × Option FieldValue) :=
  [(1, w.enabled.map .flag), (2, w.timeout.map .number), (3, w.pollPeriod.map .number)]

theorem StringWrite.pairs_eq (w : StringWrite) : w.pairs = pairsOf w.fields := by
  unfold StringWrite.pairs StringWrite.fields pairsOf
  simp only [List.flatMap_cons, List.flatMap_nil, List.append_assoc, List.append_nil]

theorem StringWrite.fields_nodup (w : StringWrite) : (w.fields.map (·.1)).Nodup := (by decide : [1, 2, 3].Nodup)

theorem StringWrite.plain (w : StringWrite) : PlainFields 2 w.pairs := by
  rw [w.pairs_eq]
  refine .of_fields w.fields_nodup (by decide : 3 ≤ 22) ?_
  unfold StringWrite.fields
  simp only [List.forall_mem_cons]
  exact ⟨plain_flag rfl _, plain_number rfl _, plain_number rfl _, List.forall_mem_nil _⟩

/-- R127: the string after a WRITE. -/
theorem StringCtl.written_eq (w : StringWrite) (c : StringCtl) {fs : FieldList} (h : fs.Perm w.pairs) : c.written fs = w.leaves c := by
  have given : ∀ (k : Nat) {f : Nat} {v : Option FieldValue}, w.fields[k]? = some (f, v) → supplied fs f = v := fun k f v hf => by
    rw [supplied_perm h w.plain.nodup, w.pairs_eq]
    exact supplied_pairsOf w.fields_nodup (List.mem_of_getElem? hf)
  unfold StringCtl.written StringWrite.leaves
  rw [flagField_eq fs 1 _ w.enabled (given 0 rfl), numField_eq 2 fs 2 _ w.timeout (given 1 rfl),
    numField_eq 2 fs 3 _ w.pollPeriod (given 2 rfl)]
  rfl

theorem StringWrite.adjusted_iff (w : StringWrite) {fs : FieldList} (h : fs.Perm w.pairs) :
    numbersAdjusted 2 fs = true ↔ w.Adjusted := by
  rw [numbersAdjusted_perm h, numbersAdjusted_iff, w.pairs_eq]
  have timeout := bring_ne_iff (t := 2) (n := 2) rfl rfl (by decide)
  have period := bring_ne_iff (t := 2) (n := 3) rfl rfl (by decide)
  simp [mem_pairsOf, StringWrite.fields, StringWrite.Adjusted, or_and_right, exists_or, timeout, period]

theorem setStr_same (s : State) (k : StringNo) : s.setStr k (s.str k) = s := by
  have e : s.strings.set k.val (s.str k) k.isLt = s.strings := Vector.ext fun i hi => by
    rw [Vector.getElem_set]
    split
    · subst i
      rfl
    · rfl
  rw [State.setStr, e]

theorem StringCtl.written_nil (c : StringCtl) : c.written [] = c := rfl

theorem stringNo_val (k : StringNo) : stringNo k.val = k := Fin.ext (Nat.mod_eq_of_lt k.isLt)

/-- R127: a WRITE to a HELD string. -/
theorem writeTable_held {s : State} {k : StringNo} (held : (s.str k).state = .held) (o : Nat) (w : StringWrite) {fs : FieldList}
    (h : fs.Perm w.pairs) :
    s.writeTable o 2 k.val fs = .ok (s.setStr k (w.leaves (s.str k)), numbersAdjusted 2 fs) := by
  rw [← StringCtl.written_eq w (s.str k) h]
  cases fs with
  | nil =>
    rw [StringCtl.written_nil, setStr_same]
    simp [State.writeTable, State.entryExists, State.writeEmpty, stringNo_val, held, numbersAdjusted]
  | cons p fs =>
    have known := (w.plain.perm h).known
    simp [State.writeTable, State.writeString, stringNo_val, held, known]

/-- R127: a WRITE to any other string. -/
theorem writeTable_unheld {s : State} {k : StringNo} (unheld : (s.str k).state ≠ .held) (o : Nat) {fs : FieldList}
    (h : PlainFields 2 fs) : s.writeTable o 2 k.val fs = .error .busy := by
  cases fs with
  | nil => simp [State.writeTable, State.entryExists, State.writeEmpty, stringNo_val, unheld]
  | cons p fs =>
    simp [State.writeTable, State.writeString, stringNo_val, unheld, h.known]

/-! ### REGIONS (R171, R172) -/

def RegionWrite.fields (w : RegionWrite) : List (Nat × Option FieldValue) :=
  [(1, w.table.map optValue), (2, w.first.map .number), (3, w.last.map .number), (4, w.readContent.map .flag),
   (5, w.readMaintenance.map .flag), (6, w.readBridge.map .flag), (7, w.writeContent.map .flag), (8, w.writeMaintenance.map .flag),
   (9, w.writeBridge.map .flag), (10, w.lock.map .flag)]

theorem RegionWrite.pairs_eq (w : RegionWrite) : w.pairs = pairsOf w.fields := by
  unfold RegionWrite.pairs RegionWrite.fields pairsOf
  simp only [List.flatMap_cons, List.flatMap_nil, List.append_assoc, List.append_nil]

theorem RegionWrite.fields_nodup (w : RegionWrite) : (w.fields.map (·.1)).Nodup := (by decide : [1, 2, 3, 4, 5, 6, 7, 8, 9, 10].Nodup)

theorem RegionWrite.plain (w : RegionWrite) : PlainFields 13 w.pairs := by
  rw [w.pairs_eq]
  refine .of_fields w.fields_nodup (by decide : 10 ≤ 22) ?_
  unfold RegionWrite.fields
  simp only [List.forall_mem_cons]
  exact ⟨plain_opt rfl _, plain_number rfl _, plain_number rfl _, plain_flag rfl _, plain_flag rfl _, plain_flag rfl _, plain_flag rfl _,
    plain_flag rfl _, plain_flag rfl _, plain_flag rfl _, List.forall_mem_nil _⟩

theorem RegionWrite.supplied_eq (w : RegionWrite) {fs : FieldList} (h : fs.Perm w.pairs) (k : Nat) {f : Nat} {v : Option FieldValue}
    (hf : w.fields[k]? = some (f, v)) : supplied fs f = v := by
  rw [supplied_perm h w.plain.nodup, w.pairs_eq]
  exact supplied_pairsOf w.fields_nodup (List.mem_of_getElem? hf)

/-- R171, R172: the region after a WRITE. -/
theorem Region.written_eq (w : RegionWrite) (r : Region) {fs : FieldList} (h : fs.Perm w.pairs) : r.written fs = w.leaves r := by
  have given := @RegionWrite.supplied_eq w fs h
  have index : ∀ {f : Nat}, fieldRange 13 f = some (0, 65535) → bring 13 f = min 65535 := fun hr => funext fun v => by
    simp [bring, maskWidth, hr, clampTo]
  have table : (w.table.elim r.table fun v => v.map (bring 13 1)) = w.table.getD r.table := by
    rcases w.table with _ | _ | _ <;> rfl
  unfold Region.written RegionWrite.leaves
  rw [optField_eq 13 fs 1 _ w.table (given 0 rfl), table, numField_eq 13 fs 2 _ w.first (given 1 rfl), index rfl,
    numField_eq 13 fs 3 _ w.last (given 2 rfl), index rfl, flagField_eq fs 4 _ w.readContent (given 3 rfl),
    flagField_eq fs 5 _ w.readMaintenance (given 4 rfl), flagField_eq fs 6 _ w.readBridge (given 5 rfl),
    flagField_eq fs 7 _ w.writeContent (given 6 rfl), flagField_eq fs 8 _ w.writeMaintenance (given 7 rfl),
    flagField_eq fs 9 _ w.writeBridge (given 8 rfl), flagField_eq fs 10 _ w.lock (given 9 rfl)]

theorem RegionWrite.adjusted_iff (w : RegionWrite) {fs : FieldList} (h : fs.Perm w.pairs) :
    numbersAdjusted 13 fs = true ↔ ∃ v, (w.first = some v ∨ w.last = some v) ∧ 65535 < v := by
  rw [numbersAdjusted_perm h, numbersAdjusted_iff, w.pairs_eq]
  have first := bring_ne_iff (t := 13) (n := 2) rfl rfl (by decide)
  have last := bring_ne_iff (t := 13) (n := 3) rfl rfl (by decide)
  have table : ∀ v, bring 13 1 v = v := fun v => rfl
  simp [mem_pairsOf, RegionWrite.fields, or_and_right, exists_or, first, last, table]

/-- R172: the value check of a WRITE to REGIONS. -/
theorem RegionWrite.refused_iff (w : RegionWrite) (r : Region) {fs : FieldList} (h : fs.Perm w.pairs) :
    w.Refused r ↔ numberBreaks fs 1 (fun v => decide (v ≤ 15)) = true ∨ (r.written fs).last < (r.written fs).first := by
  have given := w.supplied_eq h 0 (f := 1) (v := w.table.map optValue) rfl
  rw [Region.written_eq w r h, RegionWrite.Refused]
  refine or_congr_left ?_
  unfold numberBreaks
  rw [given]
  rcases w.table with _ | _ | v <;> simp [optValue]

theorem region_val (s : State) (j : Fin 8) : s.region j.val = s.regions[j] :=
  congrArg (fun k : Fin 8 => s.regions[k]) (Fin.ext (Nat.mod_eq_of_lt j.isLt) : Fin.ofNat 8 j.val = j)

theorem setRegion_val (s : State) (j : Fin 8) (r : Region) : s.setRegion j.val r = { s with regions := s.regions.set j r } :=
  congrArg (fun k : Fin 8 => ({ s with regions := s.regions.set k r } : State))
    (Fin.ext (Nat.mod_eq_of_lt j.isLt) : Fin.ofNat 8 j.val = j)

theorem writeTable_region (s : State) (o : Nat) (j : Fin 8) (w : RegionWrite) {fs : FieldList} (h : fs.Perm w.pairs) (hne : fs ≠ []) :
    (w.Refused s.regions[j] → s.writeTable o 13 j.val fs = .error .badField) ∧
      (¬w.Refused s.regions[j] → s.writeTable o 13 j.val fs =
        .ok ({ s with regions := s.regions.set j (w.leaves s.regions[j]) }, numbersAdjusted 13 fs)) := by
  have known := (w.plain.perm h).known
  have e : s.writeTable o 13 j.val fs = s.writeRegion j.val fs := by
    cases fs with
    | nil => exact absurd rfl hne
    | cons p fs => rfl
  rw [e, w.refused_iff _ h, State.writeRegion, region_val]
  simp only [known, Bool.false_or]
  refine ⟨fun hr => ?_, fun hr => ?_⟩
  · rcases hr with hr | hr
    · rw [if_pos hr]
    · rw [if_pos hr, ite_self]
  · obtain ⟨h1, h2⟩ := not_or.1 hr
    rw [if_neg h1, if_neg h2, setRegion_val, Region.written_eq w _ h]

/-- R172: no origin writes or clears a locked region. -/
theorem mayWrite_locked {s : State} {j : Fin 8} (lock : s.regions[j].lock = true) (o : Nat) : s.mayWrite o 13 j.val = false := by
  rw [Bool.eq_false_iff]
  intro h
  obtain ⟨-, -, unlocked, -⟩ := (s.mayWrite_iff o 13 j.val j.isLt).1 h
  have := unlocked rfl
  rw [region_val, lock] at this
  cases this

theorem mayClearTable_locked {s : State} {j : Fin 8} (lock : s.regions[j].lock = true) (o : Nat) : s.mayClearTable o 13 = false := by
  rw [State.mayClearTable, Bool.and_eq_false_iff]
  refine Or.inr (List.all_eq_false.2 ⟨j.val, List.mem_range.2 j.isLt, ?_⟩)
  rw [mayWrite_locked lock]
  exact Bool.false_ne_true

/-- R166: a CLEAR_TABLE that access refuses. -/
theorem clearTable_denied {s : State} {a : Arrival} {t : Nat} (h : s.Asked a) (table : tableOk t = true)
    (access : s.mayClearTable a.origin t = false) : exec (.clearTable a t) s = .next (s.answered a 5 3 []) := by
  have e : s.answerClearTable a.origin t = s.refuse .denied := by
    simp [State.answerClearTable, State.checked, firstRefusal, table, access]
  refine congrArg Host.Outcome.next ((requestArrives_asked h (r := .clearTable t) (by decide : 2 ≤ 1024) rfl).trans ?_)
  rw [show s.respond a.origin (.clearTable t) = s.refuse .denied from e]
  rfl

/-! ### The statement -/

/-- R174: NODE and REGIONS are gated in no phase. -/
theorem phasePasses_ungated {t : Nat} (h : gatedTable t = false) (cabins : (t == tblCabins) = false) (s : State) (o : Nat) (fs : FieldList) :
    s.phasePassesWrite o t fs = true ∧ s.phasePassesClear o t = true := by
  simp [State.phasePassesWrite, State.phasePassesClear, h, cabins]

theorem code_le_one (b : Bool) : (if b then 1 else 0) ≤ 1 := by cases b <;> decide

theorem code_one_iff (b : Bool) : (if b then 1 else 0) = 1 ↔ b = true := by cases b <;> decide

theorem passes_node {s : State} {a : Arrival} (h : s.Asked a) {fs : FieldList} (plain : PlainFields 0 fs) : s.WritePasses a 0 0 fs :=
  ⟨h, plain, rfl, rfl, rfl, rfl⟩

theorem index_eight {t : Nat} (k : Fin 8) (size : tableSize t = 8) (programme : (t == tblProgramme) = false) :
    indexOk t k.val false = true := by
  simp [indexOk, size, bne, programme]

/-- Settles O25, table by table: what the WRITE of any fields leaves, and the CLEAR. -/
theorem configurationWrites : Obligations.ConfigurationWrites := by
  intro a s asked
  refine ⟨fun access => ?_, fun k change => ?_, fun j access => ?_, fun j lock => ?_⟩
  · have may : s.mayWrite a.origin 0 0 = true := (s.mayWrite_iff _ 0 0 (by decide)).2 access
    have phase := phasePasses_ungated (t := 0) rfl rfl s a.origin
    refine ⟨fun w fs h => ?_, ?_⟩
    · obtain ⟨node, taken⟩ := setNode_taken s (w.leaves s.node)
      refine ⟨_, _, (passes_node asked (w.plain.perm h)).taken may (phase fs).1 (writeTable_node s _ w h), code_le_one _,
        (code_one_iff _).trans (w.adjusted_iff h), node, taken⟩
    · obtain ⟨node, taken⟩ := setNode_taken s NodeParams.reset
      exact ⟨_, clear_taken asked rfl rfl may (phase []).2 rfl, node, taken⟩
  · obtain ⟨may, phase⟩ := Bool.and_eq_true_iff.1 ((s.mayChange_iff a 2 k.val k.isLt).2 change)
    have index : indexOk 2 k.val false = true := index_eight k rfl rfl
    have passes : ∀ {fs : FieldList}, PlainFields 2 fs → s.WritePasses a 2 k.val fs := fun plain => ⟨asked, plain, rfl, index, rfl, rfl⟩
    refine ⟨fun w fs h => ⟨fun unheld => ?_, fun held => ?_⟩, ?_⟩
    · exact (passes (w.plain.perm h)).refused may phase (writeTable_unheld unheld _ (w.plain.perm h))
    · exact ⟨_, (passes (w.plain.perm h)).taken may phase (writeTable_held held _ w h), code_le_one _,
        (code_one_iff _).trans (w.adjusted_iff h)⟩
    · have e : s.clearEntry a.origin 2 k.val = s.clearString k.val := rfl
      rw [State.clearString, stringNo_val] at e
      split
      · rename_i held
        rw [if_neg (not_not.2 held)] at e
        exact clear_taken asked rfl index may phase e
      · rename_i unheld
        rw [if_pos unheld] at e
        exact clear_refused asked rfl index may phase e
  · have may : s.mayWrite a.origin 13 j.val = true := (s.mayWrite_iff _ 13 j.val j.isLt).2 access
    have phase := phasePasses_ungated (t := 13) rfl rfl s a.origin
    have index : indexOk 13 j.val false = true := index_eight j rfl rfl
    have passes : ∀ {fs : FieldList}, PlainFields 13 fs → s.WritePasses a 13 j.val fs := fun plain => ⟨asked, plain, rfl, index, rfl, rfl⟩
    refine ⟨?_, fun w fs h hne => ⟨fun refused => ?_, fun passed => ?_⟩, ?_⟩
    · have none : PlainFields 13 [] := ⟨List.nodup_nil, Nat.zero_le _, List.forall_mem_nil _⟩
      exact (passes none).taken may (phase []).1 (b := false) rfl
    · exact (passes (w.plain.perm h)).refused may (phase fs).1 ((writeTable_region s _ j w h hne).1 refused)
    · exact ⟨_, code_le_one _, (code_one_iff _).trans (w.adjusted_iff h),
        (passes (w.plain.perm h)).taken may (phase fs).1 ((writeTable_region s _ j w h hne).2 passed)⟩
    · exact clear_taken asked rfl index may (phase []).2 (congrArg Except.ok (setRegion_val s j Region.reset))
  · have index : indexOk 13 j.val false = true := index_eight j rfl rfl
    refine ⟨fun w fs h => ?_, clear_denied asked rfl index (mayWrite_locked lock _), clearTable_denied asked rfl (mayClearTable_locked lock _)⟩
    exact State.WritePasses.denied ⟨asked, w.plain.perm h, rfl, index, rfl, rfl⟩ (mayWrite_locked lock _)

end Sys2Proof.Machine
end

section
/-! SUPPORT. What the traversals of a sweep do to the cells of a destination (R45 to R48): the form of the cells that every relaxation
keeps, the paths that k sweeps have walked, and why no solve outlasts the nodes. -/

namespace Sys2Proof.Machine

/-! ### Traversals offered -/

theorem one_le_walkEffort (p : NodeParams) (g : Segment) (back : Bool) : 1 ≤ p.walkEffort g back := Nat.le_max_left _ _

/-- R45: the traversals that a sweep tries are those that the present segments offer. -/
theorem mem_traversals {t : Tab Segment} (hr : Tab.Rising t) {h : Hop} {g : Segment} :
    (h, g) ∈ traversals t ↔ Tab.fetch t h.segment = some g ∧ (h.back = true → g.oneWay = false) := by
  obtain ⟨i, back⟩ := h
  have mem : (i, g) ∈ t ↔ Tab.fetch t i = some g := ⟨Tab.fetch_of_mem hr, Tab.mem_of_fetch⟩
  rw [traversals, List.mem_flatMap, ← mem]
  constructor
  · rintro ⟨⟨j, f⟩, hf, hm⟩
    rcases List.mem_cons.1 hm with e | hm
    · cases e
      exact ⟨hf, nofun⟩
    · cases ho : f.oneWay with
      | true => simp [ho] at hm
      | false =>
        rw [ho] at hm
        cases List.mem_singleton.1 hm
        exact ⟨hf, fun _ => ho⟩
  · rintro ⟨hf, ho⟩
    refine ⟨(i, g), hf, ?_⟩
    cases back with
    | false => exact List.mem_cons_self
    | true => simp [ho rfl]

/-- R45: both ends of a traversal that is offered are present nodes. -/
theorem State.Offers.present {s : State} {h : Hop} {u v c l : Nat} (ho : s.Offers h u v c l) :
    (∃ deck, Tab.fetch s.nodes u = some deck) ∧ ∃ deck, Tab.fetch s.nodes v = some deck := by
  obtain ⟨g, -, ⟨-, ha, hb, -⟩, -, rfl, rfl, -⟩ := ho
  cases h.back
  · exact ⟨ha, hb⟩
  · exact ⟨hb, ha⟩

theorem State.Offers.pos {s : State} {h : Hop} {u v c l : Nat} (ho : s.Offers h u v c l) : 1 ≤ c := by
  obtain ⟨g, -, -, -, -, -, -, rfl⟩ := ho
  exact one_le_walkEffort _ _ _

theorem State.Offers.lt {s : State} {h : Hop} {u v c l : Nat} (ho : s.Offers h u v c l) (nodes : ∀ e ∈ s.nodes, e.1 < 256) :
    u < 256 ∧ v < 256 := by
  obtain ⟨⟨_, hu⟩, _, hv⟩ := ho.present
  exact ⟨nodes _ (Tab.mem_of_fetch hu), nodes _ (Tab.mem_of_fetch hv)⟩

/-- The traversals of a list are all offered by the present segments. -/
def State.Listed (s : State) (ts : List (Hop × Segment)) : Prop :=
  ∀ p ∈ ts, Tab.fetch s.segments p.1.segment = some p.2 ∧ (p.1.back = true → p.2.oneWay = false)

theorem listed_traversals {s : State} (hr : Tab.Rising s.segments) : s.Listed (traversals s.segments) := fun _ hp =>
  (mem_traversals hr).1 hp

theorem State.Listed.tail {s : State} {p : Hop × Segment} {ts : List (Hop × Segment)} (h : s.Listed (p :: ts)) : s.Listed ts :=
  fun q hq => h q (List.mem_cons_of_mem _ hq)

/-- R47: a traversal that is taken is offered, and betters its near node. -/
theorem State.Betters.offers {s : State} {h : Hop} {g : Segment} {u v candidate : Nat} {cells : Nat → Cell}
    (better : s.Betters h g u v cells candidate) {rest : List (Hop × Segment)} (listed : s.Listed ((h, g) :: rest)) :
    ∃ far, s.Offers h u v (s.node.walkEffort g h.back) g.length ∧ (cells v).effort = some far ∧
      candidate = s.node.walkEffort g h.back + far := by
  obtain ⟨passable, hu, hv, ⟨far, hfar, e⟩, -, -⟩ := better
  obtain ⟨hf, ho⟩ := listed _ List.mem_cons_self
  exact ⟨far, ⟨g, hf, passable, ho, hu, hv, rfl, rfl⟩, hfar, e⟩

/-! ### The form of the cells -/

/-- R47: what `State.SolveOk` says of cells, read as a function of the node. -/
structure State.CellsOk (s : State) (targets : List Nat) (cells : Nat → Cell) : Prop where
  target : ∀ n ∈ targets, cells n = { effort := some 0, length := 0, hop := none }
  hop : ∀ n e, n ∉ targets → (cells n).effort = some e →
    1 ≤ e ∧ e ≤ 65534 ∧ ∃ h v c l ev, (cells n).hop = some h ∧ s.Offers h n v c l ∧ (cells v).effort = some ev ∧
      ((e = c + ev ∧ (cells n).length = min 65535 (l + (cells v).length)) ∨ c + ev < e)
  cut : ∀ n, n ∉ targets → (cells n).effort = none → (cells n).hop = none

theorem solveOk_iff (s : State) (t : Dest) : s.SolveOk t ↔ s.CellsOk t.targets (cellAt t.cells) :=
  ⟨fun h => ⟨h.target, h.hop, h.cut⟩, fun h => ⟨h.target, h.hop, h.cut⟩⟩

/-- The cells with that of one node set. -/
def setCell (cells : Nat → Cell) (u : Nat) (c : Cell) : Nat → Cell := fun j => if j = u then c else cells j

@[simp] theorem setCell_same (cells : Nat → Cell) (u : Nat) (c : Cell) : setCell cells u c u = c := if_pos rfl

theorem setCell_ne (cells : Nat → Cell) {u j : Nat} (c : Cell) (h : j ≠ u) : setCell cells u c j = cells j := if_neg h

/-- The cells after a traversal that is taken. -/
abbrev takenCells (h : Hop) (g : Segment) (u v candidate : Nat) (cells : Nat → Cell) : Nat → Cell :=
  setCell cells u { effort := some candidate, length := min 65535 (g.length + (cells v).length), hop := some h }

/-- R47: a traversal that is taken keeps the form of the cells. -/
theorem State.CellsOk.taken {s : State} {targets : List Nat} {cells : Nat → Cell} (ok : s.CellsOk targets cells) {h : Hop} {g : Segment}
    {u v candidate : Nat} (better : s.Betters h g u v cells candidate) {rest : List (Hop × Segment)}
    (listed : s.Listed ((h, g) :: rest)) : s.CellsOk targets (takenCells h g u v candidate cells) := by
  obtain ⟨far, offers, hfar, hc⟩ := better.offers listed
  obtain ⟨-, -, -, -, bound, less⟩ := better
  have pos := offers.pos
  have near : u ∉ targets := fun hm => by
    have := less 0 (by rw [ok.target u hm])
    omega
  have apart : v ≠ u := by
    rintro rfl
    have := less far hfar
    omega
  constructor
  · intro n hn
    rw [takenCells, setCell_ne _ _ (by rintro rfl; exact near hn)]
    exact ok.target n hn
  · intro n e hn he
    by_cases hnu : n = u
    · subst hnu
      rw [takenCells, setCell_same] at he ⊢
      rw [← Option.some.inj he]
      refine ⟨by omega, bound, h, v, _, _, far, rfl, offers, ?_, Or.inl ⟨hc, ?_⟩⟩
      · rw [setCell_ne _ _ apart]
        exact hfar
      · rw [setCell_ne _ _ apart]
    · rw [takenCells, setCell_ne _ _ hnu] at he ⊢
      obtain ⟨one, cap, h', v', c', l', ev, hop, offers', hev, form⟩ := ok.hop n e hn he
      refine ⟨one, cap, h', v', c', l', ?_⟩
      by_cases hvu : v' = u
      · subst hvu
        have := less ev hev
        exact ⟨candidate, hop, offers', by rw [setCell_same], Or.inr (by omega)⟩
      · rw [setCell_ne _ _ hvu]
        exact ⟨ev, hop, offers', hev, form⟩
  · intro n hn he
    by_cases hnu : n = u
    · subst hnu
      rw [takenCells, setCell_same] at he
      cases he
    · rw [takenCells, setCell_ne _ _ hnu] at he ⊢
      exact ok.cut n hn he

theorem State.Swept.cellsOk {s : State} {targets : List Nat} {ts : List (Hop × Segment)} {before after : Nat → Cell} {n : Nat}
    (h : s.Swept ts before after n) (listed : s.Listed ts) (ok : s.CellsOk targets before) : s.CellsOk targets after := by
  induction h with
  | done cells => exact ok
  | taken h g rest u v candidate before after n better later ih => exact ih listed.tail (ok.taken better listed)
  | passed h g rest before after n worse later ih => exact ih listed.tail ok

/-! ### Efforts go down, and every traversal is accounted for -/

/-- An effort that stands at a node is at most a bound. -/
def EffortWithin (c : Cell) (w : Nat) : Prop := ∃ e, c.effort = some e ∧ e ≤ w

theorem EffortWithin.mono {c : Cell} {w x : Nat} (h : EffortWithin c w) (hw : w ≤ x) : EffortWithin c x :=
  h.imp fun _ p => ⟨p.1, p.2.trans hw⟩

theorem State.Betters.lowers {s : State} {h : Hop} {g : Segment} {u v candidate : Nat} {cells : Nat → Cell}
    (better : s.Betters h g u v cells candidate) {j w : Nat} (within : EffortWithin (cells j) w) :
    EffortWithin (takenCells h g u v candidate cells j) w := by
  obtain ⟨-, -, -, -, -, less⟩ := better
  by_cases hj : j = u
  · subst hj
    obtain ⟨e, he, hw⟩ := within
    rw [takenCells, setCell_same]
    exact ⟨candidate, rfl, (less e he).le.trans hw⟩
  · rw [takenCells, setCell_ne _ _ hj]
    exact within

/-- R47: no effort rises in a sweep. -/
theorem State.Swept.lowers {s : State} {ts : List (Hop × Segment)} {before after : Nat → Cell} {n : Nat} (h : s.Swept ts before after n)
    {j w : Nat} (within : EffortWithin (before j) w) : EffortWithin (after j) w := by
  induction h with
  | done cells => exact within
  | taken h g rest u v candidate before after n better later ih => exact ih (better.lowers within)
  | passed h g rest before after n worse later ih => exact ih within

/-- R47: a traversal that is not taken leaves its near node within its candidate. -/
theorem effortWithin_of_worse {s : State} {h : Hop} {g : Segment} {cells : Nat → Cell}
    (worse : ∀ u v candidate, ¬s.Betters h g u v cells candidate) (passable : s.Passable g) {far : Nat} (hfar : (cells (if h.back then g.a else g.b)).effort = some far)
    (cap : s.node.walkEffort g h.back + far ≤ 65534) :
    EffortWithin (cells (if h.back then g.b else g.a)) (s.node.walkEffort g h.back + far) := by
  by_contra hw
  refine worse _ _ _ ⟨passable, rfl, rfl, ⟨far, hfar, rfl⟩, cap, fun own hown => ?_⟩
  exact Nat.lt_of_not_le fun hle => hw ⟨own, hown, hle⟩

/-- R47: after a sweep the near node of each of its traversals is within the candidate that the cells before the sweep give. -/
theorem State.Swept.within {s : State} {ts : List (Hop × Segment)} {before after : Nat → Cell} {n : Nat} (hs : s.Swept ts before after n)
    {h : Hop} {g : Segment} (hm : (h, g) ∈ ts) (passable : s.Passable g) {w : Nat}
    (far : EffortWithin (before (if h.back then g.a else g.b)) w) (cap : s.node.walkEffort g h.back + w ≤ 65534) :
    EffortWithin (after (if h.back then g.b else g.a)) (s.node.walkEffort g h.back + w) := by
  induction hs with
  | done cells => cases hm
  | taken h' g' rest u v candidate before after n better later ih =>
    rcases List.mem_cons.1 hm with e | hm
    · cases e
      have taken : EffortWithin (takenCells h g u v candidate before u) (s.node.walkEffort g h.back + w) := by
        obtain ⟨-, -, rfl, ⟨ev, hev, rfl⟩, -, -⟩ := better
        obtain ⟨e, he, hw⟩ := far
        rw [hev] at he
        cases he
        rw [takenCells, setCell_same]
        exact ⟨_, rfl, Nat.add_le_add_left hw _⟩
      obtain ⟨-, rfl, -⟩ := better
      exact later.lowers taken
    · exact ih hm (better.lowers far)
  | passed h' g' rest before after n worse later ih =>
    rcases List.mem_cons.1 hm with e | hm
    · cases e
      obtain ⟨e, he, hw⟩ := far
      exact later.lowers ((effortWithin_of_worse worse passable he (by omega)).mono (Nat.add_le_add_left hw _))
    · exact ih hm far

/-- `State.Swept.within`, by the traversal offered. -/
theorem State.Swept.within_offer {s : State} {before after : Nat → Cell} {n : Nat} (hr : Tab.Rising s.segments)
    (hs : s.Swept (traversals s.segments) before after n) {h : Hop} {u v c l w : Nat} (ho : s.Offers h u v c l)
    (far : EffortWithin (before v) w) (cap : c + w ≤ 65534) : EffortWithin (after u) (c + w) := by
  obtain ⟨g, hf, passable, back, rfl, rfl, -, rfl⟩ := ho
  exact hs.within ((mem_traversals hr).2 ⟨hf, back⟩) passable far cap

/-! ### The paths walked (R48) -/

/-- R48: every node has an effort no greater than that of any path of at most `k` traversals. -/
def State.Walked (s : State) (targets : List Nat) (k : Nat) (cells : Nat → Cell) : Prop :=
  ∀ j ≤ k, ∀ n w, s.Reaches targets j n w → w ≤ 65534 → EffortWithin (cells n) w

theorem State.CellsOk.walked_zero {s : State} {targets : List Nat} {cells : Nat → Cell} (ok : s.CellsOk targets cells) :
    s.Walked targets 0 cells := by
  intro j hj n w hp _
  obtain rfl := Nat.le_zero.1 hj
  obtain ⟨hn, rfl⟩ := hp
  exact ⟨0, by rw [ok.target n hn], le_rfl⟩

/-- R48: one more sweep walks one more traversal. -/
theorem State.Swept.walked {s : State} (hr : Tab.Rising s.segments) {targets : List Nat} {before after : Nat → Cell} {n k : Nat}
    (hs : s.Swept (traversals s.segments) before after n) (walked : s.Walked targets k before) : s.Walked targets (k + 1) after := by
  intro j hj m w hp cap
  cases j with
  | zero => exact hs.lowers (walked 0 (Nat.zero_le k) m w hp cap)
  | succ j =>
    obtain ⟨h, v, c, l, w', offers, path, rfl⟩ := hp
    exact hs.within_offer hr offers (walked j (by omega) v w' path (by omega)) cap

/-- The nodes whose effort is below a bound. -/
def nodesBelow (cells : Nat → Cell) (e : Nat) : Finset Nat := (Finset.range 256).filter fun m => (cells m).effort.any (· < e) = true

theorem mem_nodesBelow {cells : Nat → Cell} {e m : Nat} :
    m ∈ nodesBelow cells e ↔ m < 256 ∧ ∃ x, (cells m).effort = some x ∧ x < e := by
  rw [nodesBelow, Finset.mem_filter, Finset.mem_range, Option.any_eq_true]
  simp only [decide_eq_true_eq]

/-- R47: the next hops lead from a node to a target along a path of no greater effort, through nodes of ever lower effort. -/
theorem State.CellsOk.path {s : State} {targets : List Nat} {cells : Nat → Cell} (ok : s.CellsOk targets cells)
    (nodes : ∀ e ∈ s.nodes, e.1 < 256) {e : Nat} : ∀ n, (cells n).effort = some e →
      ∃ k w, s.Reaches targets k n w ∧ w ≤ e ∧ k ≤ (nodesBelow cells e).card := by
  induction e using Nat.strong_induction_on with
  | _ e ih =>
    intro n he
    by_cases hn : n ∈ targets
    · exact ⟨0, 0, ⟨hn, rfl⟩, Nat.zero_le _, Nat.zero_le _⟩
    · obtain ⟨-, -, h, v, c, l, ev, -, offers, hev, form⟩ := ok.hop n e hn he
      have pos := offers.pos
      have lower : c + ev ≤ e := by omega
      obtain ⟨k, w, path, hw, hk⟩ := ih ev (by omega) v hev
      refine ⟨k + 1, c + w, ⟨h, v, c, l, w, offers, path, rfl⟩, by omega, hk.trans_lt ?_⟩
      refine Finset.card_lt_card ((Finset.ssubset_iff_of_subset fun m hm => ?_).2 ⟨v, ?_, ?_⟩)
      · obtain ⟨lt, x, hx, hlt⟩ := mem_nodesBelow.1 hm
        exact mem_nodesBelow.2 ⟨lt, x, hx, by omega⟩
      · exact mem_nodesBelow.2 ⟨(offers.lt nodes).2, ev, hev, by omega⟩
      · intro hm
        obtain ⟨-, x, hx, hlt⟩ := mem_nodesBelow.1 hm
        rw [hev] at hx
        cases hx
        omega

/-- R48: after 255 sweeps no traversal betters any cell, since a shortest path visits each of the 256 nodes at most once. -/
theorem State.CellsOk.least_of_walked {s : State} {targets : List Nat} {cells : Nat → Cell} (ok : s.CellsOk targets cells)
    (nodes : ∀ e ∈ s.nodes, e.1 < 256) (walked : s.Walked targets 255 cells) {h : Hop} {u v c l ev : Nat} (ho : s.Offers h u v c l)
    (hev : (cells v).effort = some ev) (cap : c + ev ≤ 65534) : EffortWithin (cells u) (c + ev) := by
  by_contra hw
  obtain ⟨k, w, path, hwe, hk⟩ := ok.path nodes v hev
  obtain ⟨hu, hv⟩ := ho.lt nodes
  have high : ∀ m ∈ ({u, v} : Finset Nat), m ∉ nodesBelow cells ev := by
    intro m hm hb
    obtain ⟨-, x, hx, hlt⟩ := mem_nodesBelow.1 hb
    rcases Finset.mem_insert.1 hm with rfl | hm
    · exact hw ⟨x, hx, by omega⟩
    · obtain rfl := Finset.mem_singleton.1 hm
      rw [hev] at hx
      cases hx
      omega
  have apart : u ≠ v := by
    rintro rfl
    exact hw ⟨ev, hev, by omega⟩
  have room : (nodesBelow cells ev).card + 2 ≤ 256 := by
    rw [← Finset.card_pair apart, ← Finset.card_union_of_disjoint (Finset.disjoint_right.2 high), ← Finset.card_range 256]
    refine Finset.card_le_card (Finset.union_subset (Finset.filter_subset _ _) fun m hm => Finset.mem_range.2 ?_)
    rcases Finset.mem_insert.1 hm with rfl | hm
    · exact hu
    · rw [Finset.mem_singleton.1 hm]
      exact hv
  exact hw ((walked (k + 1) (by omega) u (c + w) ⟨h, v, c, l, w, ho, path, rfl⟩ (by omega)).mono (by omega))

/-- A sweep over cells that no traversal betters takes none. -/
theorem State.Swept.none_taken {s : State} {ts : List (Hop × Segment)} {before after : Nat → Cell} {n : Nat} (hs : s.Swept ts before after n)
    (listed : s.Listed ts)
    (least : ∀ h u v c l ev, s.Offers h u v c l → (before v).effort = some ev → c + ev ≤ 65534 → EffortWithin (before u) (c + ev)) :
    n = 0 := by
  induction hs with
  | done cells => rfl
  | taken h g rest u v candidate before after n better later ih =>
    obtain ⟨far, offers, hfar, hc⟩ := better.offers listed
    obtain ⟨-, -, -, -, bound, less⟩ := better
    obtain ⟨own, hown, hle⟩ := least h u v _ _ far offers hfar (by omega)
    have := less own hown
    omega
  | passed h g rest before after n worse later ih => exact ih listed.tail least

end Sys2Proof.Machine
end

section
/-! SUPPORT. What the route field rests on (R45, R46, R52): the walking graph as the solver reads it, and the destinations that a change
of it invalidates. -/

namespace Sys2Proof.Machine

/-! ### Two states with one walking graph -/

/-- R45, R46: two states in which the same traversals are passable, at the same efforts. -/
structure State.SameGraph (s t : State) : Prop where
  nodes : t.nodes = s.nodes
  segments : t.segments = s.segments
  weights : t.node.weights = s.node.weights
  emergency : t.ship.phase.emergency = s.ship.phase.emergency
  closures : ∀ c, Tab.fetchD t.ship.closures c .unknown = .closed ↔ Tab.fetchD s.ship.closures c .unknown = .closed

theorem State.SameGraph.refl (s : State) : s.SameGraph s := ⟨rfl, rfl, rfl, rfl, fun _ => Iff.rfl⟩

theorem State.SameGraph.trans {s t u : State} (h : s.SameGraph t) (g : t.SameGraph u) : s.SameGraph u :=
  ⟨g.nodes.trans h.nodes, g.segments.trans h.segments, g.weights.trans h.weights, g.emergency.trans h.emergency,
    fun c => (g.closures c).trans (h.closures c)⟩

theorem Phase.not_emergency_iff (p : Phase) : p.emergency = false ↔ p = .normal ∨ p = .standDown := by cases p <;> decide

theorem State.SameGraph.passable {s t : State} (h : s.SameGraph t) {g : Segment} (hp : s.Passable g) : t.Passable g := by
  obtain ⟨enabled, a, b, closure, lift, muster⟩ := hp
  refine ⟨enabled, by rwa [h.nodes], by rwa [h.nodes], fun c hc => mt (h.closures c).1 (closure c hc), fun hk => ?_, fun hm => ?_⟩
  · rw [← Phase.not_emergency_iff, h.emergency, Phase.not_emergency_iff]
    exact lift hk
  · rw [← Phase.emergency_iff, h.emergency, Phase.emergency_iff]
    exact muster hm

theorem NodeParams.walkWeight_of_weights {m n : NodeParams} (h : m.weights = n.weights) (k : SegmentKind) (back : Bool) :
    m.walkWeight k back = n.walkWeight k back := by
  simp only [NodeParams.weights, List.cons.injEq] at h
  obtain ⟨corridor, up, down, lift, deck, -⟩ := h
  cases k <;> cases back
  all_goals simp only [NodeParams.walkWeight, corridor, up, down, lift, deck]

theorem State.SameGraph.symm {s t : State} (h : s.SameGraph t) : t.SameGraph s :=
  ⟨h.nodes.symm, h.segments.symm, h.weights.symm, h.emergency.symm, fun c => (h.closures c).symm⟩

theorem State.SameGraph.offers {s t : State} (h : s.SameGraph t) {p : Hop} {u v c l : Nat} (ho : s.Offers p u v c l) :
    t.Offers p u v c l := by
  obtain ⟨g, hf, passable, back, hu, hv, hl, rfl⟩ := ho
  refine ⟨g, by rwa [h.segments], h.passable passable, back, hu, hv, hl, ?_⟩
  rw [NodeParams.walkEffort, NodeParams.walkEffort, NodeParams.walkWeight_of_weights h.weights]

theorem State.SameGraph.reaches {s t : State} (h : s.SameGraph t) {targets : List Nat} : ∀ {k n w : Nat}, s.Reaches targets k n w →
    t.Reaches targets k n w
  | 0, _, _, hp => hp
  | _ + 1, _, _, ⟨p, v, c, l, w, offers, path, e⟩ => ⟨p, v, c, l, w, h.offers offers, h.reaches path, e⟩

theorem State.SameGraph.solveOk {s t : State} (h : s.SameGraph t) {e : Dest} (ok : s.SolveOk e) : t.SolveOk e := by
  refine ⟨ok.target, fun n x hn hx => ?_, ok.cut⟩
  obtain ⟨one, cap, p, v, c, l, ev, hop, offers, form⟩ := ok.hop n x hn hx
  exact ⟨one, cap, p, v, c, l, ev, hop, h.offers offers, form⟩

theorem State.SameGraph.settledOk {s t : State} (h : s.SameGraph t) {e : Dest} (ok : s.SettledOk e) : t.SettledOk e := by
  refine ⟨ok.target, fun n x hn hx => ?_, fun p u v c l ev offers => ok.least p u v c l ev (h.symm.offers offers)⟩
  obtain ⟨one, cap, p, v, c, l, ev, hop, offers, form⟩ := ok.hop n x hn hx
  exact ⟨one, cap, p, v, c, l, ev, hop, h.offers offers, form⟩

/-! ### What keeps the solver's invariant but the solver's own steps -/

/-- R52: every destination is PENDING. -/
def State.AllPending (t : State) : Prop := ∀ d x, Tab.fetch t.dests d = some x → x.status = .pending

/-- R52, R54: from one state to another the nodes stay below 256, and either every destination is PENDING afterwards, or the walking
graph stays and each destination is PENDING or as it was. -/
structure State.KeepsRoutes (s t : State) : Prop where
  nodes : (∀ e ∈ s.nodes, e.1 < 256) → ∀ e ∈ t.nodes, e.1 < 256
  routes : t.AllPending ∨
    (s.SameGraph t ∧ ∀ d x, Tab.fetch t.dests d = some x → x.status = .pending ∨ Tab.fetch s.dests d = some x)

theorem State.KeepsRoutes.trans {s t u : State} (h : s.KeepsRoutes t) (g : t.KeepsRoutes u) : s.KeepsRoutes u := by
  refine ⟨g.nodes ∘ h.nodes, ?_⟩
  rcases g.routes with pending | ⟨graph', kept'⟩
  · exact Or.inl pending
  · rcases h.routes with pending | ⟨graph, kept⟩
    · exact Or.inl fun d x hx => (kept' d x hx).elim id (pending d x)
    · exact Or.inr ⟨graph.trans graph', fun d x hx => (kept' d x hx).elim Or.inl (kept d x)⟩

theorem keepsRoutes_of_same {s t : State} (graph : s.SameGraph t) (dests : t.dests = s.dests) : s.KeepsRoutes t :=
  ⟨by rw [graph.nodes]; exact id, Or.inr ⟨graph, fun d x hx => Or.inr (dests ▸ hx)⟩⟩

theorem State.KeepsRoutes.refl (s : State) : s.KeepsRoutes s := keepsRoutes_of_same (.refl s) rfl

theorem State.KeepsRoutes.foldl {α : Type} {f : State → α → State} (h : ∀ (s : State) (a : α), s.KeepsRoutes (f s a)) (l : List α)
    (s : State) : s.KeepsRoutes (l.foldl f s) := by
  induction l generalizing s with
  | nil => exact .refl s
  | cons a l ih => exact (h s a).trans (ih _)

theorem State.InvalidatesAll.allPending {s t : State} (h : s.InvalidatesAll t) : t.AllPending := by
  intro d x hx
  obtain ⟨none, some⟩ := h d
  cases hd : Tab.fetch s.dests d with
  | none =>
    rw [none hd] at hx
    cases hx
  | some e =>
    obtain ⟨cells, he, -⟩ := some e hd
    rw [he] at hx
    cases hx
    rfl

theorem invalidateAll_allPending (s : State) : s.invalidateAll.AllPending := (invalidateAll_invalidates s).allPending

/-- R37, R44 to R50: a change that keeps the routes keeps all that holds of the solver. -/
theorem State.KeepsRoutes.solverOk {s t : State} (h : s.KeepsRoutes t) (ok : s.SolverOk) : t.SolverOk := by
  have nodes := h.nodes ok.nodes
  rcases h.routes with pending | ⟨graph, kept⟩
  · have never : ∀ st : DestStatus, st ≠ .pending → ∀ ⦃d x⦄ {p : Prop}, Tab.fetch t.dests d = some x → x.status = st → p :=
      fun st hst d x p hx hs => absurd (hs.symm.trans (pending d x hx)) hst
    have solving := never .solving nofun
    have suspended := never .suspended nofun
    have settled := never .settled nofun
    exact {
      one := fun _ _ _ _ hx _ hs _ => solving hx hs
      suspended := fun _ _ _ _ hx _ hs _ => suspended hx hs
      alarm := fun _ _ hx hs => suspended hx hs
      overtaken := fun _ _ _ _ hx _ hs _ => suspended hx hs
      solving := fun _ _ hx hs => hs.elim (solving hx) (suspended hx)
      settled := fun _ _ hx hs => settled hx hs
      nodes := nodes
      walked := fun _ _ hx hs => hs.elim (solving hx) (suspended hx)
      bounded := fun _ _ hx hs => hs.elim (solving hx) (suspended hx)
      final := fun _ _ hx hs => settled hx hs }
  · have was : ∀ st : DestStatus, st ≠ .pending → ∀ ⦃d x⦄, Tab.fetch t.dests d = some x → x.status = st →
        Tab.fetch s.dests d = some x :=
      fun st hst d x hx hs => (kept d x hx).resolve_left (hs ▸ hst)
    have solving := was .solving nofun
    have suspended := was .suspended nofun
    have settled := was .settled nofun
    have busy : ∀ ⦃d x⦄, Tab.fetch t.dests d = some x → x.status = .solving ∨ x.status = .suspended → Tab.fetch s.dests d = some x :=
      fun _ _ hx hs => hs.elim (solving hx) (suspended hx)
    exact {
      one := fun d e x y hx hy hs hs' => ok.one d e x y (solving hx hs) (solving hy hs') hs hs'
      suspended := fun d e x y hx hy hs hs' => ok.suspended d e x y (suspended hx hs) (suspended hy hs') hs hs'
      alarm := fun d x hx hs => by
        rw [← Phase.emergency_iff, graph.emergency, Phase.emergency_iff]
        exact ok.alarm d x (suspended hx hs) hs
      overtaken := fun d e x y hx hy hs hs' => ok.overtaken d e x y (suspended hx hs) (solving hy hs') hs hs'
      solving := fun d x hx hs => graph.solveOk (ok.solving d x (busy hx hs) hs)
      settled := fun d x hx hs => graph.settledOk (ok.settled d x (settled hx hs) hs)
      nodes := nodes
      walked := fun d x hx hs k hk n w hp => ok.walked d x (busy hx hs) hs k hk n w (graph.symm.reaches hp)
      bounded := fun d x hx hs => ok.bounded d x (busy hx hs) hs
      final := fun d x hx hs => ok.final d x (settled hx hs) hs }

/-! ### The parts that the solver does not read -/

/-- Every part but the Ship State Unit, the node parameters, the walking graph and the destinations. -/
abbrev calmParts : List Part :=
  [.pending, .now, .straps, .displays, .lists, .programme, .lastEvaluation, .cabins, .lossReported, .notices, .templates, .selection,
   .texts, .regions, .strings, .quietCopy, .fore, .aft, .address, .watermark, .replies, .reports, .reportArrival, .reportSeq, .draws]

/-- From one state to another all that the solver reads stays. -/
abbrev State.Calm (s t : State) : Prop := s.Only t calmParts

theorem calm_of {s t : State} (ship : t.ship = s.ship) (node : t.node = s.node) (nodes : t.nodes = s.nodes)
    (segments : t.segments = s.segments) (dests : t.dests = s.dests) : s.Calm t := by
  intro p hp
  cases p
  case ship => exact ship
  case node => exact node
  case nodes => exact nodes
  case segments => exact segments
  case dests => exact dests
  all_goals simp at hp

theorem calm_screens {s t : State} (h : s.ScreensOnly t) : s.Calm t := h.only.mono _ (by decide)

/-- What leaves the walking graph and the destinations alone, and of the Ship State Unit the phase and the closures, keeps the
routes. -/
theorem keepsRoutes_of_parts {s t : State} {ps : List Part} (h : s.Only t ps)
    (parts : ∀ p ∈ ([.node, .nodes, .segments, .dests] : List Part), p ∉ ps) (phase : t.ship.phase = s.ship.phase)
    (closures : t.ship.closures = s.ship.closures) : s.KeepsRoutes t := by
  have node : t.node = s.node := h .node (parts _ (by decide))
  exact keepsRoutes_of_same ⟨h .nodes (parts _ (by decide)), h .segments (parts _ (by decide)), by rw [node], by rw [phase],
    fun c => by rw [closures]⟩ (h .dests (parts _ (by decide)))

theorem State.Only.keepsRoutes {s t : State} (h : s.Calm t) : s.KeepsRoutes t := by
  have ship : t.ship = s.ship := h .ship (by decide)
  exact keepsRoutes_of_parts h (by decide) (by rw [ship]) (by rw [ship])

/-! ### The Ship State Unit -/

/-- R53: a phase entered invalidates where it changes the walking graph. -/
theorem State.Entered.keepsRoutes {s t : State} {r : Phase} {d : Bool} (h : s.Entered t r d) : s.KeepsRoutes t := by
  have rest := h.rest
  have nodes : t.nodes = s.nodes := (congrArg State.nodes rest :)
  by_cases same : r = .alert ∨ r = .muster ↔ s.ship.phase = .alert ∨ s.ship.phase = .muster
  · refine keepsRoutes_of_same ⟨nodes, (congrArg State.segments rest :), by rw [show t.node = s.node from (congrArg State.node rest :)],
      ?_, fun c => ?_⟩ (h.routes same)
    · rw [h.ship, Bool.eq_iff_iff, Phase.emergency_iff, Phase.emergency_iff]
      exact same
    · rw [h.ship]
  · exact ⟨by rw [nodes]; exact id, Or.inl (h.invalidated same).allPending⟩

theorem changePhase_routes (s : State) (r : Phase) (drill : Bool) : s.KeepsRoutes (s.changePhase r drill) :=
  (changePhase_entered s r drill).keepsRoutes

theorem onShip_routes {s : State} {f : Ship → Ship} (phase : (f s.ship).phase = s.ship.phase)
    (closures : (f s.ship).closures = s.ship.closures) : s.KeepsRoutes (s.onShip f) :=
  keepsRoutes_of_parts (onShip_only s f) (by decide) phase closures

theorem setDrill_routes (s : State) (b : Bool) : s.KeepsRoutes (s.setDrill b) := by
  obtain ⟨-, -, frame⟩ := setDrill_spec s b
  have ship : (s.setDrill b).ship = { s.ship with drill := b } := (congrArg State.ship frame :)
  exact keepsRoutes_of_parts (setDrill_only s b) (by decide) (by rw [ship]) (by rw [ship])

theorem takePhase_routes (s : State) (q : Phase) (d : Bool) : s.KeepsRoutes (s.takePhase q d) := by
  rw [takePhase_eq_cell]
  cases phaseCell s.ship.phase q s.ship.line with
  | keep => exact .refl s
  | drill => exact setDrill_routes s d
  | enter r => exact changePhase_routes s r d
  | held => exact State.Only.keepsRoutes ((queueReport_only _ _ _ _).mono _ (by decide))

theorem lineAsserted_routes (s : State) : s.KeepsRoutes s.lineAsserted := by
  unfold State.lineAsserted
  split
  · exact changePhase_routes _ _ _
  · exact changePhase_routes _ _ _
  · exact setDrill_routes _ _
  · exact setDrill_routes _ _

theorem filterLine_routes (s : State) : s.KeepsRoutes s.filterLine := by
  have taken : s.KeepsRoutes (s.onShip fun h => { h with line := s.ship.raw }) := onShip_routes rfl rfl
  unfold State.filterLine
  dsimp only
  split
  · exact taken.trans (lineAsserted_routes _)
  · exact taken

theorem holdExpires_routes (s : State) : s.KeepsRoutes s.holdExpires := by
  unfold State.holdExpires
  split
  · exact onShip_routes rfl rfl
  · exact changePhase_routes _ _ _

theorem markAll_routes (s : State) (u : Urgency) : s.KeepsRoutes (s.markAll u) :=
  State.Only.keepsRoutes (calm_screens (markAll_screens _ _))

theorem silenceExpires_routes (s : State) : s.KeepsRoutes s.silenceExpires :=
  State.KeepsRoutes.trans (onShip_routes rfl rfl) (markAll_routes _ _)

theorem State.LinkRestored.keepsRoutes {m t : State} {lost : Bool} (h : m.LinkRestored t lost) : m.KeepsRoutes t := by
  obtain ⟨heard, ended⟩ := h
  cases lost with
  | false =>
    rw [heard rfl]
    exact .refl m
  | true =>
    obtain ⟨marked, entered⟩ := ended rfl
    by_cases hy : m.ship.phase = .standDown ∧ m.ship.holdRunOut = true
    · exact (entered hy).keepsRoutes
    · have e := (marked hy).2
      exact State.Only.keepsRoutes (calm_of (congrArg State.ship e :) (congrArg State.node e :) (congrArg State.nodes e :)
        (congrArg State.segments e :) (congrArg State.dests e :))

theorem bridgeAlive_routes (s : State) : s.KeepsRoutes s.bridgeAlive := by
  have heard : s.KeepsRoutes { s with ship := { s.ship with silence := some (s.now + s.node.silenceTime * 1000), linkLost := false } } :=
    keepsRoutes_of_same ⟨rfl, rfl, rfl, rfl, fun _ => Iff.rfl⟩ rfl
  exact heard.trans (bridgeAlive_restored s).keepsRoutes

theorem clockNotify_routes (s : State) (b first : Bool) : s.KeepsRoutes (s.clockNotify b first) := by
  obtain ⟨-, -, -, frame⟩ := clockNotify_spec s b first
  have ship : (s.clockNotify b first).ship = { s.ship with quiet := (s.clockNotify b first).ship.quiet } :=
    (congrArg State.ship frame :)
  exact keepsRoutes_of_parts (clockNotify_only s b first) (by decide) (by rw [ship]) (by rw [ship])

theorem advanceSecond_routes (s : State) : s.KeepsRoutes s.advanceSecond := by
  by_cases h : s.ship.second < 59
  · rw [show s.advanceSecond = s.onShip Ship.tick from if_pos h]
    exact onShip_routes (by rw [Ship.tick_within h]) (by rw [Ship.tick_within h])
  · rw [show s.advanceSecond = (s.onShip Ship.tick).clockNotify true false from if_neg h]
    exact (onShip_routes (by rw [Ship.tick_carries h]) (by rw [Ship.tick_carries h])).trans (clockNotify_routes _ _ _)

theorem setClock_routes (s : State) (day minute second : Nat) : s.KeepsRoutes (s.setClock day minute second) := by
  by_cases h : day ≤ 255 ∧ minute ≤ 1439 ∧ second ≤ 59
  · have set : s.KeepsRoutes (s.clockSet day minute second) := keepsRoutes_of_same ⟨rfl, rfl, rfl, rfl, fun _ => Iff.rfl⟩ rfl
    rw [setClock_taken s h]
    exact set.trans (clockNotify_routes _ _ _)
  · rw [setClock_dropped s h]
    exact .refl s

/-- R17: a CLOSURES bulletin leaves the closures past the 128th. -/
theorem takeClosures_beyond (s : State) (first : Nat) (states : List Nat) {c : Nat} (hc : 128 ≤ c) :
    Tab.fetchD (s.takeClosures first states).ship.closures c .unknown = Tab.fetchD s.ship.closures c .unknown := by
  obtain ⟨closures, -⟩ := takeClosures_spec s first states
  rw [closures]
  split
  · rw [fetchD_setClosures, if_neg (by omega)]
  · rfl

/-- R17, R52: a CLOSURES bulletin invalidates where the passability of a closure changes. -/
theorem takeClosures_routes (s : State) (first : Nat) (states : List Nat) : s.KeepsRoutes (s.takeClosures first states) := by
  obtain ⟨-, invalidated, kept, frame⟩ := takeClosures_spec s first states
  have nodes : (s.takeClosures first states).nodes = s.nodes := (congrArg State.nodes frame :)
  cases differs : passabilityDiffers s.ship.closures (s.takeClosures first states).ship.closures with
  | true => exact ⟨by rw [nodes]; exact id, Or.inl (invalidated differs).allPending⟩
  | false =>
    refine keepsRoutes_of_same ⟨nodes, (congrArg State.segments frame :), by rw [frame], by rw [frame], fun c => ?_⟩ (kept differs)
    by_cases hc : c < 128
    · by_contra h
      rw [(passabilityDiffers_iff _ _).2 ⟨c, hc, h⟩] at differs
      cases differs
    · rw [takeClosures_beyond s first states (by omega)]

theorem takeLight_routes (s : State) (level : Nat) : s.KeepsRoutes (s.takeLight level) := by
  obtain ⟨-, -, -, frame⟩ := takeLight_spec s level
  rw [frame]
  exact keepsRoutes_of_same ⟨rfl, rfl, rfl, rfl, fun _ => Iff.rfl⟩ rfl

theorem applyBulletin_routes (s : State) (b : Bulletin) : s.KeepsRoutes (s.applyBulletin b) := by
  unfold State.applyBulletin
  split
  · exact setClock_routes _ _ _ _
  · split
    · exact takePhase_routes _ _ _
    · exact .refl s
  · exact takeClosures_routes _ _ _
  · exact takeLight_routes _ _
  · exact State.Only.keepsRoutes ((cabinMark_only _ _).mono _ (by decide))
  · exact State.Only.keepsRoutes ((assistClear_only _ _).mono _ (by decide))
  · exact .refl s

theorem takeBulletin_routes (s : State) (seq : Nat) (b : Bulletin) : s.KeepsRoutes (s.takeBulletin seq b) := by
  unfold State.takeBulletin
  split
  · have moved : s.KeepsRoutes { s with watermark := some seq } := State.Only.keepsRoutes (calm_of rfl rfl rfl rfl rfl)
    exact (moved.trans (applyBulletin_routes _ _)).trans (bridgeAlive_routes _)
  · exact bridgeAlive_routes _

end Sys2Proof.Machine
end

section
/-! SUPPORT. Every command but the solver's own keeps the routes (R52, R54). -/

namespace Sys2Proof.Machine

/-! ### The operations that the solver does not see -/

theorem calm_refl (s : State) : s.Calm s := State.Only.refl _ _

theorem markWhere_calm {s t : State} (h : s.Calm t) (p : Nat → Display → Bool) (u : Urgency) : s.Calm (t.markWhere p u) :=
  h.trans (calm_screens (markWhere_screens _ _ _))

theorem recountStation_calm (s : State) (d : Option Nat) : s.Calm (s.recountStation d) := (recountStation_only s d).mono _ (by decide)

theorem placement_calm (s : State) (d : Nat) (away : Bool) : s.Calm (s.placement d away) := (placement_only s d away).mono _ (by decide)

theorem relist_calm {s t : State} (h : s.Calm t) (p : Nat → Bool) : s.Calm (t.relist p) :=
  h.trans (calm_screens ((clearHeldMany_screens _ _ _).trans (markWhere_screens _ _ _)))

theorem changeDisplay_calm (s : State) (d : Nat) (x : Display) (b : DisplayConfig) : s.Calm (s.changeDisplay d x b) := by
  have queued := calm_screens (requeue_screens s d x b (x.rt.replaced x.cfg b))
  have marked : ∀ (t : State) (c : Bool), t.Calm (if c then t.mark d t.writeUrgency else t) := fun t c => by
    split
    · exact calm_screens (mark_screens _ _ _)
    · exact calm_refl _
  have placed : ∀ (t : State) (c : Prop) [Decidable c] (v : Bool), t.Calm (if c then t.placement d v else t) := fun t c _ v => by
    split
    · exact placement_calm _ _ _
    · exact calm_refl _
  exact (queued.trans (marked _ _)).trans (placed _ _ _)

theorem updateEntry_calm (s : State) (e : ProgEntry) (fs : FieldList) : s.Calm (s.updateEntry e fs) := by
  unfold State.updateEntry
  dsimp only
  split
  · exact calm_refl _
  · exact markWhere_calm (by exact calm_of rfl rfl rfl rfl rfl) _ _

theorem cabinChanged_calm (s : State) (old : Option Cabin) (c : Cabin) : s.Calm (s.cabinChanged old c) := by
  have held : s.Calm (s.cabinHeld old c) := by
    unfold State.cabinHeld
    split
    · exact calm_screens (clearHeldMany_screens _ _ _)
    · exact calm_refl _
  have marked : ∀ t : State, t.Calm (t.cabinMarks old c) := fun t => by
    unfold State.cabinMarks
    split
    · exact calm_refl _
    · exact calm_screens (markWhere_screens _ _ _)
  have recounted : ∀ t : State, t.Calm (t.cabinRecounts old c) := fun t => by
    unfold State.cabinRecounts
    split
    · split
      · exact recountStation_calm _ _
      · exact (recountStation_calm _ _).trans (recountStation_calm _ _)
    · exact recountStation_calm _ _
  unfold State.cabinChanged
  dsimp only
  split
  · exact (held.trans (marked _)).trans (recounted _)
  · exact held.trans (marked _)

theorem removeDisplay_calm (s : State) (d : Nat) : s.Calm (s.removeDisplay d) := by
  have left : s.Calm (s.leaveQueue d) := calm_screens (leaveQueue_screens _ _)
  have removed : (s.leaveQueue d).Calm { s.leaveQueue d with displays := Tab.discard (s.leaveQueue d).displays d } :=
    calm_of rfl rfl rfl rfl rfl
  exact (left.trans removed).trans (placement_calm _ _ _)

theorem removeCabin_calm (s : State) (i : Nat) : s.Calm (s.removeCabin i) := by
  have removed : s.Calm { s with cabins := Tab.discard s.cabins i } := calm_of rfl rfl rfl rfl rfl
  unfold State.removeCabin
  split
  · exact calm_refl _
  · exact removed.trans (calm_screens ((clearHeld_screens _ _ _).trans (mark_screens _ _ _)))

theorem clearProgramme_calm (s : State) (id : Nat) : s.Calm (s.clearProgramme id) := by
  unfold State.clearProgramme
  split
  · exact calm_refl _
  · exact markWhere_calm (by exact calm_of rfl rfl rfl rfl rfl) _ _

theorem clearCabin_calm (s : State) (i : Nat) : s.Calm (s.clearCabin i) := by
  unfold State.clearCabin
  split
  · exact calm_refl _
  · exact (removeCabin_calm _ _).trans (recountStation_calm _ _)

theorem clearNotice_calm (s : State) (i : Nat) : s.Calm (s.clearNotice i) := by
  have removed : s.Calm { s with notices := Tab.discard s.notices i } := calm_of rfl rfl rfl rfl rfl
  unfold State.clearNotice
  split
  · exact calm_refl _
  · exact removed.trans (calm_screens (markBy_screens _ _))

theorem clearTexts_calm (s : State) (o : Nat) (hit : Nat → Bool) : s.Calm (s.clearTexts o hit) := by
  have removed : s.Calm { s with texts := Tab.without s.texts hit } := calm_of rfl rfl rfl rfl rfl
  exact removed.trans (calm_screens (markAll_screens _ _))

theorem clearTemplate_calm (s : State) (i : Nat) : s.Calm (s.clearTemplate i) := by
  unfold State.clearTemplate
  split
  · exact calm_refl _
  · exact markWhere_calm (by exact calm_of rfl rfl rfl rfl rfl) _ _

theorem clearSelection_calm (s : State) (i : Nat) : s.Calm (s.clearSelection i) :=
  markWhere_calm (by exact calm_of rfl rfl rfl rfl rfl) _ _

theorem clearList_calm (s : State) (i : Nat) : s.Calm (s.clearList i) := relist_calm (by exact calm_of rfl rfl rfl rfl rfl) _

/-! ### The walking graph and the destinations -/

/-- R42, R167: new node parameters invalidate where a weight changes. -/
theorem setNode_routes (s : State) (n : NodeParams) : s.KeepsRoutes (s.setNode n) := by
  obtain ⟨-, taken⟩ := setNode_taken s n
  obtain ⟨changed, same⟩ := taken.weights
  have nodes : (s.setNode n).nodes = s.nodes := (congrArg State.nodes taken.rest :)
  by_cases hw : s.node.weights = (s.setNode n).node.weights
  · refine keepsRoutes_of_same ⟨nodes, (congrArg State.segments taken.rest :), hw.symm, ?_, fun c => ?_⟩ (same hw)
    · rw [show (s.setNode n).ship.phase = s.ship.phase from (congrArg Ship.phase taken.ship :)]
    · rw [show (s.setNode n).ship.closures = s.ship.closures from (congrArg Ship.closures taken.ship :)]
  · exact ⟨by rw [nodes]; exact id, Or.inl (changed hw).allPending⟩

/-- A change of the walking graph, with every destination invalidated. -/
theorem invalidated_routes {s t : State} (nodes : (∀ e ∈ s.nodes, e.1 < 256) → ∀ e ∈ t.nodes, e.1 < 256) :
    s.KeepsRoutes t.invalidateAll := ⟨nodes, Or.inl (invalidateAll_allPending t)⟩

/-- R54: a change of the destinations that leaves each as it was, or PENDING, or absent. -/
theorem withDests_routes {s : State} {ds : Tab Dest}
    (h : ∀ d x, Tab.fetch ds d = some x → x.status = .pending ∨ Tab.fetch s.dests d = some x) :
    s.KeepsRoutes { s with dests := ds } := ⟨id, Or.inr ⟨⟨rfl, rfl, rfl, rfl, fun _ => Iff.rfl⟩, h⟩⟩

theorem storeDest_routes {s : State} {i : Nat} {e : Dest} (h : e.status = .pending) :
    s.KeepsRoutes { s with dests := Tab.store s.dests i e } := by
  refine withDests_routes fun d x hx => ?_
  rw [Tab.fetch_store] at hx
  split at hx
  · cases hx
    exact Or.inl h
  · exact Or.inr hx

theorem clearDest_routes (s : State) (d : Nat) : s.KeepsRoutes (s.clearDest d) := by
  have held : s.KeepsRoutes (s.clearHeldOf fun n => n == d) := State.Only.keepsRoutes (calm_of rfl rfl rfl rfl rfl)
  have removed : ∀ t : State, t.KeepsRoutes { t with dests := Tab.discard t.dests d } := fun t => withDests_routes fun j x hx => by
    rw [Tab.fetch_discard] at hx
    split at hx
    · cases hx
    · exact Or.inr hx
  have reported : ∀ (t : State) (e : Dest), t.KeepsRoutes (t.destRemoved d e) := fun t e => by
    unfold State.destRemoved
    split
    · exact State.Only.keepsRoutes ((reportLoss_only _ _ _).mono _ (by decide))
    · exact .refl _
  unfold State.clearDest
  split
  · exact .refl s
  · exact ((held.trans (removed _)).trans (State.Only.keepsRoutes (markWhere_calm (calm_refl _) _ _))).trans (reported _ _)

theorem without_routes {s t : State} (nodes : ∀ e ∈ t.nodes, e ∈ s.nodes) : s.KeepsRoutes t.invalidateAll :=
  invalidated_routes fun h e he => h e (nodes e he)

theorem clearNodes_routes (s : State) (hit : Nat → Bool) : s.KeepsRoutes (s.clearNodes hit) := by
  unfold State.clearNodes
  split
  · exact .refl s
  · exact without_routes fun e he => (List.mem_filter.1 he).1

theorem clearSegments_routes (s : State) (hit : Nat → Bool) : s.KeepsRoutes (s.clearSegments hit) := by
  unfold State.clearSegments
  split
  · exact .refl s
  · exact without_routes fun e he => he

/-! ### WRITE -/

/-- What a WRITE leaves, where it is taken, keeps the routes. -/
def WriteRoutes (s : State) (w : WriteResult) : Prop := ∀ t b, w = .ok (t, b) → s.KeepsRoutes t

theorem writeRoutes_error (s : State) (r : ResultCode) : WriteRoutes s (.error r) := by rintro _ _ ⟨⟩

theorem writeRoutes_ok {s t : State} {b : Bool} (h : s.KeepsRoutes t) : WriteRoutes s (.ok (t, b)) := by
  rintro _ _ ⟨⟩
  exact h

theorem writeRoutes_calm {s t : State} {b : Bool} (h : s.Calm t) : WriteRoutes s (.ok (t, b)) := writeRoutes_ok h.keepsRoutes

/-- A check before a WRITE. -/
theorem writeRoutes_check {s : State} {c : Prop} [Decidable c] {r : ResultCode} {w : WriteResult} (h : WriteRoutes s w) :
    WriteRoutes s (if c then .error r else w) := by
  split
  · exact writeRoutes_error _ _
  · exact h

theorem writeEmpty_routes (s : State) (t i : Nat) : WriteRoutes s (s.writeEmpty t i) := by
  unfold State.writeEmpty
  split
  · split
    · exact writeRoutes_ok (.refl s)
    · exact writeRoutes_error _ _
  · exact writeRoutes_ok (invalidated_routes id)
  · exact writeRoutes_ok (invalidated_routes id)
  · refine writeRoutes_ok (withDests_routes fun d x hx => ?_)
    rw [Tab.fetch_change] at hx
    split at hx
    · obtain ⟨e, -, rfl⟩ := Option.map_eq_some_iff.1 hx
      exact Or.inl rfl
    · exact Or.inr hx
  · exact writeRoutes_ok (.refl s)

/-- R37: a WRITE of a node, whose index is below 256. -/
theorem writeNodes_routes (s : State) {i : Nat} (hi : i < 256) (fs : FieldList) : WriteRoutes s (s.writeNodes i fs) := by
  refine writeRoutes_check (writeRoutes_ok (invalidated_routes fun h e he => ?_))
  rcases Tab.mem_store he with rfl | he
  · exact hi
  · exact h e he

theorem writeSegment_routes (s : State) (i : Nat) (fs : FieldList) : WriteRoutes s (s.writeSegment i fs) :=
  writeRoutes_check (writeRoutes_check (writeRoutes_check (writeRoutes_check (writeRoutes_ok (invalidated_routes id)))))

/-- R40, R54: a destination written is PENDING. -/
theorem writeDest_routes (s : State) (i : Nat) (fs : FieldList) : WriteRoutes s (s.writeDest i fs) := by
  refine writeRoutes_check (writeRoutes_check (writeRoutes_ok (storeDest_routes ?_)))
  split
  · rfl
  · rfl

theorem writeTable_routes (s : State) {o t i : Nat} (hi : t = 3 → i < 256) (fs : FieldList) : WriteRoutes s (s.writeTable o t i fs) := by
  unfold State.writeTable
  split
  · exact writeEmpty_routes _ _ _
  split
  · exact writeRoutes_check (writeRoutes_ok (setNode_routes _ _))
  · refine writeRoutes_check ?_
    split
    · exact writeRoutes_check (writeRoutes_calm ((calm_screens ((setDisplay_screens _ _ _).trans (mark_screens _ _ _))).trans
        (placement_calm _ _ _)))
    · exact writeRoutes_check (writeRoutes_check (writeRoutes_calm (changeDisplay_calm _ _ _ _)))
  · exact writeRoutes_check (writeRoutes_check (writeRoutes_calm (calm_screens (setStr_screens _ _ _))))
  · exact writeNodes_routes _ (hi rfl) _
  · exact writeSegment_routes _ _ _
  · exact writeDest_routes _ _ _
  · exact writeRoutes_check (writeRoutes_calm (relist_calm (by exact calm_of rfl rfl rfl rfl rfl) _))
  · refine writeRoutes_check ?_
    split
    · exact writeRoutes_check (writeRoutes_calm (markWhere_calm (by exact calm_of rfl rfl rfl rfl rfl) _ _))
    · exact writeRoutes_check (writeRoutes_calm (updateEntry_calm _ _ _))
  · exact writeRoutes_check (writeRoutes_check (writeRoutes_check (writeRoutes_calm
      (((setCabin_only _ _ _).mono _ (by decide)).trans (cabinChanged_calm _ _ _)))))
  · refine writeRoutes_check (writeRoutes_check (writeRoutes_calm ?_))
    have stored : ∀ ns, s.Calm { s with notices := ns } := fun _ => calm_of rfl rfl rfl rfl rfl
    split
    · exact stored _
    · exact (stored _).trans (calm_screens (markBy_screens _ _))
  · have stored : s.Calm { s with texts := Tab.put s.texts i ((stringField fs 1 []).take 40) [] } := calm_of rfl rfl rfl rfl rfl
    exact writeRoutes_check (writeRoutes_calm (stored.trans (calm_screens (markAll_screens _ _))))
  · refine writeRoutes_check ?_
    split
    · exact writeRoutes_error _ _
    · exact writeRoutes_calm (markWhere_calm (by exact calm_of rfl rfl rfl rfl rfl) _ _)
  · exact writeRoutes_check (writeRoutes_calm (markWhere_calm (by exact calm_of rfl rfl rfl rfl rfl) _ _))
  · exact writeRoutes_check (writeRoutes_check (writeRoutes_calm (calm_of rfl rfl rfl rfl rfl)))
  · exact writeRoutes_error _ _

/-! ### CLEAR and CLEAR_TABLE -/

/-- What a CLEAR leaves, where it is taken, keeps the routes. -/
def ClearRoutes (s : State) (w : Except ResultCode State) : Prop := ∀ t, w = .ok t → s.KeepsRoutes t

theorem clearRoutes_error (s : State) (r : ResultCode) : ClearRoutes s (.error r) := by rintro _ ⟨⟩

theorem clearRoutes_ok {s t : State} (h : s.KeepsRoutes t) : ClearRoutes s (.ok t) := by
  rintro _ ⟨⟩
  exact h

theorem clearRoutes_calm {s t : State} (h : s.Calm t) : ClearRoutes s (.ok t) := clearRoutes_ok h.keepsRoutes

theorem clearDisplays_routes (s : State) (hit : Nat → Bool) : ClearRoutes s (s.clearDisplays hit) := by
  unfold State.clearDisplays
  dsimp only
  split
  · exact clearRoutes_error _ _
  · exact clearRoutes_calm (foldl_only _ removeDisplay_calm _ _)

theorem clearString_routes (s : State) (i : Nat) : ClearRoutes s (s.clearString i) := by
  unfold State.clearString
  split
  · exact clearRoutes_error _ _
  · exact clearRoutes_calm (calm_screens (setStr_screens _ _ _))

theorem clearStrings_routes (s : State) : ClearRoutes s s.clearStrings := by
  unfold State.clearStrings
  split
  · exact clearRoutes_calm (calm_of rfl rfl rfl rfl rfl)
  · exact clearRoutes_error _ _

theorem clearCabins_calm (s : State) : s.Calm s.clearCabins :=
  (foldl_only _ removeCabin_calm _ _).trans (foldl_only _ (fun t d => (recount_only t d).mono _ (by decide)) _ _)

theorem clearEntry_routes (s : State) (o t i : Nat) : ClearRoutes s (s.clearEntry o t i) := by
  unfold State.clearEntry
  dsimp only
  split
  · exact clearRoutes_ok (setNode_routes _ _)
  · exact clearDisplays_routes _ _
  · exact clearString_routes _ _
  · exact clearRoutes_ok (clearNodes_routes _ _)
  · exact clearRoutes_ok (clearSegments_routes _ _)
  · exact clearRoutes_ok (clearDest_routes _ _)
  · exact clearRoutes_calm (clearList_calm _ _)
  · exact clearRoutes_calm (clearProgramme_calm _ _)
  · exact clearRoutes_calm (clearCabin_calm _ _)
  · exact clearRoutes_calm (clearNotice_calm _ _)
  · exact clearRoutes_calm (clearTexts_calm _ _ _)
  · exact clearRoutes_calm (clearTemplate_calm _ _)
  · exact clearRoutes_calm (clearSelection_calm _ _)
  · exact clearRoutes_calm (calm_of rfl rfl rfl rfl rfl)
  · exact clearRoutes_error _ _

theorem clearAll_routes (s : State) (o t : Nat) : ClearRoutes s (s.clearAll o t) := by
  unfold State.clearAll
  dsimp only
  split
  · exact clearRoutes_ok (setNode_routes _ _)
  · exact clearDisplays_routes _ _
  · exact clearStrings_routes _
  · exact clearRoutes_ok (clearNodes_routes _ _)
  · exact clearRoutes_ok (clearSegments_routes _ _)
  · exact clearRoutes_ok (.foldl clearDest_routes _ _)
  · exact clearRoutes_calm (foldl_only _ clearList_calm _ _)
  · exact clearRoutes_calm (foldl_only _ clearProgramme_calm _ _)
  · exact clearRoutes_calm (clearCabins_calm _)
  · exact clearRoutes_calm (foldl_only _ clearNotice_calm _ _)
  · exact clearRoutes_calm (clearTexts_calm _ _ _)
  · exact clearRoutes_calm (foldl_only _ clearTemplate_calm _ _)
  · exact clearRoutes_calm (foldl_only _ clearSelection_calm _ _)
  · exact clearRoutes_calm (calm_of rfl rfl rfl rfl rfl)
  · exact clearRoutes_error _ _

/-! ### Requests and frames -/

theorem retry_calm (s : State) (d : Nat) : s.Calm (s.retry d) := calm_screens (onRuntime_screens s d _)

/-- R63, R175: a warm restart leaves every destination PENDING. -/
theorem warmRestart_routes (s : State) : s.KeepsRoutes s.warmRestart := by
  have marked : ∀ u : State, u.KeepsRoutes u.clearCabinFlags.restartDisplays := fun u =>
    State.Only.keepsRoutes (State.Only.trans (t := { u.clearCabinFlags with
      displays := Tab.mapAll u.clearCabinFlags.displays fun x => { x with rt := x.rt.restarted } }) (calm_of rfl rfl rfl rfl rfl)
      (calm_screens (markAll_screens _ _)))
  unfold State.warmRestart
  dsimp only
  refine State.KeepsRoutes.trans ?_ (marked _)
  refine ⟨id, Or.inl fun d x hx => ?_⟩
  obtain ⟨e, -, rfl⟩ := Option.map_eq_some_iff.1 ((Tab.fetch_mapAll _ _ _).symm.trans hx)
  rfl

/-- R168: a request that passes its checks. -/
theorem checked_routes {s : State} (cs : List (Bool × ResultCode)) {a : Answer} (h : firstRefusal cs = none → s.KeepsRoutes a.state) :
    s.KeepsRoutes (s.checked cs a).state := by
  unfold State.checked
  split
  · exact .refl s
  · rename_i passed
    exact h passed

theorem ofWrite_routes {s : State} {w : WriteResult} (h : WriteRoutes s w) : s.KeepsRoutes (s.ofWrite w).state := by
  unfold State.ofWrite
  split
  · exact .refl s
  · exact h _ _ rfl

theorem ofClear_routes {s : State} {w : Except ResultCode State} (h : ClearRoutes s w) : s.KeepsRoutes (s.ofClear w).state := by
  unfold State.ofClear
  split
  · exact .refl s
  · exact h _ rfl

/-- Where no check refuses, each of them holds. -/
theorem of_firstRefusal_none {cs : List (Bool × ResultCode)} (h : firstRefusal cs = none) : ∀ c ∈ cs, c.1 = true := by
  induction cs with
  | nil => nofun
  | cons c cs ih =>
    unfold firstRefusal at h
    split at h
    · rename_i holds
      intro d hd
      rcases List.mem_cons.1 hd with rfl | hd
      · exact holds
      · exact ih h d hd
    · cases h

/-- R164, R168: a node that a WRITE reaches has an index below 256. -/
theorem answerWrite_routes (s : State) (o t i : Nat) (fs : FieldList) : s.KeepsRoutes (s.answerWrite o t i fs).state := by
  refine checked_routes _ fun passed => ofWrite_routes (writeTable_routes s ?_ fs)
  rintro rfl
  have index : indexOk 3 i false = true := of_firstRefusal_none passed (indexOk 3 i false, .badIndex) (by simp)
  exact of_decide_eq_true (Bool.and_eq_true_iff.1 index).1

theorem respond_routes (s : State) (o : Nat) (r : Request) : s.KeepsRoutes (s.respond o r).state := by
  unfold State.respond
  split
  · exact answerWrite_routes _ _ _ _ _
  · exact checked_routes _ fun _ => .refl s
  · exact checked_routes _ fun _ => ofClear_routes (clearEntry_routes _ _ _ _)
  · exact checked_routes _ fun _ => ofClear_routes (clearAll_routes _ _ _)
  · exact checked_routes _ fun _ => State.Only.keepsRoutes (markWhere_calm (by exact calm_of rfl rfl rfl rfl rfl) _ _)
  · exact checked_routes _ fun _ => State.Only.keepsRoutes (calm_screens (setStr_screens _ _ _))
  · exact checked_routes _ fun _ => State.Only.keepsRoutes (calm_screens (setStr_screens _ _ _))
  · exact checked_routes _ fun _ => (retry_calm s _).keepsRoutes
  · exact checked_routes _ fun _ => warmRestart_routes s
  · exact .refl s
  · exact checked_routes _ fun _ => .refl s
  · exact .refl s
  · exact .refl s

theorem takeRequest_routes (s : State) (p : Port) (f : Frame) (r : Request) : s.KeepsRoutes (s.takeRequest p f r) := by
  have answered := respond_routes s f.origin r
  unfold State.takeRequest
  dsimp only
  split
  · split
    · exact .refl s
    · refine answered.trans (State.Only.keepsRoutes ?_)
      unfold State.oweReply
      split
      · exact calm_of rfl rfl rfl rfl rfl
      · exact calm_of rfl rfl rfl rfl rfl
  · exact answered

theorem act_routes (s : State) (p : Port) (f : Frame) (c : Content) : s.KeepsRoutes (s.act p f c) := by
  unfold State.act
  split
  · split
    · exact takeBulletin_routes _ _ _
    · exact .refl s
  · split
    · exact takeRequest_routes _ _ _ _
    · exact .refl s
  · exact .refl s

theorem setPort_calm (s : State) (p : Port) (l : LinkPort) : s.Calm (s.setPort p l) := (setPort_only s p l).mono _ (by decide)

/-- R151 to R154: an arriving frame. -/
theorem frameArrives_routes (s : State) (p : Port) (f : Frame) (c : Content) : s.KeepsRoutes (s.frameArrives p f c) := by
  have acted : s.KeepsRoutes (if s.concerns f.dest then s.act p f c else s) := by
    split
    · exact act_routes _ _ _ _
    · exact .refl s
  have forwarded : ∀ t : State, t.KeepsRoutes (t.forward p f) := fun t => by
    unfold State.forward
    dsimp only
    split
    · exact State.Only.keepsRoutes (setPort_calm _ _ _)
    · exact .refl t
  unfold State.frameArrives
  split
  · dsimp only
    split
    · exact acted.trans (forwarded _)
    · exact acted
  · exact .refl s

/-! ### Ports, strings and commands -/

theorem beginTransmit_calm (s : State) (p : Port) : s.Calm (s.beginTransmit p) := by
  have sends : ∀ {t : State} (f : Frame), s.Calm t → s.Calm (t.sends p f) := fun f h => h.trans (setPort_calm _ _ _)
  unfold State.beginTransmit
  split
  · unfold State.transmit
    split
    · exact sends _ (setPort_calm _ _ _)
    · exact sends _ (by exact calm_of rfl rfl rfl rfl rfl)
    · exact sends _ (by exact calm_of rfl rfl rfl rfl rfl)
    · exact sends _ (setPort_calm _ _ _)
  · exact calm_refl _

theorem portFalls_calm (s : State) (p : Port) : s.Calm (s.portFalls p) :=
  (setPort_calm s p { s.port p with up := false, queue := [], sending := none }).trans (calm_of rfl rfl rfl rfl rfl)

theorem takes_calm (s : State) (k : StringNo) : s.Calm (s.dispatchTaken k) ∧ s.Calm (s.pollTaken k) ∧ s.Calm (s.probeTaken k) := by
  unfold State.dispatchTaken State.pollTaken State.probeTaken
  cases s.offer k with
  | none => exact ⟨calm_refl _, calm_refl _, calm_refl _⟩
  | some o =>
    cases o with
    | dispatch d u n => exact ⟨calm_screens (takeDispatch_screens _ _ _ _ _), calm_refl _, calm_refl _⟩
    | poll d => exact ⟨calm_refl _, calm_screens (takePoll_screens _ _ _), calm_refl _⟩
    | probe d => exact ⟨calm_refl _, calm_refl _, calm_screens (takeProbe_screens _ _ _)⟩

theorem unanswered_calm (s : State) (k : StringNo) : s.Calm (s.unanswered k) := by
  unfold State.unanswered
  split
  · exact (failTry_only _ _ _ _).mono _ (by decide)
  · exact calm_refl _

/-- A timer's event whose effect keeps the routes. -/
theorem expire_routes (s : State) (deadline : Option Nat) {f : State → State} (h : ∀ t : State, t.KeepsRoutes (f t)) :
    s.KeepsRoutes (s.expire deadline f) := by
  have reached : ∀ t, s.KeepsRoutes (s.reach t) := fun t => State.Only.keepsRoutes (calm_of rfl rfl rfl rfl rfl)
  unfold State.expire
  split
  · exact (reached _).trans (h _)
  · exact .refl s

/-- A command's outcome keeps the routes in the state it leaves. -/
def OutcomeRoutes (s : State) (o : Result) : Prop := ∀ t, o = .next t → s.KeepsRoutes t

theorem outcomeRoutes_next {s t : State} (h : s.KeepsRoutes t) : OutcomeRoutes s (.next t) := by
  rintro _ ⟨⟩
  exact h

theorem outcomeRoutes_calm {s t : State} (h : s.Calm t) : OutcomeRoutes s (.next t) := outcomeRoutes_next h.keepsRoutes

theorem outcomeRoutes_expire {s : State} (deadline : Option Nat) {f : State → State} (h : ∀ t : State, t.KeepsRoutes (f t)) :
    OutcomeRoutes s (.next (s.expire deadline f)) := outcomeRoutes_next (expire_routes s deadline h)

/-- Every command but the solver's own keeps the routes. -/
theorem exec_routes (i : Instr) (s : State) (take : i ≠ .solverTake) (sweep : i ≠ .sweepEnd) : OutcomeRoutes s (exec i s) := by
  have bulletin : ∀ (a : Arrival) (b : Bulletin), OutcomeRoutes s (.next (s.bulletinArrives a b)) := fun a b =>
    outcomeRoutes_next (frameArrives_routes _ _ _ _)
  have request : ∀ (a : Arrival) (r : Request), OutcomeRoutes s (.next (s.requestArrives a r)) := fun a r =>
    outcomeRoutes_next (frameArrives_routes _ _ _ _)
  have reply : ∀ (k : StringNo) (tag : Nat) (r : StringReply), OutcomeRoutes s (.next (s.stringReply k tag r)) := fun k tag r =>
    outcomeRoutes_calm ((stringReply_only s k tag r).mono _ (by decide))
  cases i with
  | powerOnReset straps => exact outcomeRoutes_next ⟨fun _ => nofun, Or.inl fun _ _ => nofun⟩
  | musterInChange level =>
    refine outcomeRoutes_next ?_
    unfold State.rawLevel
    split
    · exact .refl s
    · exact onShip_routes rfl rfl
  | musterLineChange => exact outcomeRoutes_expire _ filterLine_routes
  | clockSecondAdvance => exact outcomeRoutes_expire _ advanceSecond_routes
  | standDownHoldExpiry => exact outcomeRoutes_expire _ holdExpires_routes
  | bridgeSilenceExpiry => exact outcomeRoutes_expire _ silenceExpires_routes
  | lineSignalChange p present => exact outcomeRoutes_calm (setPort_calm _ _ _)
  | portUp p => exact outcomeRoutes_expire _ fun t => (setPort_calm _ _ _).keepsRoutes
  | portDown p => exact outcomeRoutes_expire _ fun t => (portFalls_calm t p).keepsRoutes
  | frameReceive p bytes =>
    refine outcomeRoutes_next ?_
    unfold State.bytesArrive
    split
    · exact frameArrives_routes _ _ _ _
    · exact .refl s
  | timeBulletin a day minute second => exact bulletin _ _
  | phaseBulletin a phase drill => exact bulletin _ _
  | closuresBulletin a first states => exact bulletin _ _
  | lightBulletin a level => exact bulletin _ _
  | cabinMarkBulletin a cabins => exact bulletin _ _
  | assistClearBulletin a cabins => exact bulletin _ _
  | write a table index fields => exact request _ _
  | read a table index => exact request _ _
  | clear a table index => exact request _ _
  | clearTable a table => exact request _ _
  | adjustSteps a kind value code => exact request _ _
  | holdString a string => exact request _ _
  | freeString a string => exact request _ _
  | retryDisplay a display => exact request _ _
  | restart a => exact request _ _
  | status a => exact request _ _
  | displayStatus a display => exact request _ _
  | identify a => exact request _ _
  | transmitBegin p => exact outcomeRoutes_calm (beginTransmit_calm _ _)
  | transmitEnd p => exact outcomeRoutes_calm (setPort_calm _ _ _)
  | dispatchTake k => exact outcomeRoutes_calm (takes_calm s k).1
  | pollTake k => exact outcomeRoutes_calm (takes_calm s k).2.1
  | probeTake k => exact outcomeRoutes_calm (takes_calm s k).2.2
  | ready k tag cls => exact reply _ _ _
  | busy k tag ms => exact reply _ _ _
  | ack k tag => exact reply _ _ _
  | nak k tag => exact reply _ _ _
  | refresh k tag ms => exact reply _ _ _
  | events k tag codes =>
    refine outcomeRoutes_calm ?_
    unfold State.eventsReply
    split
    · exact (stringReply_only _ _ _ _).mono _ (by decide)
    · exact calm_refl _
  | stringReplyDiscard k bytes =>
    refine outcomeRoutes_calm ?_
    unfold State.replyBytes
    split
    · exact (stringReply_only _ _ _ _).mono _ (by decide)
    · exact calm_refl _
  | replyTimeout k => exact outcomeRoutes_expire _ fun t => (unanswered_calm t k).keepsRoutes
  | refreshBusyReached display => exact outcomeRoutes_expire _ .refl
  | minRefreshExpiry display => exact outcomeRoutes_expire _ .refl
  | pollDue display => exact outcomeRoutes_expire _ .refl
  | probeDue display => exact outcomeRoutes_expire _ .refl
  | solverTake => exact absurd rfl take
  | sweepEnd => exact absurd rfl sweep

end Sys2Proof.Machine
end

section
/-! SUPPORT. Which destination the solver takes (R49), and what taking it makes of it (R47, R51). -/

namespace Sys2Proof.Machine

/-! ### The destination taken -/

/-- The lowest-numbered destination that meets a condition. -/
theorem firstDest_some {s : State} {p : Dest → Bool} (hr : Tab.Rising s.dests) {d : Nat} (h : s.firstDest p = some d) :
    ∃ t, Tab.fetch s.dests d = some t ∧ p t = true ∧ ∀ e ∈ s.dests, p e.2 = true → d ≤ e.1 := by
  obtain ⟨⟨_, t⟩, hf, rfl⟩ := Option.map_eq_some_iff.1 h
  obtain ⟨hp, before, after, hl, none⟩ := List.find?_eq_some_iff_append.1 hf
  refine ⟨t, Tab.fetch_of_mem hr (List.mem_of_find?_eq_some hf), hp, fun e he hpe => ?_⟩
  rw [Tab.Rising, hl, List.pairwise_append] at hr
  rw [hl] at he
  rcases List.mem_append.1 he with he | he
  · have := none e he
    rw [hpe] at this
    cases this
  · rcases List.mem_cons.1 he with rfl | he
    · exact le_rfl
    · exact (List.rel_of_pairwise_cons hr.2.1 he).le

theorem firstDest_none {s : State} {p : Dest → Bool} (h : s.firstDest p = none) : ∀ e ∈ s.dests, p e.2 = false := by
  simpa [State.firstDest] using h

/-- R49: a destination that goes before every other one that the solver takes. -/
structure State.Foremost (s : State) (d : Nat) (t : Dest) (r : Nat) : Prop where
  here : Tab.fetch s.dests d = some t
  rank : solverRank s.ship.phase t = some r
  first : ∀ e ∈ s.dests, ∀ q, solverRank s.ship.phase e.2 = some q → r < q ∨ (r = q ∧ d ≤ e.1)

theorem State.Foremost.unique {s : State} {d e : Nat} {x y : Dest} {q r : Nat} (h : s.Foremost d x q) (g : s.Foremost e y r) : d = e := by
  have := h.first _ (Tab.mem_of_fetch g.here) _ g.rank
  have := g.first _ (Tab.mem_of_fetch h.here) _ h.rank
  omega

theorem solverRank_pending {p : Phase} {t : Dest} (h : t.status = .pending) :
    solverRank p t = if (p = .alert ∨ p = .muster) ∧ t.kind = .musterStation then some 0 else some 2 := by
  rw [solverRank, h]

theorem solverRank_suspended {p : Phase} {t : Dest} (h : t.status = .suspended) : solverRank p t = some 1 := by rw [solverRank, h]

theorem solverRank_cases {p : Phase} {t : Dest} {q : Nat} (h : solverRank p t = some q) :
    (q = 0 ∧ t.status = .pending ∧ (p = .alert ∨ p = .muster) ∧ t.kind = .musterStation) ∨ (q = 1 ∧ t.status = .suspended) ∨
      (q = 2 ∧ t.status = .pending ∧ ¬((p = .alert ∨ p = .muster) ∧ t.kind = .musterStation)) := by
  unfold solverRank at h
  split at h
  · rename_i hs
    split at h
    · rename_i hm
      cases h
      exact Or.inl ⟨rfl, hs, hm⟩
    · rename_i hm
      cases h
      exact Or.inr (Or.inr ⟨rfl, hs, hm⟩)
  · rename_i hs
    cases h
    exact Or.inr (Or.inl ⟨rfl, hs⟩)
  · cases h
  · cases h

/-- The destination found first goes before every other one, where it has rank `r` and those of lower rank are not there. -/
theorem foremost_of_first {s : State} {p : Dest → Bool} {r d : Nat} (hr : Tab.Rising s.dests) (h : s.firstDest p = some d)
    (rank : ∀ x, p x = true → solverRank s.ship.phase x = some r)
    (others : ∀ e ∈ s.dests, ∀ q, solverRank s.ship.phase e.2 = some q → r < q ∨ (r = q ∧ p e.2 = true)) :
    ∃ t r, s.Foremost d t r := by
  obtain ⟨t, here, hp, least⟩ := firstDest_some hr h
  exact ⟨t, r, here, rank t hp, fun e he q hq => (others e he q hq).imp id fun ⟨eq, hpe⟩ => ⟨eq, least e he hpe⟩⟩

/-- R49: where no muster station is ranked first, a SUSPENDED destination goes, or else the first PENDING one. -/
theorem foremost_of_calm {s : State} (hr : Tab.Rising s.dests) (calm : ∀ e ∈ s.dests, solverRank s.ship.phase e.2 ≠ some 0) {d : Nat}
    (h : ((s.firstDest fun x => x.status == .suspended) <|> s.firstDest fun x => x.status == .pending) = some d) :
    ∃ t r, s.Foremost d t r := by
  rcases (Option.orElse_eq_some _ _ _).1 h with first | ⟨none, first⟩
  · refine foremost_of_first hr first (fun x hx => solverRank_suspended (eq_of_beq hx)) fun e he q hq => ?_
    rcases solverRank_cases hq with ⟨rfl, -⟩ | ⟨rfl, hs⟩ | ⟨rfl, -⟩
    · exact absurd hq (calm e he)
    · exact Or.inr ⟨rfl, beq_iff_eq.2 hs⟩
    · exact Or.inl (by decide)
  · obtain ⟨t, here, hp, least⟩ := firstDest_some hr first
    have two : ∀ e ∈ s.dests, ∀ q, solverRank s.ship.phase e.2 = some q → q = 2 ∧ e.2.status = .pending := fun e he q hq => by
      rcases solverRank_cases hq with ⟨rfl, -⟩ | ⟨rfl, hs⟩ | ⟨rfl, hs, -⟩
      · exact absurd hq (calm e he)
      · exact absurd hs (ne_of_beq_false (firstDest_none none e he))
      · exact ⟨rfl, hs⟩
    have rank : solverRank s.ship.phase t = some 2 := by
      have pending := solverRank_pending (p := s.ship.phase) (eq_of_beq hp)
      split at pending
      · exact absurd pending (calm _ (Tab.mem_of_fetch here))
      · exact pending
    exact ⟨t, 2, here, rank, fun e he q hq => Or.inr ⟨(two e he q hq).1.symm, least e he (beq_iff_eq.2 (two e he q hq).2)⟩⟩

/-- R49: the model takes the destination that goes first. -/
theorem nextDest_foremost {s : State} (hr : Tab.Rising s.dests) {d : Nat} (h : s.nextDest = some d) : ∃ t r, s.Foremost d t r := by
  unfold State.nextDest at h
  dsimp only at h
  split at h
  · rename_i emergency
    have urgent : ∀ x : Dest, (x.status == .pending && x.kind == .musterStation) = true ↔
        solverRank s.ship.phase x = some 0 := fun x => by
      rw [Bool.and_eq_true, beq_iff_eq, beq_iff_eq]
      constructor
      · rintro ⟨hs, hk⟩
        rw [solverRank_pending hs, if_pos ⟨(Phase.emergency_iff _).1 emergency, hk⟩]
      · intro hq
        rcases solverRank_cases hq with ⟨-, hs, -, hk⟩ | ⟨h, -⟩ | ⟨h, -⟩
        · exact ⟨hs, hk⟩
        · cases h
        · cases h
    rcases (Option.orElse_eq_some _ _ _).1 h with first | ⟨none, h⟩
    · refine foremost_of_first hr first (fun x => (urgent x).1) fun e he q hq => ?_
      rcases Nat.eq_zero_or_pos q with rfl | pos
      · exact Or.inr ⟨rfl, (urgent _).2 hq⟩
      · exact Or.inl pos
    · refine foremost_of_calm hr (fun e he hq => ?_) h
      have := firstDest_none none e he
      rw [(urgent _).2 hq] at this
      cases this
  · rename_i peace
    refine foremost_of_calm hr (fun e he hq => ?_) h
    rcases solverRank_cases hq with ⟨-, -, emergency, -⟩ | ⟨h, -⟩ | ⟨h, -⟩
    · exact peace ((Phase.emergency_iff _).2 emergency)
    · cases h
    · cases h

/-! ### What taking it does -/

theorem solverTakes_busy {s : State} (h : ∃ e ∈ s.dests, e.2.status = .solving) : s.solverTakes = s := by
  have busy : s.solving.isSome = true := by
    obtain ⟨e, he, hs⟩ := h
    exact firstDest_isSome.2 ⟨e, he, beq_iff_eq.2 hs⟩
  exact if_pos busy

theorem solverTakes_none {s : State} (h : s.nextDest = none) : s.solverTakes = s := by
  unfold State.solverTakes
  rw [h]
  exact ite_self s

theorem solverTakes_some {s : State} {d : Nat} (idle : ∀ e ∈ s.dests, e.2.status ≠ .solving) (h : s.nextDest = some d) :
    s.solverTakes = s.takeDest d := by
  have free : ¬s.solving.isSome = true := by
    rw [← Option.not_isNone, solving_isNone.2 idle]
    decide
  unfold State.solverTakes
  rw [if_neg free, h]

/-- R49: with no solve in flight the solver takes the destination that goes first. -/
theorem State.Foremost.taken {s : State} {d : Nat} {t : Dest} {r : Nat} (h : s.Foremost d t r) (hr : Tab.Rising s.dests)
    (idle : ∀ e ∈ s.dests, e.2.status ≠ .solving) : s.solverTakes = s.takeDest d := by
  have member := Tab.mem_of_fetch h.here
  have some : s.nextDest.isSome = true := by
    refine nextDest_isSome.2 ⟨_, member, ?_⟩
    rcases solverRank_cases h.rank with ⟨-, hs, -⟩ | ⟨-, hs⟩ | ⟨-, hs, -⟩
    · exact Or.inl hs
    · exact Or.inr hs
    · exact Or.inl hs
  obtain ⟨e, he⟩ := Option.isSome_iff_exists.1 some
  obtain ⟨y, q, g⟩ := nextDest_foremost hr he
  rw [solverTakes_some idle he, g.unique h]

theorem takeDest_fetch (s : State) (d j : Nat) :
    Tab.fetch (s.takeDest d).dests j = if j = d then (Tab.fetch s.dests d).map Dest.taken else Tab.fetch s.dests j := by
  rw [State.takeDest, Tab.fetch_change]
  split
  · rename_i h
    rw [h]
  · rfl

theorem Dest.taken_suspended {t : Dest} (h : t.status = .suspended) : t.taken = { t with status := .solving } := if_pos h

theorem Dest.taken_pending {t : Dest} (h : t.status = .pending) :
    t.taken = { t with status := .solving, sweeps := 0, cells := startCells t.cells t.targets } := if_neg (by rw [h]; nofun)

theorem Dest.taken_status (t : Dest) : t.taken.status = .solving := by
  unfold Dest.taken
  split
  · rfl
  · rfl

/-- Settles O51, by the destination that goes first. -/
theorem solverTake : Obligations.SolverTake := by
  intro s ok
  refine ⟨fun busy => congrArg Host.Outcome.next (solverTakes_busy busy), fun none => congrArg Host.Outcome.next ?_,
    fun d t r here rank idle first => ?_⟩
  · refine solverTakes_none (Option.not_isSome_iff_eq_none.1 fun some => ?_)
    obtain ⟨e, he, hs⟩ := nextDest_isSome.1 some
    have unranked := none e he
    rcases hs with hs | hs
    · rw [solverRank_pending hs] at unranked
      split at unranked
      · cases unranked
      · cases unranked
    · rw [solverRank_suspended hs] at unranked
      cases unranked
  · have foremost : s.Foremost d t r := ⟨here, rank, first⟩
    refine ⟨s.takeDest d, t.taken, congrArg Host.Outcome.next (foremost.taken ok.dests.1 idle), ?_, fun j hj => ?_,
      Dest.taken_suspended, fun pending => ?_, rfl⟩
    · rw [takeDest_fetch, if_pos rfl, here]
      rfl
    · rw [takeDest_fetch, if_neg hj]
    · rw [Dest.taken_pending pending]
      refine ⟨rfl, rfl, rfl, rfl, rfl, fun n => ?_⟩
      have rising := (ok.dests.2 _ (Tab.mem_of_fetch here)).1
      rw [cellAt_startCells rising]
      split
      · rename_i target
        exact ⟨rfl, fun _ => ⟨rfl, rfl⟩, fun h => absurd target h⟩
      · rename_i other
        exact ⟨rfl, fun h => absurd h other, fun _ => ⟨rfl, rfl⟩⟩

end Sys2Proof.Machine
end

section
/-! SUPPORT. What the end of a sweep is (R47, R48), and what each step of the solver keeps (R44 to R51). -/

namespace Sys2Proof.Machine

/-! ### The destination that is SOLVING -/

theorem solving_some {s : State} (hr : Tab.Rising s.dests) {d : Nat} (h : s.solving = some d) :
    ∃ t, Tab.fetch s.dests d = some t ∧ t.status = .solving := by
  obtain ⟨t, here, hs, -⟩ := firstDest_some hr h
  exact ⟨t, here, eq_of_beq hs⟩

theorem sweepEnds_some {s : State} {d : Nat} {t : Dest} (h : s.solving = some d) (here : Tab.fetch s.dests d = some t) :
    s.sweepEnds = s.sweepDone d t := by
  unfold State.sweepEnds
  rw [h]
  dsimp only
  rw [here]

theorem sweepEnds_none {s : State} (h : s.solving = none) : s.sweepEnds = s := by
  unfold State.sweepEnds
  rw [h]

/-- R50: what suspends a solve. -/
theorem suspends_iff (s : State) (t : Dest) :
    s.suspends t = true ↔ (s.ship.phase = .alert ∨ s.ship.phase = .muster) ∧ t.kind ≠ .musterStation ∧
      ∃ e ∈ s.dests, e.2.kind = .musterStation ∧ e.2.status = .pending := by
  rw [State.suspends, Bool.and_eq_true, Bool.and_eq_true, Phase.emergency_iff, bne_iff_ne, List.any_eq_true, and_assoc]
  simp only [Bool.and_eq_true, beq_iff_eq]

/-- R47: the destination after a sweep that changed cells. -/
def State.sweptOn (s : State) (t : Dest) : Dest :=
  { t with cells := (s.sweep t.cells).1, sweeps := t.sweeps + 1, status := if s.suspends t then .suspended else .solving }

/-- R48: the destination after a sweep that changed none. -/
def Dest.finished (t : Dest) : Dest := { t with sweeps := t.sweeps + 1, status := .settled }

/-! ### A sweep that changes nothing -/

theorem relax_unchanged {cells : Tab Cell} {changed : Bool} {u v effort length : Nat} {h : Hop}
    (same : (relax cells changed u v effort length h).2 = false) : relax cells changed u v effort length h = (cells, changed) := by
  unfold relax at same ⊢
  split at same
  · rfl
  · split at same
    · cases same
    · rename_i worse
      exact if_neg worse

theorem sweepSegment_unchanged {s : State} {acc : Tab Cell × Bool} {e : Nat × Segment} (same : (s.sweepSegment acc e).2 = false) :
    s.sweepSegment acc e = acc := by
  unfold State.sweepSegment at same ⊢
  dsimp only at same ⊢
  split at same
  · rename_i passable
    rw [if_pos passable]
    split at same
    · rename_i oneWay
      rw [if_pos oneWay]
      exact relax_unchanged same
    · rename_i both
      rw [if_neg both]
      have back := relax_unchanged same
      rw [back] at same ⊢
      exact relax_unchanged same
  · rename_i closed
    rw [if_neg closed]

theorem sweep_unchanged {s : State} {cells : Tab Cell} (same : (s.sweep cells).2 = false) : (s.sweep cells).1 = cells := by
  have all : ∀ (l : Tab Segment) (acc : Tab Cell × Bool), (l.foldl s.sweepSegment acc).2 = false → l.foldl s.sweepSegment acc = acc := by
    intro l
    induction l with
    | nil => exact fun _ _ => rfl
    | cons e l ih =>
      intro acc h
      have later := ih _ h
      rw [List.foldl_cons, later] at h ⊢
      exact sweepSegment_unchanged h
  exact congrArg Prod.fst (all s.segments (cells, false) same)

/-- R47, R48: the end of a sweep, by whether it took a traversal. -/
theorem sweepDone_cases (s : State) (d : Nat) (t : Dest) :
    (∃ n, n ≠ 0 ∧ s.Swept (traversals s.segments) (cellAt t.cells) (cellAt (s.sweep t.cells).1) n ∧
      s.sweepDone d t = s.setDest d (s.sweptOn t)) ∨
    (s.Swept (traversals s.segments) (cellAt t.cells) (cellAt t.cells) 0 ∧ s.sweepDone d t = s.settle d t.finished) := by
  obtain ⟨n, swept, flag⟩ := s.sweep_swept t.cells
  by_cases hn : n = 0
  · subst hn
    have same : (s.sweep t.cells).2 = false := Bool.eq_false_iff.2 fun h => flag.1 h rfl
    have cells := sweep_unchanged same
    rw [cells] at swept
    refine Or.inr ⟨swept, ?_⟩
    unfold State.sweepDone
    dsimp only
    rw [same, cells]
    exact if_neg Bool.false_ne_true
  · exact Or.inl ⟨n, hn, swept, if_pos (flag.2 hn)⟩

/-- R48: where a sweep takes none, no passable traversal betters any cell. -/
theorem State.Swept.least {s : State} (hr : Tab.Rising s.segments) {cells : Nat → Cell}
    (hs : s.Swept (traversals s.segments) cells cells 0) {h : Hop} {u v c l ev : Nat} (ho : s.Offers h u v c l)
    (hev : (cells v).effort = some ev) (cap : c + ev ≤ 65534) : EffortWithin (cells u) (c + ev) :=
  hs.within_offer hr ho ⟨ev, hev, le_rfl⟩ cap

/-- R55: what a settle makes of the destinations. -/
theorem settle_dests (s : State) (d : Nat) (v : Dest) : (s.settle d v).dests = Tab.store s.dests d v := by
  have marked := markWhere_dests (s.setDest d v) ((s.setDest d v).showsDest fun n => n == d) s.writeUrgency
  unfold State.settle
  dsimp only
  split
  · have counted : ∀ u : State, (u.recount d).dests = u.dests := fun u => recount_only u d .dests (by decide)
    exact (counted _).trans marked
  · exact marked

/-! ### One destination changed -/

/-- R44, R47 to R51: what the solver keeps of one destination. -/
structure State.DestOk (s : State) (x : Dest) : Prop where
  alarm : x.status = .suspended → x.kind ≠ .musterStation ∧ (s.ship.phase = .alert ∨ s.ship.phase = .muster)
  cells : x.status = .solving ∨ x.status = .suspended → s.CellsOk x.targets (cellAt x.cells)
  walked : x.status = .solving ∨ x.status = .suspended → s.Walked x.targets x.sweeps (cellAt x.cells)
  bounded : x.status = .solving ∨ x.status = .suspended → x.sweeps ≤ 255
  settled : x.status = .settled → s.SettledOk x ∧ x.sweeps ≤ 256

/-- R44, R49, R50: two destinations that may stand together with the statuses and kinds they have. -/
def Dest.Apart (x y : Dest) : Prop :=
  ¬(x.status = .solving ∧ y.status = .solving) ∧ ¬(x.status = .suspended ∧ y.status = .suspended) ∧
    (x.status = .suspended → y.status = .solving → y.kind = .musterStation) ∧
    (y.status = .suspended → x.status = .solving → x.kind = .musterStation)

theorem State.SolverOk.destOk {s : State} (ok : s.SolverOk) {d : Nat} {x : Dest} (h : Tab.fetch s.dests d = some x) : s.DestOk x :=
  ⟨ok.alarm d x h, fun hs => (solveOk_iff s x).1 (ok.solving d x h hs), fun hs => ok.walked d x h hs, fun hs => ok.bounded d x h hs,
    fun hs => ⟨ok.settled d x h hs, ok.final d x h hs⟩⟩

/-- One destination replaced by one that is in order and stands apart from the others. -/
theorem State.SolverOk.replaced {s t : State} (ok : s.SolverOk) (graph : s.SameGraph t) {d : Nat} {v : Dest}
    (dests : ∀ j, Tab.fetch t.dests j = if j = d then some v else Tab.fetch s.dests j) (own : s.DestOk v)
    (apart : ∀ e y, e ≠ d → Tab.fetch s.dests e = some y → v.Apart y) : t.SolverOk := by
  -- A destination of `t` is `v`, at `d`, or one of `s`.
  have entry : ∀ {j x}, Tab.fetch t.dests j = some x → (j = d ∧ x = v) ∨ (j ≠ d ∧ Tab.fetch s.dests j = some x) := by
    intro j x h
    rw [dests] at h
    split at h
    · rename_i hj
      exact Or.inl ⟨hj, (Option.some.inj h).symm⟩
    · rename_i hj
      exact Or.inr ⟨hj, h⟩
  have each : ∀ {j x}, Tab.fetch t.dests j = some x → s.DestOk x := fun h => by
    rcases entry h with ⟨-, rfl⟩ | ⟨-, h⟩
    · exact own
    · exact ok.destOk h
  exact {
    one := fun j e x y hx hy hs hs' => by
      rcases entry hx with ⟨rfl, rfl⟩ | ⟨hj, hx⟩ <;> rcases entry hy with ⟨rfl, rfl⟩ | ⟨he, hy⟩
      · rfl
      · exact absurd ⟨hs, hs'⟩ (apart e y he hy).1
      · exact absurd ⟨hs', hs⟩ (apart j x hj hx).1
      · exact ok.one j e x y hx hy hs hs'
    suspended := fun j e x y hx hy hs hs' => by
      rcases entry hx with ⟨rfl, rfl⟩ | ⟨hj, hx⟩ <;> rcases entry hy with ⟨rfl, rfl⟩ | ⟨he, hy⟩
      · rfl
      · exact absurd ⟨hs, hs'⟩ (apart e y he hy).2.1
      · exact absurd ⟨hs', hs⟩ (apart j x hj hx).2.1
      · exact ok.suspended j e x y hx hy hs hs'
    alarm := fun j x hx hs => by
      rw [← Phase.emergency_iff, graph.emergency, Phase.emergency_iff]
      exact (each hx).alarm hs
    overtaken := fun j e x y hx hy hs hs' => by
      rcases entry hx with ⟨rfl, rfl⟩ | ⟨hj, hx⟩ <;> rcases entry hy with ⟨rfl, rfl⟩ | ⟨he, hy⟩
      · rw [hs] at hs'
        cases hs'
      · exact (apart e y he hy).2.2.1 hs hs'
      · exact (apart j x hj hx).2.2.2 hs hs'
      · exact ok.overtaken j e x y hx hy hs hs'
    solving := fun j x hx hs => graph.solveOk ((solveOk_iff s x).2 ((each hx).cells hs))
    settled := fun j x hx hs => graph.settledOk ((each hx).settled hs).1
    nodes := by
      rw [graph.nodes]
      exact ok.nodes
    walked := fun j x hx hs k hk n w path => (each hx).walked hs k hk n w (graph.symm.reaches path)
    bounded := fun j x hx hs => (each hx).bounded hs
    final := fun j x hx hs => ((each hx).settled hs).2 }

/-! ### The solver takes a destination -/

/-- R47: the cells at the start of a solve. -/
theorem startCells_ok (s : State) {old : Tab Cell} (hr : Tab.Rising old) (targets : List Nat) :
    s.CellsOk targets (cellAt (startCells old targets)) := by
  refine ⟨fun n hn => ?_, fun n e hn he => ?_, fun n hn _ => ?_⟩
  · rw [cellAt_startCells hr, if_pos hn]
  · rw [cellAt_startCells hr, if_neg hn] at he
    cases he
  · rw [cellAt_startCells hr, if_neg hn]

theorem takeDest_graph (s : State) (d : Nat) : s.SameGraph (s.takeDest d) := ⟨rfl, rfl, rfl, rfl, fun _ => Iff.rfl⟩

/-- R47, R51: the destination taken is in order. -/
theorem State.Foremost.taken_destOk {s : State} {d : Nat} {t : Dest} {r : Nat} (h : s.Foremost d t r) (tables : s.TablesOk)
    (ok : s.SolverOk) : s.DestOk t.taken := by
  have status := t.taken_status
  rcases solverRank_cases h.rank with ⟨-, hs, -⟩ | ⟨-, hs⟩ | ⟨-, hs, -⟩
  case inr.inl =>
    have own := ok.destOk h.here
    rw [Dest.taken_suspended hs]
    exact ⟨nofun, fun _ => own.cells (Or.inr hs), fun _ => own.walked (Or.inr hs), fun _ => own.bounded (Or.inr hs), nofun⟩
  all_goals
    have start := startCells_ok s (tables.dests.2 _ (Tab.mem_of_fetch h.here)).1 t.targets
    rw [Dest.taken_pending hs]
    exact ⟨nofun, fun _ => start, fun _ => start.walked_zero, fun _ => Nat.zero_le _, nofun⟩

/-- R49: while another destination is SUSPENDED, the one taken is a muster station. -/
theorem State.Foremost.muster {s : State} {d : Nat} {t : Dest} {r : Nat} (h : s.Foremost d t r) (ok : s.SolverOk) {e : Nat} {y : Dest}
    (he : e ≠ d) (hy : Tab.fetch s.dests e = some y) (hs : y.status = .suspended) : t.kind = .musterStation := by
  have first := h.first _ (Tab.mem_of_fetch hy) _ (solverRank_suspended hs)
  rcases solverRank_cases h.rank with ⟨-, -, -, hk⟩ | ⟨-, ht⟩ | ⟨rfl, -⟩
  · exact hk
  · exact absurd (ok.suspended _ _ _ _ hy h.here hs ht) he
  · omega

theorem Dest.taken_kind (t : Dest) : t.taken.kind = t.kind := by
  unfold Dest.taken
  split
  · rfl
  · rfl

theorem solverTakes_solverOk {s : State} (tables : s.TablesOk) (ok : s.SolverOk) : s.solverTakes.SolverOk := by
  by_cases busy : ∃ e ∈ s.dests, e.2.status = .solving
  · rw [solverTakes_busy busy]
    exact ok
  · have idle : ∀ e ∈ s.dests, e.2.status ≠ .solving := fun e he hs => busy ⟨e, he, hs⟩
    cases hd : s.nextDest with
    | none =>
      rw [solverTakes_none hd]
      exact ok
    | some d =>
      obtain ⟨t, r, foremost⟩ := nextDest_foremost tables.dests.1 hd
      rw [solverTakes_some idle hd]
      refine ok.replaced (takeDest_graph s d) (d := d) (v := t.taken) (fun j => ?_) (foremost.taken_destOk tables ok) fun e y he hy => ?_
      · rw [takeDest_fetch, foremost.here]
        rfl
      · have other := idle _ (Tab.mem_of_fetch hy)
        have status := t.taken_status
        refine ⟨fun h => other h.2, fun h => ?_, fun h => ?_, fun hs _ => t.taken_kind.trans (foremost.muster ok he hy hs)⟩
        · rw [status] at h
          cases h.1
        · rw [status] at h
          cases h

/-! ### A sweep ends -/

/-- R48: a sweep of a solve that 255 sweeps have not settled takes no traversal. -/
theorem State.DestOk.sweeps_lt {s : State} {t : Dest} (own : s.DestOk t) (hs : t.status = .solving) (hr : Tab.Rising s.segments)
    (nodes : ∀ e ∈ s.nodes, e.1 < 256) {after : Nat → Cell} {n : Nat} (swept : s.Swept (traversals s.segments) (cellAt t.cells) after n)
    (changed : n ≠ 0) : t.sweeps < 255 := by
  refine lt_of_le_of_ne (own.bounded (Or.inl hs)) fun last => changed ?_
  refine swept.none_taken (listed_traversals hr) fun h u v c l ev => ?_
  exact (own.cells (Or.inl hs)).least_of_walked nodes (last ▸ own.walked (Or.inl hs))

/-- R47, R50: the destination whose sweep changed cells is in order. -/
theorem State.DestOk.sweptOn {s : State} {t : Dest} (own : s.DestOk t) (hs : t.status = .solving) (hr : Tab.Rising s.segments)
    (nodes : ∀ e ∈ s.nodes, e.1 < 256) {n : Nat} (changed : n ≠ 0)
    (swept : s.Swept (traversals s.segments) (cellAt t.cells) (cellAt (s.sweep t.cells).1) n) : s.DestOk (s.sweptOn t) := by
  refine ⟨fun h => ?_, fun _ => swept.cellsOk (listed_traversals hr) (own.cells (Or.inl hs)),
    fun _ => swept.walked hr (own.walked (Or.inl hs)), fun _ => own.sweeps_lt hs hr nodes swept changed, fun h => ?_⟩
  · by_cases hc : s.suspends t = true
    · obtain ⟨emergency, hk, -⟩ := (suspends_iff s t).1 hc
      exact ⟨hk, emergency⟩
    · cases (if_neg hc : (if s.suspends t then DestStatus.suspended else .solving) = .solving).symm.trans h
  · change (if s.suspends t then DestStatus.suspended else .solving) = .settled at h
    split at h
    · cases h
    · cases h

/-- R48: the destination whose sweep changed none is in order. -/
theorem State.DestOk.finished {s : State} {t : Dest} (own : s.DestOk t) (hs : t.status = .solving) (hr : Tab.Rising s.segments)
    (swept : s.Swept (traversals s.segments) (cellAt t.cells) (cellAt t.cells) 0) : s.DestOk t.finished := by
  have ok := own.cells (Or.inl hs)
  have least : ∀ {h u v c l ev}, s.Offers h u v c l → (cellAt t.cells v).effort = some ev → c + ev ≤ 65534 →
      EffortWithin (cellAt t.cells u) (c + ev) := fun ho hev cap => swept.least hr ho hev cap
  refine ⟨nofun, nofun, nofun, nofun, fun _ => ⟨⟨ok.target, fun n e hn he => ?_, fun h u v c l ev => least⟩,
    Nat.succ_le_succ (own.bounded (Or.inl hs))⟩⟩
  obtain ⟨one, cap, h, v, c, l, ev, hop, offers, hev, form⟩ := ok.hop n e hn he
  rcases form with ⟨effort, length⟩ | better
  · exact ⟨one, cap, h, v, c, l, ev, hop, offers, hev, effort, length⟩
  · obtain ⟨own, hown, hle⟩ := least offers hev (by omega)
    have := Option.some.inj (he.symm.trans hown)
    omega

theorem sweepParts_graph {s t : State} (h : s.Only t sweepParts) : s.SameGraph t := by
  have ship : t.ship = s.ship := h .ship (by decide)
  have node : t.node = s.node := h .node (by decide)
  exact ⟨h .nodes (by decide), h .segments (by decide), by rw [node], by rw [ship], fun c => by rw [ship]⟩

theorem sweepEnds_solverOk {s : State} (tables : s.TablesOk) (ok : s.SolverOk) : s.sweepEnds.SolverOk := by
  cases hd : s.solving with
  | none =>
    rw [sweepEnds_none hd]
    exact ok
  | some d =>
    obtain ⟨t, here, hs⟩ := solving_some tables.dests.1 hd
    have own := ok.destOk here
    have others : ∀ e y, e ≠ d → Tab.fetch s.dests e = some y → y.status ≠ .solving := fun e y he hy hy' =>
      he (ok.one e d y t hy here hy' hs)
    rw [sweepEnds_some hd here]
    rcases sweepDone_cases s d t with ⟨n, changed, swept, done⟩ | ⟨swept, done⟩
    · rw [done]
      refine ok.replaced (sweepParts_graph (setDest_only _ _ _)) (fun j => Tab.fetch_store _ _ _ _)
        (own.sweptOn hs tables.segments ok.nodes changed swept) fun e y he hy => ?_
      have free := others e y he hy
      refine ⟨fun h => free h.2, fun ⟨h, hy'⟩ => ?_, fun _ h => absurd h free, fun hy' _ => ok.overtaken e d y t hy here hy' hs⟩
      exact ((own.sweptOn hs tables.segments ok.nodes changed swept).alarm h).1 (ok.overtaken e d y t hy here hy' hs)
    · rw [done]
      refine ok.replaced (sweepParts_graph (settle_only _ _ _)) (d := d) (fun j => ?_) (own.finished hs tables.segments swept)
        fun e y he hy => ⟨nofun, nofun, nofun, nofun⟩
      rw [settle_dests]
      exact Tab.fetch_store _ _ _ _

/-! ### Every step -/

theorem exec_solverOk (i : Instr) {s t : State} (tables : s.TablesOk) (ok : s.SolverOk) (h : exec i s = .next t) : t.SolverOk := by
  by_cases take : i = .solverTake
  · subst take
    cases h
    exact solverTakes_solverOk tables ok
  · by_cases sweep : i = .sweepEnd
    · subst sweep
      cases h
      exact sweepEnds_solverOk tables ok
    · exact (exec_routes i s take sweep t h).solverOk ok

/-- The tables stay in canonical form where a command leaves the queue, or a draw is taken. -/
theorem State.TablesOk.queued {s : State} (h : s.TablesOk) (p : List Instr) (n : Nat) :
    ({ s with pending := p, draws := n } : State).TablesOk :=
  ⟨h.closures, h.displays, h.nodes, h.segments, h.dests, h.lists, h.cabins, h.lossReported, h.notices, h.templates, h.selection, h.texts⟩

theorem State.SolverOk.calm {s t : State} (ok : s.SolverOk) (h : s.Calm t) : t.SolverOk := h.keepsRoutes.solverOk ok

theorem tick_solverOk {s : State} (ok : s.SolverOk) : s.tick.SolverOk := ok.calm (calm_of rfl rfl rfl rfl rfl)

/-- Settles O56: the solver's own steps, every other command, and the idle millisecond. -/
theorem solverKept : Obligations.SolverKept := by
  intro s t tables ok h
  have queued : ∀ p n, ({ s with pending := p, draws := n } : State).SolverOk := fun p n => ok.calm (calm_of rfl rfl rfl rfl rfl)
  cases hp : s.pending with
  | cons i rest =>
    refine exec_solverOk i (tables.queued rest s.draws) (queued rest s.draws) ?_
    rw [← h, step, hp]
  | nil =>
    rw [step, hp] at h
    have h : s.idle = .next t := h
    unfold State.idle at h
    split at h
    · cases h
      exact tick_solverOk ok
    · split at h
      · exact exec_solverOk _ (tables.queued s.pending (s.draws + 1)) (queued s.pending (s.draws + 1)) h
      · cases h
        exact tick_solverOk (queued s.pending (s.draws + 1))

end Sys2Proof.Machine
end

section
/-! SUPPORT. What a settle brings (R55, R92, R93): the displays that show a destination, and the recount of a muster station. -/

namespace Sys2Proof.Machine

/-! ### The displays that show a destination (R55) -/

theorem refersTo_iff {s : State} {j : Nat} {x : Display} (h : s.display j = some x) (d p : Nat) :
    s.refersTo (fun n => n == d) j x p = true ↔ s.RoutePosition j x p d := by
  rw [← State.positionDest_iff s j x p d h, State.refersTo]
  cases s.positionDest j x p with
  | none => exact ⟨nofun, nofun⟩
  | some n => rw [beq_iff_eq, Option.some.injEq]

/-- R58: the route positions are 0 to 8. -/
theorem State.RoutePosition.le {s : State} {j : Nat} {x : Display} {p d : Nat} (h : s.RoutePosition j x p d) : p ≤ 8 := by
  rcases h with ⟨lt, -⟩ | ⟨rfl, -⟩
  · exact lt.le
  · exact le_rfl

theorem mem_routePositions {p : Nat} : p ∈ routePositions ↔ p ≤ 8 := by
  rw [show routePositions = List.range 9 from rfl, List.mem_range]
  omega

/-- R55: a display shows a destination in its list, as its cabin's muster station, or as the venue of an item of its board. -/
theorem showsDest_iff {s : State} {j : Nat} {x : Display} (h : s.display j = some x) (d : Nat) :
    s.showsDest (fun n => n == d) j x = true ↔
      (∃ p, s.RoutePosition j x p d) ∨ ∃ f ∈ s.itemList x.cfg, f.venue = some d := by
  rw [State.showsDest, Bool.or_eq_true, List.any_eq_true, List.any_eq_true]
  refine or_congr ⟨fun ⟨p, _, hp⟩ => ⟨p, (refersTo_iff h d p).1 hp⟩, fun ⟨p, hp⟩ =>
    ⟨p, mem_routePositions.2 hp.le, (refersTo_iff h d p).2 hp⟩⟩ (exists_congr fun f => and_congr_right fun _ => ?_)
  cases f.venue with
  | none => exact ⟨nofun, nofun⟩
  | some n => rw [Option.any_some, beq_iff_eq, Option.some.injEq]

/-! ### The recount (R92, R93) -/

/-- R92: the loss count by the model is the one by the rule. -/
theorem lossCount_eq (s : State) (d : Nat) (cells : Tab Cell) : s.lossCount d cells = s.lossAt d cells := by
  rw [State.lossCount, List.countP_eq_length_filter]
  unfold State.lossAt
  refine congrArg List.length (List.filter_congr fun e _ => ?_)
  unfold State.cutOff State.linked
  cases s.display e.2.display with
  | none => simp only [Bool.and_false]
  | some x =>
    simp only [Bool.and_assoc]
    cases (cellAt cells x.cfg.node).effort with
    | none => rfl
    | some _ => rfl

theorem reportLoss_same {s : State} {d n : Nat} (h : Tab.fetchD s.lossReported d 0 = n) : s.reportLoss d n = s := if_pos h

/-- R93: a count that differs from the last reported one is reported, and becomes it. -/
theorem reportLoss_differs {s : State} {d n : Nat} (h : Tab.fetchD s.lossReported d 0 ≠ n) :
    (s.reportLoss d n).lossReported = Tab.put s.lossReported d n 0 ∧
      Reported s.stamp .musterRoute d n s.reporting (s.reportLoss d n).reporting := by
  rw [show s.reportLoss d n = ({ s with lossReported := Tab.put s.lossReported d n 0 } : State).queueReport .musterRoute d n from if_neg h]
  exact ⟨queueReport_only _ _ _ _ .lossReported (by decide),
    queueReport_reported ({ s with lossReported := Tab.put s.lossReported d n 0 } : State) .musterRoute d n⟩

theorem reportLoss_lossReported (s : State) (d n j : Nat) :
    Tab.fetchD (s.reportLoss d n).lossReported j 0 = if j = d then n else Tab.fetchD s.lossReported j 0 := by
  by_cases h : Tab.fetchD s.lossReported d 0 = n
  · rw [reportLoss_same h]
    split
    · rename_i hj
      rw [hj, h]
    · rfl
  · rw [(reportLoss_differs h).1, Tab.fetchD_put]

/-- R93: what a recount reports, from the state it leaves. -/
theorem recount_recounts (s : State) (d : Nat) : (s.recount d).Recounts s.stamp d s.losses (s.recount d).losses := by
  have frame := recount_only s d
  have dests : (s.recount d).dests = s.dests := frame .dests (by decide)
  have cabins : (s.recount d).cabins = s.cabins := frame .cabins (by decide)
  have displays : (s.recount d).displays = s.displays := frame .displays (by decide)
  have counts : ∀ cells, (s.recount d).lossAt d cells = s.lossAt d cells := fun cells => by
    simp only [State.lossAt, State.display, cabins, displays]
  refine ⟨fun e he hk hs => ?_, fun other => ?_⟩
  · rw [dests] at he
    have counted : s.recount d = s.reportLoss d (s.lossAt d e.cells) := by
      unfold State.recount
      rw [he, ← lossCount_eq]
      exact if_pos ⟨hk, hs⟩
    rw [counts, counted]
    exact ⟨reportLoss_lossReported _ _ _, fun same => by rw [reportLoss_same same], fun differs => (reportLoss_differs differs).2⟩
  · have same : s.recount d = s := by
      rw [dests] at other
      unfold State.recount
      split
      · rename_i t ht
        refine if_neg fun h => ?_
        rcases other t ht with hk | hs
        · exact hk h.1
        · exact hs h.2
      · rfl
    rw [same]

/-! ### A destination settles -/

/-- R55: the displays marked as a destination settles. -/
def State.settleMarked (s : State) (d : Nat) (v : Dest) : State :=
  (s.setDest d v).markWhere ((s.setDest d v).showsDest fun n => n == d) s.writeUrgency

theorem settle_eq (s : State) (d : Nat) (v : Dest) :
    s.settle d v = if v.kind = .musterStation then (s.settleMarked d v).recount d else s.settleMarked d v := rfl

theorem settleMarked_losses (s : State) (d : Nat) (v : Dest) : (s.settleMarked d v).losses = s.losses := by
  have screens : (s.setDest d v).ScreensOnly (s.settleMarked d v) := markWhere_screens _ _ _
  rw [State.losses, State.reporting, screens.lossReported_eq, screens.reports_eq, screens.reportArrival_eq]
  rfl

theorem settleMarked_stamp (s : State) (d : Nat) (v : Dest) : (s.settleMarked d v).stamp = s.stamp := by
  have screens : (s.setDest d v).ScreensOnly (s.settleMarked d v) := markWhere_screens _ _ _
  rw [State.stamp, screens.ship_eq]
  rfl

/-- R55: exactly the displays that show the destination are marked, at the write urgency. -/
theorem settleMarked_marks {s : State} (hr : Tab.Rising s.displays) (d : Nat) (v : Dest) :
    s.Marks (s.settleMarked d v) fun j x w =>
      ((∃ p, s.RoutePosition j x p d) ∨ ∃ f ∈ s.itemList x.cfg, f.venue = some d) ∧ w = emergencyUrgency s.ship.phase := by
  refine ((markWhere_round (s.setDest d v) hr _ _).congr (s' := s) rfl rfl rfl rfl fun _ => rfl).congr_marks fun j x hx w => ?_
  rw [State.writeUrgency_eq]
  exact and_congr_left' (showsDest_iff hx d)

/-- R55, R93: a settle marks as `settleMarked_marks` has it; the recount of a muster station leaves displays and strings. -/
theorem settle_marks {s : State} (hr : Tab.Rising s.displays) (d : Nat) (v : Dest) :
    s.Marks (s.settle d v) fun j x w =>
      ((∃ p, s.RoutePosition j x p d) ∨ ∃ f ∈ s.itemList x.cfg, f.venue = some d) ∧ w = emergencyUrgency s.ship.phase := by
  have marked := settleMarked_marks hr d v
  have frame := recount_only (s.settleMarked d v) d
  have displays : ((s.settleMarked d v).recount d).displays = (s.settleMarked d v).displays := frame .displays (by decide)
  have strings : ((s.settleMarked d v).recount d).strings = (s.settleMarked d v).strings := frame .strings (by decide)
  rw [settle_eq]
  split
  · exact marked.congr rfl rfl (funext fun j => congrArg (Tab.fetch · j) displays) strings fun _ => by rw [displays]
  · exact marked

theorem settle_musterStation {s : State} {d : Nat} {v : Dest} (h : v.kind = .musterStation) :
    (s.settle d v).Recounts s.stamp d s.losses (s.settle d v).losses := by
  rw [settle_eq, if_pos h, ← settleMarked_stamp s d v, ← settleMarked_losses s d v]
  exact recount_recounts _ _

theorem settle_other {s : State} {d : Nat} {v : Dest} (h : v.kind ≠ .musterStation) : (s.settle d v).losses = s.losses := by
  rw [settle_eq, if_neg h, settleMarked_losses]

/-- R50: the status of a destination whose sweep changed cells. -/
theorem sweptOn_status (s : State) (t : Dest) :
    (s.sweptOn t).status = if (s.ship.phase = .alert ∨ s.ship.phase = .muster) ∧ t.kind ≠ .musterStation ∧
      (∃ e ∈ s.dests, e.2.kind = .musterStation ∧ e.2.status = .pending) then .suspended else .solving :=
  if_congr (suspends_iff s t) rfl rfl

/-- What the end of a sweep can change, put back. -/
theorem sweepParts_frame {s t : State} (h : s.Only t sweepParts) :
    { t with dests := s.dests, displays := s.displays, strings := s.strings, lossReported := s.lossReported, reports := s.reports,
             reportArrival := s.reportArrival } = s := by
  refine State.eq_of_agree fun p => ?_
  by_cases hp : p ∈ sweepParts
  · cases p
    case dests | displays | strings | lossReported | reports | reportArrival => rfl
    all_goals exact absurd hp (by decide)
  · have agree := h p hp
    cases p
    case dests | displays | strings | lossReported | reports | reportArrival => rfl
    all_goals exact agree

/-- R44: the destination that alone is SOLVING is the one whose sweep ends. -/
theorem solving_of_only {s : State} {d : Nat} {t : Dest} (hr : Tab.Rising s.dests) (here : Tab.fetch s.dests d = some t)
    (hs : t.status = .solving) (only : ∀ e ∈ s.dests, e.2.status = .solving → e.1 = d) : s.solving = some d := by
  have some : s.solving.isSome = true := firstDest_isSome.2 ⟨_, Tab.mem_of_fetch here, beq_iff_eq.2 hs⟩
  obtain ⟨e, he⟩ := Option.isSome_iff_exists.1 some
  obtain ⟨y, hy, hys⟩ := solving_some hr he
  have same : e = d := only _ (Tab.mem_of_fetch hy) hys
  rw [he, same]

/-- Settles O52: a sweep that took a traversal leaves its cells; one that took none settles its destination. -/
theorem sweepEnd : Obligations.SweepEnd := by
  intro s d t tables here hs only
  have ends : exec .sweepEnd s = .next (s.sweepDone d t) :=
    congrArg Host.Outcome.next (sweepEnds_some (solving_of_only tables.dests.1 here hs only) here)
  rcases sweepDone_cases s d t with ⟨n, changed, swept, done⟩ | ⟨swept, done⟩
  · rw [done] at ends
    refine ⟨_, s.sweptOn t, _, n, swept, ends, Tab.fetch_store_same _ _ _, fun j hj => Tab.fetch_store_ne _ _ hj, rfl, rfl, rfl, rfl,
      fun _ => ⟨fun _ => rfl, sweptOn_status s t, rfl, rfl, rfl⟩, fun none => absurd none changed, sweepParts_frame (setDest_only _ _ _)⟩
  · rw [done] at ends
    refine ⟨_, t.finished, _, 0, swept, ends, ?_, fun j hj => ?_, rfl, rfl, rfl, rfl, fun changed => absurd rfl changed, fun _ => ?_,
      sweepParts_frame (settle_only _ _ _)⟩
    · rw [settle_dests]
      exact Tab.fetch_store_same _ _ _
    · rw [settle_dests]
      exact Tab.fetch_store_ne _ _ hj
    · exact ⟨rfl, rfl, fun h x y c l far offers hfar cap => swept.least tables.segments offers hfar cap,
        settle_marks tables.displays.1 d _, settle_musterStation (v := t.finished),
        settle_other (v := t.finished)⟩

end Sys2Proof.Machine
end

section
/-! SUPPORT. A display taken from a string (R138 to R140): what each part of a take makes of the display and of the string. -/

namespace Sys2Proof.Machine

/-- What a take leaves: the display and its string as they are given, the other displays and strings, and every other part, as they
were. -/
structure State.TakeLeaves (s t : State) (k : StringNo) (d : Nat) (y : Display) (c : StringCtl) : Prop where
  display : t.display d = some y
  str : t.str k = c
  displays : ∀ j, j ≠ d → t.display j = s.display j
  strings : ∀ j, j ≠ k → t.str j = s.str j
  rest : s.ScreensOnly t

section Parts

variable {s t : State} {k : StringNo} {d : Nat} {y : Display} {c : StringCtl}

theorem takeLeaves_refl (h : s.display d = some y) : s.TakeLeaves s k d y (s.str k) := ⟨h, rfl, fun _ _ => rfl, fun _ _ => rfl, .refl s⟩

theorem State.TakeLeaves.setStr (h : s.TakeLeaves t k d y c) (e : StringCtl) : s.TakeLeaves (t.setStr k e) k d y e :=
  ⟨h.display, setStr_str _ _ _, h.displays, fun j hj => (setStr_str_ne _ _ _ _ hj.symm).trans (h.strings j hj),
    h.rest.trans (setStr_screens _ _ _)⟩

theorem State.TakeLeaves.setRun (h : s.TakeLeaves t k d y c) (n : Nat) : s.TakeLeaves (t.setRun k n) k d y { c with run := n } := by
  rw [State.setRun, h.str]
  exact h.setStr _

theorem State.TakeLeaves.setDisplay (h : s.TakeLeaves t k d y c) (z : Display) : s.TakeLeaves (t.setDisplay d z) k d z c :=
  ⟨display_setDisplay_same _ _ _, h.str, fun j hj => (display_setDisplay_ne _ _ hj).trans (h.displays j hj), h.strings,
    h.rest.trans (setDisplay_screens _ _ _)⟩

theorem State.TakeLeaves.onRuntime (h : s.TakeLeaves t k d y c) (f : DisplayRuntime → DisplayRuntime) :
    s.TakeLeaves (t.onRuntime d f) k d { y with rt := f y.rt } c := by
  refine ⟨?_, h.str, fun j hj => ?_, h.strings, h.rest.trans (onRuntime_screens _ _ _)⟩
  · rw [display_onRuntime, if_pos rfl, h.display]
    rfl
  · rw [display_onRuntime, if_neg hj, h.displays j hj]

/-- R139: a QUEUED display leaves its queue. -/
theorem leaveQueue_queued (hx : s.display d = some y) (hk : y.cfg.string = k) {u : Urgency} (hu : y.rt.state = .queued u) :
    s.TakeLeaves (s.leaveQueue d) k d y ((s.str k).setQueue u (((s.str k).queue u).filter fun e => e.display != d)) := by
  have left : s.leaveQueue d = s.setStr k ((s.str k).setQueue u (((s.str k).queue u).filter fun e => e.display != d)) := by
    unfold State.leaveQueue
    rw [hx]
    dsimp only
    rw [hu, hk]
    rfl
  rw [left]
  exact (takeLeaves_refl hx).setStr _

theorem leaveQueue_clean (hx : s.display d = some y) (hc : y.rt.state = .clean) : s.leaveQueue d = s := by
  unfold State.leaveQueue
  rw [hx]
  dsimp only
  rw [hc]

/-- R140: a try sends its message under the tag as it stands, and its reply is awaited from now. -/
theorem State.TakeLeaves.sendTry (h : s.TakeLeaves t k d y c) (x : Txn) :
    s.TakeLeaves (t.sendTry k x) k d y
      ({ c with txn := some { x with tag := c.tag, sentAt := s.now } }.send (t.message x).1 (t.message x).2) := by
  rw [State.sendTry, h.str, h.rest.now_eq]
  exact h.setStr _

/-- R138 to R140: a transaction opened with the display taken. -/
theorem State.TakeLeaves.openTxn (h : s.TakeLeaves t k d y c) {x : Txn} (hd : x.display = d) {code : Nat}
    (message : ∀ v : State, v.message x = (code, [v.positionByte d])) :
    s.TakeLeaves (t.openTxn k x) k d { y with rt := { y.rt with state := .opened, stale := none } }
      { c with
        state := .opened
        txn := some { x with tag := c.tag, sentAt := s.now }
        tag := (c.tag + 1) % 256
        lineOut := stringBytes c.tag code [byteOf y.cfg.position] } := by
  subst hd
  obtain ⟨v, hv⟩ : ∃ v, v = t.onRuntime x.display fun r => { r with state := .opened, stale := none } := ⟨_, rfl⟩
  have opened : s.TakeLeaves v k x.display { y with rt := { y.rt with state := .opened, stale := none } } c := hv ▸ h.onRuntime _
  have sent := (opened.setStr { c with state := .opened }).sendTry x
  have position : (v.setStr k { c with state := .opened }).positionByte x.display = byteOf y.cfg.position := by
    unfold State.positionByte
    rw [display_setStr, opened.display]
  rw [message, position] at sent
  rw [State.openTxn, ← hv, opened.str]
  exact sent

end Parts

/-! ### The three takes (R138, R139) -/

theorem composedHeld_leaveQueue (s : State) (d j : Nat) (x : Display) : (s.leaveQueue d).composedHeld j x = s.composedHeld j x := by
  unfold State.leaveQueue
  split
  · rfl
  · split
    · rfl
    all_goals rfl

/-- The state of a dispatch taken, before its digest is compared. -/
theorem composed_leaves {s : State} {k : StringNo} {d : Nat} {x : Display} (hx : s.display d = some x) (hk : x.cfg.string = k) {u : Urgency}
    (hu : x.rt.state = .queued u) :
    s.TakeLeaves ((s.leaveQueue d).writeHeld d x) k d { x with rt := { x.rt with held := s.composedHeld d x } }
      ((s.str k).setQueue u (((s.str k).queue u).filter fun e => e.display != d)) := by
  rw [State.writeHeld, composedHeld_leaveQueue]
  exact (leaveQueue_queued hx hk hu).setDisplay _

theorem StringCtl.setQueue_run (c : StringCtl) (u : Urgency) (q : List QEntry) : { c.setQueue u q with run := c.run } = c.setQueue u q := by
  cases u
  all_goals rfl

/-- R139: an equal digest makes the display CLEAN. -/
theorem takeDispatch_equal {s : State} {k : StringNo} {d : Nat} {x : Display} {u : Urgency} (stamp : Nat) (hx : s.display d = some x)
    (hk : x.cfg.string = k) (hu : x.rt.state = .queued u) (equal : x.rt.digest = some (digest (s.record d x))) :
    s.TakeLeaves (s.takeDispatch k d u stamp) k d { x with rt := { x.rt with state := .clean, held := s.composedHeld d x } }
      { (s.str k).setQueue u (((s.str k).queue u).filter fun e => e.display != d) with
        run := if u = .safety then (s.str k).run else 0 } := by
  have clean := (composed_leaves hx hk hu).onRuntime fun y => { y with state := .clean }
  unfold State.takeDispatch
  rw [hx]
  dsimp only
  rw [if_pos equal]
  split
  · rw [StringCtl.setQueue_run]
    exact clean
  · exact clean.setRun 0

/-- R139: another digest opens a dispatch with SELECT. -/
theorem takeDispatch_differs {s : State} {k : StringNo} {d : Nat} {x : Display} {u : Urgency} (stamp : Nat) (hx : s.display d = some x)
    (hk : x.cfg.string = k) (hu : x.rt.state = .queued u) (differs : x.rt.digest ≠ some (digest (s.record d x))) :
    s.TakeLeaves (s.takeDispatch k d u stamp) k d
      { x with rt := { x.rt with state := .opened, stale := none, held := s.composedHeld d x } }
      { (s.str k).setQueue u (((s.str k).queue u).filter fun e => e.display != d) with
        state := .opened
        run := if u = .safety then (s.str k).run + 1 else 0
        txn := some
          { kind := .dispatch (s.record d x) (digest (s.record d x)), display := d, step := .select, tries := 1,
            place := some (u, stamp), tag := (s.str k).tag, sentAt := s.now }
        tag := ((s.str k).tag + 1) % 256
        lineOut := stringBytes (s.str k).tag 1 [byteOf x.cfg.position] } := by
  have tag : ((s.str k).setQueue u (((s.str k).queue u).filter fun e => e.display != d)).tag = (s.str k).tag := by
    cases u
    all_goals rfl
  have opened := ((composed_leaves hx hk hu).setRun (if u = .safety then (s.str k).run + 1 else 0)).openTxn
    (x := { kind := .dispatch (s.record d x) (digest (s.record d x)), display := d, step := .select, tries := 1,
            place := some (u, stamp), tag := 0, sentAt := 0 }) rfl fun _ => rfl
  rw [← tag]
  unfold State.takeDispatch
  rw [hx]
  dsimp only
  rw [if_neg differs]
  exact opened

/-- R136, R139: a poll goes out from the display's place, or from none. -/
theorem takePoll_leaves {s : State} {k : StringNo} {d : Nat} {x : Display} {c : StringCtl} (hx : s.display d = some x)
    (left : s.TakeLeaves (s.leaveQueue d) k d x c) (tag : c.tag = (s.str k).tag) :
    s.TakeLeaves (s.takePoll k d) k d { x with rt := { x.rt with state := .opened, stale := none } }
      { c with
        state := .opened
        run := 0
        cursor := x.cfg.position
        txn := some
          { kind := .poll, display := d, step := .poll, tries := 1, place := s.placeOf d x, tag := (s.str k).tag,
            sentAt := s.now }
        tag := ((s.str k).tag + 1) % 256
        lineOut := stringBytes (s.str k).tag 5 [byteOf x.cfg.position] } := by
  have opened := (left.setStr { c with run := 0, cursor := x.cfg.position }).openTxn
    (x := { kind := .poll, display := d, step := .poll, tries := 1, place := s.placeOf d x, tag := 0, sentAt := 0 }) rfl fun _ => rfl
  rw [← tag]
  unfold State.takePoll
  rw [hx]
  dsimp only
  rw [left.str]
  exact opened

theorem takeProbe_leaves {s : State} (k : StringNo) {d : Nat} {x : Display} (hx : s.display d = some x) :
    s.TakeLeaves (s.takeProbe k d) k d { x with rt := { x.rt with state := .opened, stale := none } }
      { s.str k with
        state := .opened
        run := 0
        txn := some
          { kind := .probe, display := d, step := .select, tries := 1, place := none, tag := (s.str k).tag, sentAt := s.now }
        tag := ((s.str k).tag + 1) % 256
        lineOut := stringBytes (s.str k).tag 1 [byteOf x.cfg.position] } :=
  ((takeLeaves_refl hx).setRun 0).openTxn
    (x := { kind := .probe, display := d, step := .select, tries := 1, place := none, tag := 0, sentAt := 0 }) rfl fun _ => rfl

theorem State.TakeLeaves.frame {s t : State} {k : StringNo} {d : Nat} {y : Display} {c : StringCtl} (h : s.TakeLeaves t k d y c) :
    { t with displays := s.displays, strings := s.strings } = s := by
  rw [h.rest]

/-- R139: the place of a QUEUED display. -/
theorem placeOf_queued {s : State} {k : StringNo} {d : Nat} {x : Display} (hk : x.cfg.string = k) {u : Urgency} {stamp : Nat}
    (hu : x.rt.state = .queued u)
    (place : ((s.str k).queue u).find? (fun e => e.display == d) = some { display := d, stamp := stamp }) :
    s.placeOf d x = some (u, stamp) := by
  unfold State.placeOf
  rw [hu]
  dsimp only
  rw [hk, place]
  rfl

theorem placeOf_clean {s : State} {d : Nat} {x : Display} (hc : x.rt.state = .clean) : s.placeOf d x = none := by
  unfold State.placeOf
  rw [hc]

/-- Settles O43, a take at a time. -/
theorem takes : Obligations.Takes := by
  intro s k d x hx hk
  refine ⟨fun u stamp offered hu => ?_, fun offered c place held => ?_, fun offered _ => ?_⟩
  · have run : exec (.dispatchTake k) s = .next (s.takeDispatch k d u stamp) := by
      refine congrArg Host.Outcome.next ?_
      unfold State.dispatchTaken
      rw [offered]
    refine ⟨_, run, ?_⟩
    by_cases equal : x.rt.digest = some (digest (s.record d x))
    · have taken := takeDispatch_equal stamp hx hk hu equal
      exact ⟨fun _ => ⟨taken.display, taken.str⟩, fun differs => absurd equal differs, taken.displays, taken.strings, taken.frame⟩
    · have taken := takeDispatch_differs stamp hx hk hu equal
      exact ⟨fun same => absurd same equal, fun _ => ⟨taken.display, taken.str⟩, taken.displays, taken.strings, taken.frame⟩
  · have run : exec (.pollTake k) s = .next (s.takePoll k d) := by
      refine congrArg Host.Outcome.next ?_
      unfold State.pollTaken
      rw [offered]
    obtain ⟨left, tag, here⟩ : s.TakeLeaves (s.leaveQueue d) k d x c ∧ c.tag = (s.str k).tag ∧ s.placeOf d x = place := by
      rcases held with ⟨hc, rfl, rfl⟩ | ⟨u, stamp, hu, queued, rfl, rfl⟩
      · rw [leaveQueue_clean hx hc]
        exact ⟨takeLeaves_refl hx, rfl, placeOf_clean hc⟩
      · refine ⟨leaveQueue_queued hx hk hu, ?_, placeOf_queued hk hu queued⟩
        cases u
        all_goals rfl
    have taken := takePoll_leaves hx left tag
    rw [here] at taken
    exact ⟨_, run, taken.str, taken.display, taken.displays, taken.strings, taken.frame⟩
  · have run : exec (.probeTake k) s = .next (s.takeProbe k d) := by
      refine congrArg Host.Outcome.next ?_
      unfold State.probeTaken
      rw [offered]
    have taken := takeProbe_leaves k hx
    exact ⟨_, run, taken.str, taken.display, taken.displays, taken.strings, taken.frame⟩

end Sys2Proof.Machine
end

section
/-! SUPPORT. WRITE and CLEAR of NODES and SEGMENTS (R37 to R39, R52). -/

namespace Sys2Proof.Machine

/-! ### A WRITE to an entry that may be absent (R165, R168) -/

/-- R165, R168: every check of a WRITE before its table's own is passed, the entry present or created by it. -/
structure State.WriteReaches (s : State) (a : Arrival) (t i : Nat) (fs : FieldList) : Prop where
  asked : s.Asked a
  plain : PlainFields t fs
  table : tableOk t = true
  index : indexOk t i false = true
  required : (alwaysRequires t || !s.entryExists t i) = true → (requiredFields t).all (supplies fs) = true
  access : s.mayWrite a.origin t i = true
  phase : s.phasePassesWrite a.origin t fs = true

theorem State.WriteReaches.answer {s : State} {a : Arrival} {t i : Nat} {fs : FieldList} (h : s.WriteReaches a t i fs) :
    s.answerWrite a.origin t i fs = s.ofWrite (s.writeTable a.origin t i fs) := by
  have form : s.writeFormOk t i fs = true := by
    have once := (hasDuplicate_eq_false_iff fs).2 h.plain.nodup
    have required := h.required
    rw [State.writeFormOk, once, h.plain.kindsOk, h.table, h.index]
    cases missing : alwaysRequires t || !s.entryExists t i with
    | false => rfl
    | true => exact required missing
  simp only [State.answerWrite, State.checked, firstRefusal, form, h.table, h.index, h.access, h.phase, if_true]

theorem State.WriteReaches.taken {s : State} {a : Arrival} {t i : Nat} {fs : FieldList} (h : s.WriteReaches a t i fs) {u : State} {b : Bool}
    (hw : s.writeTable a.origin t i fs = .ok (u, b)) :
    exec (.write a t i fs) s = .next (u.answered a (if b then 1 else 0) 0 []) := by
  rw [exec_write h.asked h.plain (h.answer.trans (congrArg s.ofWrite hw))]
  cases b
  all_goals rfl

theorem State.WriteReaches.refused {s : State} {a : Arrival} {t i : Nat} {fs : FieldList} (h : s.WriteReaches a t i fs) {r : ResultCode}
    (hw : s.writeTable a.origin t i fs = .error r) : exec (.write a t i fs) s = .next (s.answered a r.code 0 []) :=
  exec_write h.asked h.plain (h.answer.trans (congrArg s.ofWrite hw))

/-- R174: a WRITE of a gated table passes the phase whatever its fields. -/
theorem phasePassesWrite_gated {s : State} {o t : Nat} (gated : gatedTable t = true) (fs : FieldList) :
    s.phasePassesWrite o t fs = s.phasePassesWrite o t [] ∧ s.phasePassesClear o t = s.phasePassesWrite o t [] := by
  simp only [State.phasePassesWrite, State.phasePassesClear, gated, Bool.true_or, and_self]

/-- R168, R170, R174: access and phase, of a gated table. -/
theorem mayChange_passes {s : State} {a : Arrival} {t i : Nat} (hi : i < tableSize t) (gated : gatedTable t = true) (h : s.MayChange a t i) :
    s.mayWrite a.origin t i = true ∧ (∀ fs, s.phasePassesWrite a.origin t fs = true) ∧ s.phasePassesClear a.origin t = true := by
  obtain ⟨may, phase⟩ := Bool.and_eq_true_iff.1 ((s.mayChange_iff a t i hi).2 h)
  exact ⟨may, fun fs => (phasePassesWrite_gated gated fs).1.trans phase, (phasePassesWrite_gated gated []).2.trans phase⟩

/-! ### What a change of the walking graph leaves (R52) -/

/-- R52: every destination of the state with other nodes or segments is one of the state's own. -/
theorem invalidates_of_dests {s t : State} (h : t.dests = s.dests) : s.InvalidatesAll t.invalidateAll := by
  have all := invalidateAll_invalidates t
  unfold State.InvalidatesAll at all ⊢
  rw [← h]
  exact all

theorem fetch_without {α : Type} (t : Tab α) (i j : Nat) :
    Tab.fetch (Tab.without t fun k => k == i) j = if j = i then none else Tab.fetch t j := by
  rw [Tab.without, Tab.fetch_filter_index t fun k => !(k == i)]
  by_cases h : j = i
  · simp [h]
  · simp [h]

/-- R37, R39: a present entry is one of those that a CLEAR hits. -/
theorem hits_of_present {α : Type} {t : Tab α} {i : Nat} (h : (Tab.fetch t i).isSome = true) :
    ¬(Tab.hits t fun k => k == i).isEmpty = true := by
  obtain ⟨x, hx⟩ := Option.isSome_iff_exists.1 h
  have member : (i, x) ∈ Tab.hits t fun k => k == i := List.mem_filter.2 ⟨Tab.mem_of_fetch hx, beq_self_eq_true i⟩
  rw [List.isEmpty_iff]
  intro none
  rw [none] at member
  cases member

/-! ### NODES (R37) -/

theorem plain_nil (t : Nat) : PlainFields t [] := ⟨List.nodup_nil, Nat.zero_le _, List.forall_mem_nil _⟩

theorem plain_deck (v : Nat) : PlainFields 3 [(1, .number v)] :=
  PlainFields.of_fields (es := [(1, (some v).map .number)]) (by decide : [1].Nodup) (by decide : 1 ≤ 22)
    (List.forall_mem_singleton.2 (plain_number rfl (some v)))

theorem bring_deck (v : Nat) : bring 3 1 v = min 15 v := Nat.zero_max _

/-- R37: a deck is clamped. -/
theorem deckAdjusted (v : Nat) : (if numbersAdjusted 3 [(1, .number v)] then 1 else 0) = if v ≤ 15 then 0 else 1 := by
  have adjusted : numbersAdjusted 3 [(1, .number v)] = true ↔ 15 < v := by
    rw [numbersAdjusted_iff]
    have range := bring_ne_iff (t := 3) (n := 1) rfl rfl (by decide) v
    constructor
    · rintro ⟨f, x, hm, hb⟩
      cases List.mem_singleton.1 hm
      exact (range.1 hb).resolve_left (Nat.not_lt_zero _)
    · exact fun h => ⟨1, v, List.mem_singleton.2 rfl, range.2 (Or.inr h)⟩
  by_cases h : v ≤ 15
  · rw [if_pos h, if_neg (mt adjusted.1 (by omega))]
  · rw [if_neg h, if_pos (adjusted.2 (by omega))]

/-- R37: the state with a node's deck set. -/
def State.withNode (s : State) (i deck : Nat) : State := ({ s with nodes := Tab.store s.nodes i deck } : State).invalidateAll

theorem withNode_leaves (s : State) (i deck : Nat) :
    (∀ j, Tab.fetch (s.withNode i deck).nodes j = if j = i then some deck else Tab.fetch s.nodes j) ∧
      s.InvalidatesAll (s.withNode i deck) ∧ { s.withNode i deck with nodes := s.nodes, dests := s.dests } = s :=
  ⟨fun _ => Tab.fetch_store _ _ _ _, invalidates_of_dests (t := { s with nodes := Tab.store s.nodes i deck }) rfl, rfl⟩

theorem writeTable_deck (s : State) (o i v : Nat) :
    s.writeTable o 3 i [(1, .number v)] = .ok (s.withNode i (min 15 v), numbersAdjusted 3 [(1, .number v)]) := by
  rw [← bring_deck]
  rfl

/-- R37: an absent node is created at deck 0. -/
theorem writeTable_newNode {s : State} {i : Nat} (absent : Tab.fetch s.nodes i = none) (o : Nat) :
    s.writeTable o 3 i [] = .ok (s.withNode i 0, false) := by
  have deck : Tab.fetchD s.nodes i 0 = 0 := by rw [Tab.fetchD, absent, Option.getD_none]
  have missing : s.entryExists 3 i = false := by rw [State.entryExists, absent, Option.isSome_none]
  have table : s.writeTable o 3 i [] = s.writeNodes i [] := if_neg (by rw [missing]; decide)
  rw [table, State.withNode, ← deck]
  rfl

/-- R165: an empty WRITE to a present node or segment. -/
theorem writeTable_still {s : State} {t i : Nat} (graph : t = 3 ∨ t = 4) (present : s.entryExists t i = true) (o : Nat) :
    s.writeTable o t i [] = .ok (s.invalidateAll, false) := by
  have table : s.writeTable o t i [] = s.writeEmpty t i := if_pos (by rw [present]; rfl)
  rw [table]
  rcases graph with rfl | rfl
  · rfl
  · rfl

theorem clearNodes_present {s : State} {i : Nat} (h : (Tab.fetch s.nodes i).isSome = true) :
    s.clearNodes (fun k => k == i) = ({ s with nodes := Tab.without s.nodes fun k => k == i } : State).invalidateAll :=
  if_neg (hits_of_present h)

theorem clearSegments_present {s : State} {i : Nat} (h : (Tab.fetch s.segments i).isSome = true) :
    s.clearSegments (fun k => k == i) = ({ s with segments := Tab.without s.segments fun k => k == i } : State).invalidateAll :=
  if_neg (hits_of_present h)

/-! ### SEGMENTS (R38, R39) -/

/-- R38: its fields, in the order of their numbers. -/
def SegmentWrite.fields (w : SegmentWrite) : List (Nat × Option FieldValue) :=
  [(1, w.a.map .number), (2, w.b.map .number), (3, w.kind.map .number), (4, w.length.map .number), (5, w.heading.map .number),
   (6, w.direction.map .number), (7, w.closure.map optValue), (8, w.musterOnly.map .flag), (9, w.enabled.map .flag)]

theorem SegmentWrite.pairs_eq (w : SegmentWrite) : w.pairs = pairsOf w.fields := by
  unfold SegmentWrite.pairs SegmentWrite.fields pairsOf
  simp only [List.flatMap_cons, List.flatMap_nil, List.append_assoc, List.append_nil]

theorem SegmentWrite.fields_nodup (w : SegmentWrite) : (w.fields.map (·.1)).Nodup := (by decide : [1, 2, 3, 4, 5, 6, 7, 8, 9].Nodup)

theorem SegmentWrite.plain (w : SegmentWrite) : PlainFields 4 w.pairs := by
  rw [w.pairs_eq]
  refine .of_fields w.fields_nodup (by decide : 9 ≤ 22) ?_
  unfold SegmentWrite.fields
  simp only [List.forall_mem_cons]
  exact ⟨plain_number rfl _, plain_number rfl _, plain_number rfl _, plain_number rfl _, plain_number rfl _, plain_number rfl _,
    plain_opt rfl _, plain_flag rfl _, plain_flag rfl _, List.forall_mem_nil _⟩

theorem SegmentWrite.supplied_eq (w : SegmentWrite) {fs : FieldList} (h : fs.Perm w.pairs) (k : Nat) {f : Nat} {v : Option FieldValue}
    (hf : w.fields[k]? = some (f, v)) : supplied fs f = v := by
  rw [supplied_perm h w.plain.nodup, w.pairs_eq]
  exact supplied_pairsOf w.fields_nodup (List.mem_of_getElem? hf)

/-- R165: a supplied number breaks a condition. -/
theorem numberBreaks_iff {fs : FieldList} {n : Nat} {v : Option Nat} (h : supplied fs n = v.map .number) (ok : Nat → Bool) :
    numberBreaks fs n ok = true ↔ ∃ x, v = some x ∧ ok x = false := by
  unfold numberBreaks
  rw [h]
  cases v with
  | none => simp
  | some x => simp

theorem supplies_number {fs : FieldList} {n : Nat} {v : Option Nat} (h : supplied fs n = v.map .number) :
    supplies fs n = true ↔ v ≠ none := by
  rw [supplies_eq, h, Option.isSome_map, Option.isSome_iff_ne_none]

/-- R39, step 1. -/
theorem SegmentWrite.valueRefused_iff (w : SegmentWrite) {fs : FieldList} (h : fs.Perm w.pairs) :
    (numberBreaks fs 3 (fun v => decide (v ≤ 3)) || numberBreaks fs 6 (fun v => decide (v ≤ 1)) || unknownField 4 fs) = true ↔
      w.ValueRefused := by
  rw [(w.plain.perm h).known, Bool.or_false, Bool.or_eq_true, numberBreaks_iff (w.supplied_eq h 2 rfl),
    numberBreaks_iff (w.supplied_eq h 5 rfl), SegmentWrite.ValueRefused]
  simp only [decide_eq_false_iff_not, Nat.not_le]

theorem nodePresent_false_iff (s : State) (v : Nat) : s.nodePresent v = false ↔ 255 < v ∨ Tab.fetch s.nodes v = none := by
  rw [State.nodePresent, Bool.and_eq_false_iff, decide_eq_false_iff_not, Nat.not_le, Option.isSome_eq_false_iff, Option.isNone_iff_eq_none]

/-- R39, step 2. -/
theorem SegmentWrite.endRefused_iff (w : SegmentWrite) (s : State) {fs : FieldList} (h : fs.Perm w.pairs) :
    (numberBreaks fs 1 s.nodePresent || numberBreaks fs 2 s.nodePresent) = true ↔ w.EndRefused s := by
  rw [Bool.or_eq_true, numberBreaks_iff (w.supplied_eq h 0 rfl), numberBreaks_iff (w.supplied_eq h 1 rfl), SegmentWrite.EndRefused]
  simp only [nodePresent_false_iff, or_and_right, exists_or]

theorem inverted_iff (s : State) (g : Segment) :
    s.inverted g = true ↔ ∃ da db, Tab.fetch s.nodes g.a = some da ∧ Tab.fetch s.nodes g.b = some db ∧ db < da := by
  unfold State.inverted
  cases Tab.fetch s.nodes g.a with
  | none => simp
  | some da =>
    cases Tab.fetch s.nodes g.b with
    | none => simp
    | some db => simp

/-- R39, step 3. -/
theorem SegmentWrite.stairRefused_iff (w : SegmentWrite) (s : State) (g : Segment) {fs : FieldList} (h : fs.Perm w.pairs) :
    ((supplies fs 1 || supplies fs 2 || supplies fs 3) && g.kind == .stair && s.inverted g) = true ↔
      (w.a ≠ none ∨ w.b ≠ none ∨ w.kind ≠ none) ∧ g.kind = .stair ∧
        ∃ da db, Tab.fetch s.nodes g.a = some da ∧ Tab.fetch s.nodes g.b = some db ∧ db < da := by
  rw [Bool.and_eq_true, Bool.and_eq_true, Bool.or_eq_true, Bool.or_eq_true, supplies_number (w.supplied_eq h 0 rfl),
    supplies_number (w.supplied_eq h 1 rfl), supplies_number (w.supplied_eq h 2 rfl), beq_iff_eq, inverted_iff, or_assoc, and_assoc]

theorem optValue_number {v : Option Nat} {x : Nat} : optValue v = .number x ↔ v = some x := by
  cases v with
  | none => simp [optValue]
  | some y => simp [optValue]

/-- R39, step 4. -/
theorem SegmentWrite.adjusted_iff (w : SegmentWrite) {fs : FieldList} (h : fs.Perm w.pairs) :
    numbersAdjusted 4 fs = true ↔ w.Adjusted := by
  rw [numbersAdjusted_perm h, numbersAdjusted_iff, w.pairs_eq]
  have free : ∀ n ∈ [1, 2, 3, 6], ∀ v, bring 4 n v = v := by
    intro n hn v
    simp only [List.mem_cons, List.not_mem_nil, or_false] at hn
    rcases hn with rfl | rfl | rfl | rfl
    all_goals rfl
  have length := bring_ne_iff (t := 4) (n := 4) rfl rfl (by decide)
  have heading := bring_ne_iff (t := 4) (n := 5) rfl rfl (by decide)
  have closure := bring_ne_iff (t := 4) (n := 7) rfl rfl (by decide)
  simp [mem_pairsOf, SegmentWrite.fields, SegmentWrite.Adjusted, or_and_right, exists_or, free, length, heading, closure,
    optValue_number]

/-- R38, R39: a segment that stands, or the defaults of one that a WRITE with its required fields creates. -/
def State.SegmentBefore (s : State) (w : SegmentWrite) (i : Nat) (g : Segment) : Prop :=
  Tab.fetch s.segments i = some g ∨
    (Tab.fetch s.segments i = none ∧ w.a ≠ none ∧ w.b ≠ none ∧ w.kind ≠ none ∧ w.length ≠ none ∧
      g = { g with heading := 0, oneWay := false, closure := none, musterOnly := false, enabled := true })

/-- R38: what a WRITE leaves of the defaults is decided by the fields it must supply. -/
theorem SegmentWrite.leaves_created {w : SegmentWrite} {g : Segment} (valid : ¬w.ValueRefused) (ha : w.a ≠ none) (hb : w.b ≠ none)
    (hk : w.kind ≠ none) (hl : w.length ≠ none)
    (hg : g = { g with heading := 0, oneWay := false, closure := none, musterOnly := false, enabled := true }) :
    w.leaves Segment.created = w.leaves g := by
  obtain ⟨a, ha⟩ := Option.ne_none_iff_exists'.1 ha
  obtain ⟨b, hb⟩ := Option.ne_none_iff_exists'.1 hb
  obtain ⟨k, hk⟩ := Option.ne_none_iff_exists'.1 hk
  obtain ⟨l, hl⟩ := Option.ne_none_iff_exists'.1 hl
  have inside : k ≤ 3 := Nat.le_of_not_lt fun h => valid (Or.inl ⟨k, hk, h⟩)
  obtain ⟨kind, code⟩ : ∃ x, SegmentKind.ofCode k = some x := by
    interval_cases k
    all_goals exact ⟨_, rfl⟩
  unfold SegmentWrite.leaves
  rw [hg, ha, hb, hk, hl, Option.bind_some, code]
  rfl

/-- R39: the segment that the checks of a WRITE read. -/
theorem State.SegmentBefore.written {s : State} {w : SegmentWrite} {i : Nat} {g : Segment} (h : s.SegmentBefore w i g)
    (valid : ¬w.ValueRefused) {fs : FieldList} (perm : fs.Perm w.pairs) :
    ((Tab.fetch s.segments i).getD Segment.created).written fs = w.leaves g := by
  rw [Segment.written_eq w _ perm]
  rcases h with here | ⟨absent, ha, hb, hk, hl, hg⟩
  · rw [here, Option.getD_some]
  · rw [absent, Option.getD_none]
    exact SegmentWrite.leaves_created valid ha hb hk hl hg

/-- R39: the checks of a WRITE in their order, and what it leaves. -/
theorem writeSegment_cases {s : State} {w : SegmentWrite} {i : Nat} {g : Segment} (before : s.SegmentBefore w i g) {fs : FieldList}
    (perm : fs.Perm w.pairs) :
    (w.ValueRefused → s.writeSegment i fs = .error .badField) ∧
      (¬w.ValueRefused → w.EndRefused s → s.writeSegment i fs = .error .badRef) ∧
      (¬w.ValueRefused → ¬w.EndRefused s → w.ShapeRefused s g → s.writeSegment i fs = .error .badField) ∧
      (¬w.ValueRefused → ¬w.EndRefused s → ¬w.ShapeRefused s g → s.writeSegment i fs =
        .ok (({ s with segments := Tab.store s.segments i (w.leaves g) } : State).invalidateAll, numbersAdjusted 4 fs)) := by
  have value := w.valueRefused_iff perm
  have ends := w.endRefused_iff s perm
  have stair := w.stairRefused_iff s (w.leaves g) perm
  unfold State.writeSegment
  refine ⟨fun h => if_pos (value.2 h), fun h1 h2 => ?_, fun h1 h2 h3 => ?_, fun h1 h2 h3 => ?_⟩
  · exact (if_neg (mt value.1 h1)).trans (if_pos (ends.2 h2))
  · rw [before.written h1 perm]
    refine (if_neg (mt value.1 h1)).trans ((if_neg (mt ends.1 h2)).trans ?_)
    rcases h3 with equal | down
    · exact if_pos equal
    · exact ite_eq_left_iff.2 fun _ => if_pos (stair.2 down)
  · rw [before.written h1 perm]
    obtain ⟨differ, up⟩ := not_or.1 h3
    exact (if_neg (mt value.1 h1)).trans ((if_neg (mt ends.1 h2)).trans ((if_neg differ).trans (if_neg (mt stair.1 up))))

/-- R38: a WRITE that creates a segment supplies its required fields. -/
theorem State.SegmentBefore.required {s : State} {w : SegmentWrite} {i : Nat} {g : Segment} (h : s.SegmentBefore w i g) {fs : FieldList}
    (perm : fs.Perm w.pairs) (missing : (alwaysRequires 4 || !s.entryExists 4 i) = true) :
    (requiredFields 4).all (supplies fs) = true := by
  rcases h with here | ⟨-, ha, hb, hk, hl, -⟩
  · rw [State.entryExists, here] at missing
    cases missing
  · have given : ∀ n ∈ [1, 2, 3, 4], supplies fs n = true := by
      intro n hn
      simp only [List.mem_cons, List.not_mem_nil, or_false] at hn
      rcases hn with rfl | rfl | rfl | rfl
      · exact (supplies_number (w.supplied_eq perm 0 rfl)).2 ha
      · exact (supplies_number (w.supplied_eq perm 1 rfl)).2 hb
      · exact (supplies_number (w.supplied_eq perm 2 rfl)).2 hk
      · exact (supplies_number (w.supplied_eq perm 3 rfl)).2 hl
    exact List.all_eq_true.2 given

theorem writeTable_segment {s : State} {o i : Nat} {fs : FieldList} (h : fs ≠ []) : s.writeTable o 4 i fs = s.writeSegment i fs := by
  cases fs with
  | nil => exact absurd rfl h
  | cons p fs => rfl

/-! ### The statement -/

theorem reaches_node {s : State} {a : Arrival} {i : Nat} (h : s.Asked a) (hi : i < 256) (change : s.MayChange a 3 i) {fs : FieldList}
    (plain : PlainFields 3 fs) : s.WriteReaches a 3 i fs := by
  obtain ⟨access, phase, -⟩ := mayChange_passes hi rfl change
  exact ⟨h, plain, rfl, by simp [indexOk, tableSize, Config.nodeCount, tblProgramme, hi], fun _ => rfl, access, phase fs⟩

theorem reaches_segment {s : State} {a : Arrival} {i : Nat} (h : s.Asked a) (hi : i < 1024) (change : s.MayChange a 4 i) {fs : FieldList}
    (plain : PlainFields 4 fs) (required : (alwaysRequires 4 || !s.entryExists 4 i) = true → (requiredFields 4).all (supplies fs) = true) :
    s.WriteReaches a 4 i fs := by
  obtain ⟨access, phase, -⟩ := mayChange_passes hi rfl change
  exact ⟨h, plain, rfl, by simp [indexOk, tableSize, Config.segmentCount, tblProgramme, hi], required, access, phase fs⟩

/-- R37, R52: WRITE and CLEAR of a node. -/
theorem walkingGraph_nodes {a : Arrival} {i : Nat} {s : State} (asked : s.Asked a) (hi : i < 256) (change : s.MayChange a 3 i) :
    (∀ v, exec (.write a 3 i [(1, .number v)]) s = .next ((s.withNode i (min 15 v)).answered a (if v ≤ 15 then 0 else 1) 0 [])) ∧
      (Tab.fetch s.nodes i = none → exec (.write a 3 i []) s = .next ((s.withNode i 0).answered a 0 0 [])) ∧
      ((Tab.fetch s.nodes i).isSome = true →
        exec (.write a 3 i []) s = .next (s.invalidateAll.answered a 0 0 []) ∧
          exec (.clear a 3 i) s =
            .next (({ s with nodes := Tab.without s.nodes fun k => k == i } : State).invalidateAll.answered a 0 2 [])) := by
  have empty := reaches_node asked hi change (plain_nil 3)
  refine ⟨fun v => ?_, fun absent => empty.taken (writeTable_newNode absent _), fun present =>
    ⟨empty.taken (writeTable_still (Or.inl rfl) present _), ?_⟩⟩
  · rw [← deckAdjusted]
    exact (reaches_node asked hi change (plain_deck v)).taken (writeTable_deck s _ i v)
  · exact clear_taken asked rfl empty.index empty.access (mayChange_passes hi rfl change).2.2 (congrArg Except.ok (clearNodes_present present))

/-- Settles O27, table by table. -/
theorem walkingGraph : Obligations.WalkingGraph := by
  intro a i s asked
  refine ⟨fun hi change => ?_, fun hi change => ⟨fun w fs g perm nonempty before => ?_, fun present => ?_⟩⟩
  · obtain ⟨deck, created, still⟩ := walkingGraph_nodes asked hi change
    refine ⟨fun v => ⟨_, deck v, withNode_leaves s i _⟩, fun absent => ⟨_, created absent, withNode_leaves s i 0⟩, fun present => ?_⟩
    obtain ⟨empty, cleared⟩ := still present
    exact ⟨⟨_, empty, invalidateAll_invalidates s, rfl⟩, _, cleared, fun j => fetch_without _ _ _,
      invalidates_of_dests (t := { s with nodes := Tab.without s.nodes fun k => k == i }) rfl, rfl⟩
  · have before : s.SegmentBefore w i g := before
    obtain ⟨value, ends, shape, taken⟩ := writeSegment_cases before perm
    have reaches := reaches_segment asked hi change (w.plain.perm perm) (before.required perm)
    have table := writeTable_segment (s := s) (o := a.origin) (i := i) nonempty
    refine ⟨fun h => reaches.refused (table.trans (value h)), fun h1 h2 => reaches.refused (table.trans (ends h1 h2)),
      fun h1 h2 h3 => reaches.refused (table.trans (shape h1 h2 h3)), fun h1 h2 h3 => ?_⟩
    exact ⟨_, _, reaches.taken (table.trans (taken h1 h2 h3)), code_le_one _, (code_one_iff _).trans (w.adjusted_iff perm),
      fun j => Tab.fetch_store _ _ _ _, invalidates_of_dests (t := { s with segments := Tab.store s.segments i (w.leaves g) }) rfl, rfl⟩
  · have empty := reaches_segment asked hi change (plain_nil 4) fun missing => by
      rw [State.entryExists, present] at missing
      cases missing
    refine ⟨⟨_, empty.taken (writeTable_still (Or.inr rfl) present _), invalidateAll_invalidates s, rfl⟩, _,
      clear_taken asked rfl empty.index empty.access (mayChange_passes hi rfl change).2.2 (congrArg Except.ok (clearSegments_present present)),
      fun j => fetch_without _ _ _, invalidates_of_dests (t := { s with segments := Tab.without s.segments fun k => k == i }) rfl, rfl⟩

end Sys2Proof.Machine
end

section
/-! SUPPORT. What a READ answers, table by table (R110, R166, R180). -/

namespace Sys2Proof.Machine

/-! ### A READ that access lets through (R166, R168) -/

/-- A READ addressed to this 820, of an index in its table's range, where access lets the entry be read. -/
structure State.Reading (s : State) (a : Arrival) (t i : Nat) : Prop where
  asked : s.Asked a
  table : t ≤ 15
  index : i < tableSize t
  access : s.ReadAccess a.origin t i

/-- R166: it is answered DONE with what the entry gives, and nothing else changes. -/
theorem State.Reading.answered {s : State} {a : Arrival} {t i : Nat} (h : s.Reading a t i) {e : Bool × FieldList}
    (he : s.readEntry t i = e) : exec (.read a t i) s = .next (s.answered a 0 1 (dataBytes e)) := by
  have table : tableOk t = true := decide_eq_true h.table
  have index : indexOk t i true = true := by rw [indexOk, Bool.or_true, Bool.and_true, decide_eq_true h.index]
  have access : s.mayRead a.origin t i = true := (s.mayRead_iff _ _ _).2 h.access
  have answer : s.answerRead a.origin t i = s.doneWith e := by
    simp only [State.answerRead, State.checked, firstRefusal, table, index, access, if_true, he]
  refine congrArg Host.Outcome.next ((requestArrives_asked h.asked (r := .read t i) (by decide : 4 ≤ 1024) rfl).trans ?_)
  rw [show s.respond a.origin (.read t i) = s.doneWith e from answer]
  rfl

/-- R166: an absent entry gives its presence and no pair. -/
theorem State.Reading.absent {s : State} {a : Arrival} {t i : Nat} (h : s.Reading a t i) {α : Type} {o : Option α} {f : α → FieldList}
    (he : s.readEntry t i = present o f) (none : o = none) : exec (.read a t i) s = .next (s.answered a 0 1 [1, 0]) := by
  subst none
  exact h.answered he

theorem State.Reading.present {s : State} {a : Arrival} {t i : Nat} (h : s.Reading a t i) {α : Type} {o : Option α} {f : α → FieldList}
    (he : s.readEntry t i = present o f) {x : α} (some : o = some x) :
    exec (.read a t i) s = .next (s.answered a 0 1 (dataBytes (true, f x))) := by
  subst some
  exact h.answered he

/-! ### The fixed templates (R110) -/

theorem fixedTable_lt {p : Nat × FixedTemplate} (h : p ∈ fixedTable) : p.1 < 16 := by
  have indices : ∀ n ∈ fixedTable.map (·.1), n < 16 := by decide
  exact indices _ (List.mem_map_of_mem h)

theorem template_fixed {s : State} {n : Nat} (h : n < 16) : s.template n = fixedTemplate n := if_pos h

/-- R105, R110: the templates of the store, the fixed ones by their table. -/
theorem template_spec (s : State) (n : Nat) :
    (∀ f, (n, f) ∈ fixedTable → ∃ t, s.template n = some t ∧ t.IsFixed f) ∧
      (n = 8 ∨ n = 9 → s.template n = s.template 6) ∧ (n = 11 → s.template n = s.template 7) ∧
      (16 ≤ n → s.template n = Tab.fetch s.templates n) := by
  refine ⟨fun f hf => ?_, ?_, ?_, fun h => if_neg (Nat.not_lt.2 h)⟩
  · rw [template_fixed (fixedTable_lt hf)]
    exact fixedTemplate_isFixed hf
  · rintro (rfl | rfl)
    · rfl
    · rfl
  · rintro rfl
    rfl

/-! ### The pairs of the tables whose entries are not spelled out -/

/-- R167: the six minimum refresh intervals stand between the retention and the quiet mask. -/
theorem NodeParams.pairs_eq (n : NodeParams) :
    n.pairs =
      ([(1, .number n.holdTime), (2, .number n.silenceTime), (3, .number n.quietStart), (4, .number n.quietEnd), (5, .number n.walkRate),
        (6, .number n.wCorridor), (7, .number n.wStairUp), (8, .number n.wStairDown), (9, .number n.wLift), (10, .number n.wOpenDeck),
        (11, .number n.retention)] : FieldList) ++
        ((List.range 6).map fun c => (12 + c, FieldValue.number (n.minRefresh.toList.getD c 0))) ++
        ([(18, .number n.quietMask.toNat), (19, optValue n.zoneGroup), (20, .number n.reportDest),
          (21, .number (if n.reportPort = .fore then 0 else 1)), (22, .number n.txHop)] : FieldList) := by
  have refresh : ∀ (c : Nat) (h : c < 6), n.minRefresh.toList.getD c 0 = n.minRefresh[c] := fun c h => by simp [h]
  have port : Port.code n.reportPort = if n.reportPort = .fore then 0 else 1 := by
    cases n.reportPort
    · rfl
    · rfl
  rw [NodeParams.pairs, port, show List.range 6 = [0, 1, 2, 3, 4, 5] from rfl]
  simp only [List.map_cons, List.map_nil, refresh, Nat.reduceLT]
  rfl

/-- R64, R71: the entry found by its id, and the id of the one that follows it. -/
theorem programme_split {l pre post : List ProgEntry} {e : ProgEntry} {i : Nat} (h : l = pre ++ e :: post) (he : e.id = i)
    (first : ∀ f ∈ pre, f.id ≠ i) : findEntry i l = some e ∧ nextId i l = post.head?.map (·.id) := by
  subst h
  induction pre with
  | nil => exact ⟨List.find?_cons_of_pos (beq_iff_eq.2 he), if_pos he⟩
  | cons f pre ih =>
    obtain ⟨hf, rest⟩ := List.forall_mem_cons.1 first
    obtain ⟨found, next⟩ := ih rest
    exact ⟨(List.find?_cons_of_neg (by simpa using hf)).trans found, (if_neg hf).trans next⟩

/-- R71: an absent programme id. -/
theorem readEntry_noProgramme {s : State} {i : Nat} (h : findEntry i s.programme = none) :
    s.readEntry 7 i = (false, s.absentProgramme i) := by
  unfold State.readEntry
  rw [h]
  rfl

theorem readEntry_programme {s : State} {i : Nat} {e : ProgEntry} (h : findEntry i s.programme = some e) :
    s.readEntry 7 i = (true, e.pairs (nextId i s.programme)) := by
  unfold State.readEntry
  rw [h]
  rfl

theorem ScreenMode.code_lt (m : ScreenMode) : m.code < 6 := by
  cases m
  all_goals decide

theorem ScreenMode.ofCode_code (m : ScreenMode) : ScreenMode.ofCode m.code = m := by
  cases m
  all_goals rfl

theorem DisplayClass.ofCode_code (c : DisplayClass) : DisplayClass.ofCode c.code = some c := by
  cases c
  all_goals rfl

theorem DisplayClass.code_lt (c : DisplayClass) : c.code < 6 := by
  cases c
  all_goals decide

/-- R111: the selection entry of a class and mode. -/
theorem selectionInUse_code (s : State) (c : DisplayClass) (m : ScreenMode) : s.selectionInUse (c.code * 6 + m.code) = s.templateInUse c m := by
  have := m.code_lt
  have cls : (c.code * 6 + m.code) / 6 = c.code := by omega
  have mode : (c.code * 6 + m.code) % 6 = m.code := by omega
  unfold State.selectionInUse
  rw [cls, mode, DisplayClass.ofCode_code, ScreenMode.ofCode_code]

/-- R43: the index of a destination and a node. -/
theorem routePairs_index (s : State) (d : Nat) {n : Nat} (h : n < 256) :
    (Tab.fetch s.dests d = none → s.routePairs (d * 256 + n) = [(32, .number 4)]) ∧
      ∀ e, Tab.fetch s.dests d = some e → s.routePairs (d * 256 + n) =
        (32, .number e.status.code) :: if e.status = .settled then (cellAt e.cells n).pairs else [] := by
  have dest : (d * 256 + n) / 256 = d := by omega
  have node : (d * 256 + n) % 256 = n := by omega
  unfold State.routePairs
  rw [dest, node]
  refine ⟨fun none => ?_, fun e some => ?_⟩
  · rw [none]
    rfl
  · rw [some]

/-- R43, R180: a SETTLED cell as R180 lays it out. -/
theorem Cell.pairs_eq (c : Cell) :
    c.pairs = [(33, optValue c.effort), (34, optValue (c.effort.map fun _ => c.length)),
      (35, optValue (c.hop.map fun h => h.segment * 2 + if h.back then 1 else 0))] := by
  unfold Cell.pairs
  cases c.effort with
  | none => rfl
  | some e => rfl

/-- Settles O35, table by table. -/
theorem readAnswers : Obligations.ReadAnswers := by
  refine ⟨template_spec, fun a i s asked => ⟨fun access => ?_, fun hi access => ?_, fun k access => ?_, fun hi access => ?_,
    fun hi access => ?_, fun hi access => ?_, fun hi access => ?_, fun hi access => ?_, fun hi access => ?_, fun hi access => ?_, fun hi access => ?_,
    fun hi access => ?_, fun c m hi access => ?_, fun j access => ?_, fun hi access => ?_, fun d n hd hn access => ?_⟩⟩
  · have reading : s.Reading a 0 0 := ⟨asked, by decide, by decide, access⟩
    exact reading.answered (congrArg (Prod.mk true) s.node.pairs_eq)
  · have reading : s.Reading a 1 i := ⟨asked, by decide, hi, access⟩
    exact ⟨reading.absent rfl, fun x => reading.present rfl⟩
  · have reading : s.Reading a 2 k.val := ⟨asked, by decide, k.isLt, access⟩
    exact reading.answered (congrArg (fun j => (true, (s.str j).pairs)) (stringNo_val k))
  · have reading : s.Reading a 3 i := ⟨asked, by decide, hi, access⟩
    cases deck : Tab.fetch s.nodes i with
    | none => exact reading.absent rfl deck
    | some deck' => exact reading.present rfl deck
  · have reading : s.Reading a 4 i := ⟨asked, by decide, hi, access⟩
    exact ⟨reading.absent rfl, fun g => reading.present rfl⟩
  · have reading : s.Reading a 5 i := ⟨asked, by decide, hi, access⟩
    exact ⟨reading.absent rfl, fun e => reading.present rfl⟩
  · have reading : s.Reading a 6 i := ⟨asked, by decide, hi, access⟩
    exact reading.answered rfl
  · have reading : s.Reading a 7 i := ⟨asked, by decide, hi, access⟩
    refine ⟨fun none => reading.answered (readEntry_noProgramme none), fun pre e post split he first => ?_⟩
    obtain ⟨found, next⟩ := programme_split split he first
    exact reading.answered ((readEntry_programme found).trans (by rw [next]; rfl))
  · have reading : s.Reading a 8 i := ⟨asked, by decide, hi, access⟩
    refine ⟨reading.absent rfl, fun c here => (reading.present rfl here).trans ?_⟩
    unfold Cabin.pairs State.linked
    cases s.display c.display with
    | none => rfl
    | some x => rfl
  · have reading : s.Reading a 9 i := ⟨asked, by decide, hi, access⟩
    exact ⟨reading.absent rfl, fun n => reading.present rfl⟩
  · have reading : s.Reading a 10 i := ⟨asked, by decide, hi, access⟩
    exact reading.answered rfl
  · have reading : s.Reading a 11 i := ⟨asked, by decide, hi, access⟩
    exact ⟨reading.absent rfl, fun m => reading.present rfl⟩
  · have size : i < 36 := by
      have := c.code_lt
      have := m.code_lt
      omega
    have reading : s.Reading a 12 i := ⟨asked, by decide, size, access⟩
    rw [← selectionInUse_code, ← hi]
    exact reading.answered rfl
  · have reading : s.Reading a 13 j.val := ⟨asked, by decide, j.isLt, access⟩
    exact reading.answered (congrArg (fun r => (true, r.pairs)) (region_val s j))
  · have reading : s.Reading a 14 i := ⟨asked, by decide, hi, access⟩
    exact reading.answered rfl
  · have reading : s.Reading a 15 (d * 256 + n) := ⟨asked, by decide, (by omega : d * 256 + n < 32 * 256), access⟩
    obtain ⟨absent, there⟩ := routePairs_index s d hn
    refine (reading.answered (e := (true, s.routePairs (d * 256 + n))) rfl).trans ?_
    cases hd : Tab.fetch s.dests d with
    | none => rw [absent hd]
    | some e =>
      rw [there e hd]
      by_cases settled : e.status = .settled
      · simp only [settled, if_true, Cell.pairs_eq]
        cases (cellAt e.cells n).effort with
        | none => rfl
        | some _ => rfl
      · simp only [settled, if_false]

end Sys2Proof.Machine
end

section
/-! SUPPORT. The operations of the programme table (R64, R67, R68, R70): what each holds and which entry stands under an id. -/

namespace Sys2Proof.Machine

/-- R64: the table order. -/
theorem ProgEntry.before_iff (e f : ProgEntry) : e.before f = true ↔ e.Earlier f := by
  rw [ProgEntry.before, Bool.or_eq_true, Bool.and_eq_true, decide_eq_true_iff, decide_eq_true_iff, decide_eq_true_iff]
  exact Iff.rfl

theorem insertEntry_perm (e : ProgEntry) (l : List ProgEntry) : (insertEntry e l).Perm (e :: l) := by
  induction l with
  | nil => exact List.Perm.refl _
  | cons f l ih =>
    unfold insertEntry
    split
    · exact List.Perm.refl _
    · exact (ih.cons f).trans (List.Perm.swap e f l)

theorem removeEntry_sublist (i : Nat) (l : List ProgEntry) : (removeEntry i l).Sublist l := List.filter_sublist

theorem mem_removeEntry {i : Nat} {l : List ProgEntry} {f : ProgEntry} : f ∈ removeEntry i l ↔ f ∈ l ∧ f.id ≠ i := by
  rw [removeEntry, List.mem_filter, bne_iff_ne]

theorem findEntry_cons (j : Nat) (e : ProgEntry) (l : List ProgEntry) :
    findEntry j (e :: l) = if j = e.id then some e else findEntry j l := by
  by_cases h : j = e.id
  · rw [if_pos h]
    exact List.find?_cons_of_pos (beq_iff_eq.2 h.symm)
  · rw [if_neg h]
    exact List.find?_cons_of_neg fun g => h (beq_iff_eq.1 g).symm

theorem mem_of_findEntry {i : Nat} {l : List ProgEntry} {e : ProgEntry} (h : findEntry i l = some e) : e ∈ l ∧ e.id = i :=
  ⟨List.mem_of_find?_eq_some h, beq_iff_eq.1 (List.find?_some (p := fun e : ProgEntry => e.id == i) h)⟩

theorem findEntry_none_iff {i : Nat} {l : List ProgEntry} : findEntry i l = none ↔ ∀ f ∈ l, f.id ≠ i :=
  List.find?_eq_none.trans (forall₂_congr fun _ _ => not_congr beq_iff_eq)

/-- R67: an insertion under a new id adds the entry and leaves every other. -/
theorem findEntry_insertEntry {e : ProgEntry} {l : List ProgEntry} (fresh : ∀ f ∈ l, f.id ≠ e.id) (j : Nat) :
    findEntry j (insertEntry e l) = if j = e.id then some e else findEntry j l := by
  induction l with
  | nil => exact findEntry_cons j e []
  | cons f l ih =>
    obtain ⟨hf, rest⟩ := List.forall_mem_cons.1 fresh
    unfold insertEntry
    split
    · exact findEntry_cons j e (f :: l)
    · rw [findEntry_cons, findEntry_cons, ih rest]
      by_cases hj : j = f.id
      · rw [if_pos hj, if_pos hj, if_neg (hj ▸ hf)]
      · rw [if_neg hj, if_neg hj]

/-- R70: a removal takes the entry of the id and leaves every other. -/
theorem findEntry_removeEntry (i j : Nat) (l : List ProgEntry) :
    findEntry j (removeEntry i l) = if j = i then none else findEntry j l := by
  split
  · rename_i hj
    exact findEntry_none_iff.2 fun f hf => hj ▸ (mem_removeEntry.1 hf).2
  · rename_i hj
    induction l with
    | nil => rfl
    | cons f l ih =>
      by_cases hf : f.id = i
      · rw [findEntry_cons, if_neg fun h => hj (h.trans hf), ← ih]
        exact congrArg (findEntry j) (List.filter_cons_of_neg (by simp [hf]))
      · rw [findEntry_cons, ← ih, ← findEntry_cons]
        exact congrArg (findEntry j) (List.filter_cons_of_pos (by simp [hf]))

/-- R68: an entry taken out and put back changed. -/
theorem findEntry_replaceEntry (e : ProgEntry) (l : List ProgEntry) (j : Nat) :
    findEntry j (replaceEntry e l) = if j = e.id then some e else findEntry j l := by
  rw [replaceEntry, findEntry_insertEntry fun f hf => (mem_removeEntry.1 hf).2, findEntry_removeEntry]
  split
  · rfl
  · rfl

end Sys2Proof.Machine
end

section
/-! SUPPORT. The WRITE of PROGRAMME (R65 to R69, R77): its field list, its checks and what it leaves. -/

namespace Sys2Proof.Machine

/-! ### The field list -/

/-- R65: its fields, in the order of their numbers. -/
def ProgrammeWrite.fields (w : ProgrammeWrite) : List (Nat × Option FieldValue) :=
  [(1, w.day.map .number), (2, w.start.map .number), (3, w.duration.map .number), (4, w.venue.map optValue), (5, w.category.map .number),
   (6, w.deck.map .number), (7, w.title.map .number), (8, w.status.map .number)]

theorem ProgrammeWrite.pairs_eq (w : ProgrammeWrite) : w.pairs = pairsOf w.fields := by
  unfold ProgrammeWrite.pairs ProgrammeWrite.fields pairsOf
  simp only [List.flatMap_cons, List.flatMap_nil, List.append_assoc, List.append_nil]

theorem ProgrammeWrite.fields_nodup (w : ProgrammeWrite) : (w.fields.map (·.1)).Nodup := (by decide : [1, 2, 3, 4, 5, 6, 7, 8].Nodup)

theorem ProgrammeWrite.plain (w : ProgrammeWrite) : PlainFields 7 w.pairs := by
  rw [w.pairs_eq]
  refine .of_fields w.fields_nodup (by decide : 8 ≤ 22) ?_
  unfold ProgrammeWrite.fields
  simp only [List.forall_mem_cons]
  exact ⟨plain_number rfl _, plain_number rfl _, plain_number rfl _, plain_opt rfl _, plain_number rfl _, plain_number rfl _,
    plain_number rfl _, plain_number rfl _, List.forall_mem_nil _⟩

theorem ProgrammeWrite.supplied_eq (w : ProgrammeWrite) {fs : FieldList} (h : fs.Perm w.pairs) (k : Nat) {f : Nat} {v : Option FieldValue}
    (hf : w.fields[k]? = some (f, v)) : supplied fs f = v := by
  rw [supplied_perm h w.plain.nodup, w.pairs_eq]
  exact supplied_pairsOf w.fields_nodup (List.mem_of_getElem? hf)

/-- R66, step 2. -/
theorem ProgrammeWrite.statusRefused_iff (w : ProgrammeWrite) {fs : FieldList} (h : fs.Perm w.pairs) :
    (unknownField 7 fs || numberBreaks fs 8 fun v => v == 0 || v == 3) = true ↔ w.StatusRefused := by
  rw [(w.plain.perm h).known, Bool.false_or, numberBreaks_iff (w.supplied_eq h 7 rfl), ProgrammeWrite.StatusRefused]
  simp only [Bool.or_eq_false_iff, beq_eq_false_iff_ne]

/-- R66, step 3. -/
theorem ProgrammeWrite.adjusted_iff (w : ProgrammeWrite) {fs : FieldList} (h : fs.Perm w.pairs) :
    numbersAdjusted 7 fs = true ↔ w.Adjusted := by
  rw [numbersAdjusted_perm h, numbersAdjusted_iff, w.pairs_eq]
  have day := bring_ne_iff (t := 7) (n := 1) rfl rfl (by decide)
  have start := bring_ne_iff (t := 7) (n := 2) rfl rfl (by decide)
  have duration := bring_ne_iff (t := 7) (n := 3) rfl rfl (by decide)
  have venue := bring_ne_iff (t := 7) (n := 4) rfl rfl (by decide)
  have category := bring_ne_iff (t := 7) (n := 5) rfl rfl (by decide)
  have deck := bring_ne_iff (t := 7) (n := 6) rfl rfl (by decide)
  have title := bring_ne_iff (t := 7) (n := 7) rfl rfl (by decide)
  have status : ∀ v, bring 7 8 v = v := fun _ => rfl
  simp [mem_pairsOf, ProgrammeWrite.fields, ProgrammeWrite.Adjusted, or_and_right, exists_or, or_assoc, optValue_number, day, start,
    duration, venue, category, deck, title, status]

/-- R68: the written status is refused with CLOSED. -/
theorem ProgrammeWrite.closed_iff (w : ProgrammeWrite) (e : ProgEntry) {fs : FieldList} (h : fs.Perm w.pairs) :
    statusClosed e fs = true ↔ w.Closed e := by
  have given := w.supplied_eq h 7 (f := 8) rfl
  have supplied : supplies fs 8 = w.status.isSome := by rw [supplies_eq, given, Option.isSome_map]
  unfold statusClosed ProgrammeWrite.Closed
  rw [supplied, numField_eq 7 fs 8 0 w.status given]
  cases w.status with
  | none => simp
  | some v =>
    have same : bring 7 8 v = v := rfl
    cases he : e.status
    all_goals simp [same]


/-! ### The checks and the outcome -/

/-- R65: the defaults at creation, the required fields at 0. -/
def ProgEntry.blank (id : Nat) : ProgEntry :=
  { id := id, day := 0, start := 0, duration := 60, venue := none, category := 0, deck := 0, title := 0, status := .scheduled }

theorem ProgEntry.created_eq_written (id : Nat) (fs : FieldList) : ProgEntry.created id fs = (ProgEntry.blank id).written fs := rfl

/-- R67: a WRITE that creates an entry leaves what its fields give and the defaults of R65, the required fields being supplied. -/
theorem ProgrammeWrite.created_eq (w : ProgrammeWrite) {id : Nat} {e : ProgEntry} {fs : FieldList} (h : fs.Perm w.pairs)
    (day : w.day ≠ none) (start : w.start ≠ none) (title : w.title ≠ none)
    (he : e = { e with id := id, duration := 60, venue := none, category := 0, deck := 0, status := .scheduled }) :
    ProgEntry.created id fs = w.leaves e := by
  obtain ⟨d, hd⟩ := Option.ne_none_iff_exists'.1 day
  obtain ⟨m, hm⟩ := Option.ne_none_iff_exists'.1 start
  obtain ⟨n, hn⟩ := Option.ne_none_iff_exists'.1 title
  rw [ProgEntry.created_eq_written, ProgEntry.written_eq w _ h, he]
  unfold ProgrammeWrite.leaves
  rw [hd, hm, hn]
  rfl

/-- R77: a WRITE of an entry that leaves it changed marks the boards in whose window it was or is. -/
theorem markEntryChange_round {s : State} (rising : Tab.Rising s.displays) (l : List ProgEntry) (before : Option ProgEntry) (f : ProgEntry)
    (c : Bool) :
    s.Marks (({ s with programme := l } : State).markEntryChange before (some f) c) fun _ x u =>
      x.cfg.cls.isBoard = true ∧ (∃ g, (g = f ∨ before = some g) ∧ inWindow x.cfg s.nowMinute g = true) ∧ u = s.programmeUrgency c := by
  have round := (markWhere_round { s with programme := l } rising
    (fun _ x => x.cfg.cls.isBoard &&
      (before.any (inWindow x.cfg s.nowMinute) || (some f).any (inWindow x.cfg s.nowMinute))) (s.programmeUrgency c)).congr
    (s' := s) (t' := ({ s with programme := l } : State).markEntryChange before (some f) c) rfl rfl rfl rfl fun _ => rfl
  refine round.congr_marks fun d x _ u => ?_
  rw [Bool.and_eq_true, Bool.or_eq_true, and_assoc]
  refine and_congr_right fun _ => and_congr_left fun _ => ?_
  rw [Option.any_eq_true, Option.any_some]
  constructor
  · rintro (⟨g, hg, hw⟩ | hw)
    · exact ⟨g, Or.inr hg, hw⟩
    · exact ⟨f, Or.inl rfl, hw⟩
  · rintro ⟨g, rfl | hg, hw⟩
    · exact Or.inr hw
    · exact Or.inl ⟨g, hg, hw⟩

/-- R77: the urgency of those marks. -/
theorem programmeUrgency_change (s : State) (e f : ProgEntry) :
    s.programmeUrgency (isCancellation e f) = programmeUrgencyAt s.ship.phase (some e) f := by
  unfold State.programmeUrgency programmeUrgencyAt isCancellation
  cases s.ship.phase
  all_goals simp [Phase.emergency]

theorem programmeUrgency_creation (s : State) (f : ProgEntry) : s.programmeUrgency false = programmeUrgencyAt s.ship.phase none f := by
  unfold State.programmeUrgency programmeUrgencyAt
  cases s.ship.phase
  all_goals simp [Phase.emergency]

/-- R67 to R69, R77: the state `t` is what a taken WRITE leaves of `s`, with the entry `f` under the id. -/
structure State.EntryTaken (s t : State) (id : Nat) (f : ProgEntry) : Prop where
  table : ∀ j, findEntry j t.programme = if j = id then some f else findEntry j s.programme
  still : findEntry id s.programme = some f → t.displays = s.displays ∧ t.strings = s.strings
  marks : s.TablesOk → s.Marks t fun _ x u => findEntry id s.programme ≠ some f ∧ x.cfg.cls.isBoard = true ∧
    (∃ g, (g = f ∨ findEntry id s.programme = some g) ∧ inWindow x.cfg s.nowMinute g = true) ∧
    u = programmeUrgencyAt s.ship.phase (findEntry id s.programme) f
  rest : { t with programme := s.programme, displays := s.displays, strings := s.strings } = s

/-- R67, R68, R77: the entry put into the table, with the marks of its change. -/
theorem entryTaken_marked {s : State} {id : Nat} {f : ProgEntry} {l : List ProgEntry} {c : Bool}
    (table : ∀ j, findEntry j l = if j = id then some f else findEntry j s.programme) (changed : findEntry id s.programme ≠ some f)
    (urgency : s.programmeUrgency c = programmeUrgencyAt s.ship.phase (findEntry id s.programme) f) :
    s.EntryTaken (({ s with programme := l } : State).markEntryChange (findEntry id s.programme) (some f) c) id f := by
  have screens : ({ s with programme := l } : State).ScreensOnly
    (({ s with programme := l } : State).markEntryChange (findEntry id s.programme) (some f) c) := markWhere_screens _ _ _
  refine ⟨fun j => ?_, fun same => absurd same changed, fun tables => ?_, ?_⟩
  · rw [screens.programme_eq]
    exact table j
  · refine (markEntryChange_round tables.displays.1 l _ f c).congr_marks fun d x _ u => ?_
    rw [urgency]
    exact ⟨fun h => ⟨changed, h⟩, fun h => h.2⟩
  · rw [screens]

theorem createEntry_taken {s : State} {id : Nat} {fs : FieldList} (absent : findEntry id s.programme = none) :
    s.EntryTaken (s.createEntry id fs) id ((ProgEntry.created id fs).clocked s.nowMinute) := by
  rw [State.createEntry, byClockNow_eq]
  have inserted : ∀ j, findEntry j (insertEntry ((ProgEntry.created id fs).clocked s.nowMinute) s.programme) =
      if j = id then some ((ProgEntry.created id fs).clocked s.nowMinute) else findEntry j s.programme :=
    findEntry_insertEntry (findEntry_none_iff.1 absent)
  have marked := entryTaken_marked (c := false) inserted (by rw [absent]; nofun) (by rw [absent]; exact programmeUrgency_creation _ _)
  rw [absent] at marked
  exact marked

theorem updateEntry_taken {s : State} {id : Nat} {e : ProgEntry} {fs : FieldList} (here : findEntry id s.programme = some e) :
    s.EntryTaken (s.updateEntry e fs) id ((e.written fs).clocked s.nowMinute) := by
  have own : ((e.written fs).clocked s.nowMinute).id = id := (mem_of_findEntry here).2
  rw [State.updateEntry, byClockNow_eq]
  by_cases same : (e.written fs).clocked s.nowMinute = e
  · rw [if_pos same, same]
    refine ⟨fun j => ?_, fun _ => ⟨rfl, rfl⟩, fun _ => .none fun d x u _ h => h.1 here, rfl⟩
    split
    · rename_i hj
      rw [hj, here]
    · rfl
  · rw [if_neg same]
    have replaced := findEntry_replaceEntry ((e.written fs).clocked s.nowMinute) s.programme
    rw [own] at replaced
    have marked := entryTaken_marked (c := isCancellation e ((e.written fs).clocked s.nowMinute)) replaced
      (by rw [here]; exact fun h => same (Option.some.inj h).symm)
      (by rw [here]; exact programmeUrgency_change _ _ _)
    rw [here] at marked
    exact marked

/-- R65, R67: an entry that stands, or the defaults of one that a WRITE with its required fields creates. -/
def State.EntryBefore (s : State) (w : ProgrammeWrite) (id : Nat) (e : ProgEntry) : Prop :=
  findEntry id s.programme = some e ∨
    (findEntry id s.programme = none ∧ w.day ≠ none ∧ w.start ≠ none ∧ w.title ≠ none ∧
      e = { e with id := id, duration := 60, venue := none, category := 0, deck := 0, status := .scheduled })

/-- R67: a WRITE that creates an entry supplies its required fields. -/
theorem State.EntryBefore.required {s : State} {w : ProgrammeWrite} {id : Nat} {e : ProgEntry} (h : s.EntryBefore w id e) {fs : FieldList}
    (perm : fs.Perm w.pairs) (missing : (alwaysRequires 7 || !s.entryExists 7 id) = true) :
    (requiredFields 7).all (supplies fs) = true := by
  rcases h with here | ⟨-, day, start, title, -⟩
  · rw [State.entryExists, here] at missing
    cases missing
  · have given : ∀ n ∈ [1, 2, 7], supplies fs n = true := by
      intro n hn
      simp only [List.mem_cons, List.not_mem_nil, or_false] at hn
      rcases hn with rfl | rfl | rfl
      · exact (supplies_number (w.supplied_eq perm 0 rfl)).2 day
      · exact (supplies_number (w.supplied_eq perm 1 rfl)).2 start
      · exact (supplies_number (w.supplied_eq perm 6 rfl)).2 title
    exact List.all_eq_true.2 given

/-- R66: the checks of a WRITE in their order, and what it leaves. -/
theorem writeProgramme_cases {s : State} {w : ProgrammeWrite} {id : Nat} {e : ProgEntry} (before : s.EntryBefore w id e) {fs : FieldList}
    (perm : fs.Perm w.pairs) :
    (w.StatusRefused → s.writeProgramme id fs = .error .badField) ∧
      (¬w.StatusRefused → findEntry id s.programme = none → 256 ≤ s.programme.length → s.writeProgramme id fs = .error .full) ∧
      (¬w.StatusRefused → findEntry id s.programme = some e → w.Closed e → s.writeProgramme id fs = .error .closed) ∧
      (¬w.StatusRefused → (findEntry id s.programme = none → s.programme.length < 256) →
        (findEntry id s.programme = some e → ¬w.Closed e) →
        ∃ t, s.writeProgramme id fs = .ok (t, numbersAdjusted 7 fs) ∧ s.EntryTaken t id ((w.leaves e).clocked s.nowMinute)) := by
  have refused := w.statusRefused_iff perm
  have closed := w.closed_iff e perm
  unfold State.writeProgramme
  refine ⟨fun h => if_pos (refused.2 h), fun h absent full => ?_, fun h here shut => ?_, fun h room opened => ?_⟩
  · rw [if_neg (mt refused.1 h), absent]
    exact if_pos full
  · rw [if_neg (mt refused.1 h), here]
    exact if_pos (closed.2 shut)
  · rw [if_neg (mt refused.1 h)]
    rcases before with here | ⟨absent, day, start, title, he⟩
    · rw [here, ← ProgEntry.written_eq w e perm]
      exact ⟨_, if_neg (mt closed.1 (opened here)), updateEntry_taken here⟩
    · rw [absent, ← w.created_eq perm day start title he]
      exact ⟨_, if_neg (Nat.not_le.2 (room absent)), createEntry_taken absent⟩

/-! ### The statement -/

theorem writeTable_programme {s : State} {o i : Nat} {fs : FieldList} (h : fs ≠ []) :
    s.writeTable o 7 i fs = s.writeProgramme i fs := by
  cases fs with
  | nil => exact absurd rfl h
  | cons p fs => rfl

theorem indexOk_programme {id : Nat} : indexOk 7 id false = true ↔ 1 ≤ id ∧ id < 65536 := by
  simp [indexOk, tableSize, tblProgramme, Nat.one_le_iff_ne_zero, and_comm]

/-- Settles O29: each refusal and the taken WRITE, by the checks of R66 in their order. -/
theorem writeProgramme : Obligations.WriteProgramme := by
  intro a id w fs e s asked low high access perm nonempty before
  have before : s.EntryBefore w id e := before
  have reaches : s.WriteReaches a 7 id fs :=
    ⟨asked, w.plain.perm perm, rfl, indexOk_programme.2 ⟨low, high⟩, before.required perm, (s.mayWrite_iff _ 7 id high).2 access,
      (phasePasses_ungated (t := 7) rfl rfl s a.origin fs).1⟩
  have table := writeTable_programme (s := s) (o := a.origin) (i := id) nonempty
  obtain ⟨badField, full, closed, taken⟩ := writeProgramme_cases before perm
  refine ⟨fun h => reaches.refused (table.trans (badField h)), fun h1 h2 h3 => reaches.refused (table.trans (full h1 h2 h3)),
    fun h1 h2 h3 => reaches.refused (table.trans (closed h1 h2 h3)), fun h1 h2 h3 => ?_⟩
  obtain ⟨t, ok, left⟩ := taken h1 h2 h3
  exact ⟨_, t, _, reaches.taken (table.trans ok), code_le_one _, (code_one_iff _).trans (w.adjusted_iff perm), rfl, left.table, left.still,
    left.marks, left.rest⟩

end Sys2Proof.Machine
end

section
/-! SUPPORT. What one command can make of the programme table (R67, R68, R70, R72, R74), and what each of these keeps (R64). -/

namespace Sys2Proof.Machine

/-! ### The table in order (R64) -/

/-- R64: the programme table in increasing order with no id twice, every id 1..65535, at most 256 entries. -/
structure ProgrammeOrdered (l : List ProgEntry) : Prop where
  order : l.Pairwise ProgEntry.Earlier
  unique : (l.map (·.id)).Nodup
  ids : ∀ e ∈ l, 1 ≤ e.id ∧ e.id ≤ 65535
  length : l.length ≤ 256

theorem programmeOk_iff (s : State) : s.ProgrammeOk ↔ ProgrammeOrdered s.programme :=
  ⟨fun ⟨order, unique, ids, length⟩ => ⟨order, unique, ids, length⟩, fun h => ⟨h.order, h.unique, h.ids, h.length⟩⟩

theorem ProgrammeOrdered.sublist {l m : List ProgEntry} (ok : ProgrammeOrdered l) (h : m.Sublist l) : ProgrammeOrdered m :=
  ⟨ok.order.sublist h, ok.unique.sublist (h.map _), fun e he => ok.ids e (h.subset he), h.length_le.trans ok.length⟩

/-- R64: no two entries have one id. -/
theorem ProgrammeOrdered.eq_of_id {l : List ProgEntry} (ok : ProgrammeOrdered l) {e f : ProgEntry} (he : e ∈ l) (hf : f ∈ l)
    (h : f.id = e.id) : f = e := List.inj_on_of_nodup_map ok.unique hf he h

theorem ProgEntry.Earlier.trans {e f g : ProgEntry} (h : e.Earlier f) (k : f.Earlier g) : e.Earlier g := by
  rcases h with h | ⟨h, hi⟩
  · rcases k with k | ⟨k, -⟩
    · exact Or.inl (h.trans k)
    · exact Or.inl (h.trans_eq k)
  · rcases k with k | ⟨k, ki⟩
    · exact Or.inl (h.trans_lt k)
    · exact Or.inr ⟨h.trans k, hi.trans ki⟩

/-- R64: entries of different ids stand one before the other. -/
theorem ProgEntry.earlier_of_not_before {e f : ProgEntry} (h : ¬e.before f = true) (ids : f.id ≠ e.id) : f.Earlier e := by
  rw [e.before_iff] at h
  unfold ProgEntry.Earlier at h ⊢
  omega

/-- R67: an insertion under a new id keeps the order. -/
theorem insertEntry_pairwise {e : ProgEntry} {l : List ProgEntry} (order : l.Pairwise ProgEntry.Earlier) (fresh : ∀ f ∈ l, f.id ≠ e.id) :
    (insertEntry e l).Pairwise ProgEntry.Earlier := by
  induction l with
  | nil => exact List.pairwise_singleton _ _
  | cons f l ih =>
    obtain ⟨first, order⟩ := List.pairwise_cons.1 order
    obtain ⟨hf, rest⟩ := List.forall_mem_cons.1 fresh
    unfold insertEntry
    split
    · rename_i before
      have earlier := (e.before_iff f).1 before
      exact List.pairwise_cons.2 ⟨List.forall_mem_cons.2 ⟨earlier, fun g hg => earlier.trans (first g hg)⟩,
        List.pairwise_cons.2 ⟨first, order⟩⟩
    · rename_i before
      refine List.pairwise_cons.2 ⟨fun g hg => ?_, ih order rest⟩
      rcases List.mem_cons.1 ((insertEntry_perm e l).mem_iff.1 hg) with rfl | hg
      · exact ProgEntry.earlier_of_not_before before hf
      · exact first g hg

theorem ProgrammeOrdered.insert {e : ProgEntry} {l : List ProgEntry} (ok : ProgrammeOrdered l) (fresh : ∀ f ∈ l, f.id ≠ e.id)
    (id : 1 ≤ e.id ∧ e.id ≤ 65535) (room : l.length < 256) : ProgrammeOrdered (insertEntry e l) := by
  have perm := insertEntry_perm e l
  refine ⟨insertEntry_pairwise ok.order fresh, ?_, fun f hf => ?_, perm.length_eq.trans_le room⟩
  · rw [(perm.map _).nodup_iff, List.map_cons, List.nodup_cons]
    exact ⟨fun h => (List.mem_map.1 h).elim fun f hf => fresh f hf.1 hf.2, ok.unique⟩
  · rcases List.mem_cons.1 (perm.mem_iff.1 hf) with rfl | hf
    · exact id
    · exact ok.ids f hf

theorem ProgrammeOrdered.replace {e f : ProgEntry} {l : List ProgEntry} (ok : ProgrammeOrdered l) (here : findEntry f.id l = some e) :
    ProgrammeOrdered (replaceEntry f l) := by
  obtain ⟨member, own⟩ := mem_of_findEntry here
  have shorter : (removeEntry f.id l).length < l.length :=
    List.length_filter_lt_length_iff_exists.2 ⟨e, member, by simp [own]⟩
  exact (ok.sublist (removeEntry_sublist _ _)).insert (fun g hg => (mem_removeEntry.1 hg).2) (own ▸ ok.ids e member)
    (shorter.trans_le ok.length)

/-- R72, R74: an evaluation moves no entry and takes some away. -/
theorem ProgrammeOrdered.evaluate {l : List ProgEntry} (ok : ProgrammeOrdered l) (retention now : Nat) :
    ProgrammeOrdered (evaluateProgramme l retention now) := by
  have moved : ProgrammeOrdered (l.map (·.movedAt now)) :=
    ⟨List.pairwise_map.2 ok.order, by rw [List.map_map]; exact ok.unique, List.forall_mem_map.2 ok.ids,
      (List.length_map _).trans_le ok.length⟩
  rw [evaluateProgramme_eq]
  exact moved.sublist List.filter_sublist

/-! ### The turns of the table -/

/-- R68, R72: an entry that is ENDED or CANCELLED. -/
abbrev EntryStatus.Closed (st : EntryStatus) : Prop := st = .ended ∨ st = .cancelled

/-- R67, R68, R70, R72, R74: what one command can make of the programme table. -/
inductive ProgrammeTurn (l : List ProgEntry) : List ProgEntry → Prop
  /-- R70: entries are removed, or none is. -/
  | removed {m : List ProgEntry} (h : m.Sublist l) : ProgrammeTurn l m
  /-- R72, R74: the clock moves statuses and prunes. -/
  | evaluated (retention now : Nat) : ProgrammeTurn l (evaluateProgramme l retention now)
  /-- R67: a WRITE creates an entry. -/
  | created {e : ProgEntry} (id : 1 ≤ e.id ∧ e.id ≤ 65535) (absent : findEntry e.id l = none) (room : l.length < 256) :
    ProgrammeTurn l (insertEntry e l)
  /-- R68: a WRITE updates an entry, whose status it leaves where that is ENDED or CANCELLED. -/
  | updated {e f : ProgEntry} (here : findEntry f.id l = some e) (closed : e.status.Closed → f.status = e.status) :
    ProgrammeTurn l (replaceEntry f l)

theorem ProgrammeTurn.refl (l : List ProgEntry) : ProgrammeTurn l l := .removed (List.Sublist.refl l)

/-- R64: every turn keeps the order, the ids and the bound. -/
theorem ProgrammeTurn.ordered {l m : List ProgEntry} (h : ProgrammeTurn l m) (ok : ProgrammeOrdered l) : ProgrammeOrdered m := by
  cases h with
  | removed h => exact ok.sublist h
  | evaluated retention now => exact ok.evaluate retention now
  | created id absent room => exact ok.insert (findEntry_none_iff.1 absent) id room
  | updated here closed => exact ok.replace here

theorem statusAt_closed {st : EntryStatus} (h : st.Closed) (now : Option Nat) (start duration : Nat) :
    statusAt now start duration st = st := by
  rcases h with rfl | rfl
  all_goals
    cases now
    all_goals rfl

/-- R64: no turn takes an entry out of ENDED or CANCELLED. -/
theorem ProgrammeTurn.closed {l m : List ProgEntry} (h : ProgrammeTurn l m) (ok : ProgrammeOrdered l) {e f : ProgEntry} (he : e ∈ l)
    (closed : e.status.Closed) (hf : f ∈ m) (ids : f.id = e.id) : f.status = e.status := by
  have kept : f ∈ l → f.status = e.status := fun hl => congrArg ProgEntry.status (ok.eq_of_id he hl ids)
  cases h with
  | removed h => exact kept (h.subset hf)
  | evaluated retention now =>
    rw [evaluateProgramme_eq] at hf
    obtain ⟨g, hg, rfl⟩ := List.mem_map.1 (List.mem_filter.1 hf).1
    cases ok.eq_of_id he hg ids
    exact statusAt_closed closed _ _ _
  | created id absent room =>
    rcases List.mem_cons.1 ((insertEntry_perm _ _).mem_iff.1 hf) with rfl | hl
    · exact absurd ids.symm (findEntry_none_iff.1 absent e he)
    · exact kept hl
  | updated here stays =>
    rcases List.mem_cons.1 ((insertEntry_perm _ _).mem_iff.1 hf) with rfl | hl
    · obtain ⟨member, own⟩ := mem_of_findEntry here
      cases ok.eq_of_id he member (own.trans ids)
      exact stays closed
    · exact kept (mem_removeEntry.1 hl).1

/-! ### The operations of the Programme Unit -/

/-- From one state to another the programme table has taken one turn. -/
abbrev State.Turns (s t : State) : Prop := ProgrammeTurn s.programme t.programme

theorem turns_of_eq {s t : State} {l : List ProgEntry} (h : t.programme = l) (turn : ProgrammeTurn s.programme l) : s.Turns t := by
  subst h
  exact turn

theorem turns_of_same {s t : State} (h : t.programme = s.programme) : s.Turns t := turns_of_eq h (.refl _)

/-- R68: a WRITE that is not refused with CLOSED leaves an ENDED or CANCELLED status. -/
theorem written_closed {e : ProgEntry} {fs : FieldList} (h : ¬statusClosed e fs = true) (closed : e.status.Closed) :
    (e.written fs).status = e.status := by
  show (if numField 7 fs 8 0 = 3 then EntryStatus.cancelled else e.status) = e.status
  rcases closed with ended | cancelled
  · have unsupplied : supplied fs 8 = none := by
      simpa [statusClosed, ended, supplies_eq] using h
    rw [numField, unsupplied]
    rfl
  · rw [cancelled, ite_self]

/-- R69: the clock leaves an ENDED or CANCELLED status. -/
theorem byClockNow_closed (s : State) {e : ProgEntry} (closed : e.status.Closed) : (s.byClockNow e).status = e.status := by
  rw [byClockNow_eq]
  exact statusAt_closed closed _ _ _

theorem byClockNow_id (s : State) (e : ProgEntry) : (s.byClockNow e).id = e.id := by
  rw [byClockNow_eq]
  rfl

/-- R67: a WRITE that creates an entry. -/
theorem createEntry_turns {s : State} {id : Nat} (range : 1 ≤ id ∧ id ≤ 65535) (absent : findEntry id s.programme = none)
    (room : s.programme.length < 256) (fs : FieldList) : s.Turns (s.createEntry id fs) := by
  have own : (s.byClockNow (ProgEntry.created id fs)).id = id := byClockNow_id s _
  have inserted : (s.createEntry id fs).programme = insertEntry (s.byClockNow (ProgEntry.created id fs)) s.programme :=
    markWhere_programme _ _ _
  exact turns_of_eq inserted (.created (by rw [own]; exact range) (by rw [own]; exact absent) room)

/-- R68, R69: a WRITE that updates an entry. -/
theorem updateEntry_turns {s : State} {e : ProgEntry} {fs : FieldList} (here : findEntry e.id s.programme = some e)
    (opened : ¬statusClosed e fs = true) : s.Turns (s.updateEntry e fs) := by
  unfold State.updateEntry
  dsimp only
  split
  · exact turns_of_same rfl
  · have replaced : ∀ f b c, (({ s with programme := replaceEntry f s.programme } : State).markEntryChange (some e) b c).programme =
        replaceEntry f s.programme := fun f b c => markWhere_programme _ _ _
    refine turns_of_eq (replaced _ _ _) (.updated (e := e) (by rw [byClockNow_id]; exact here) fun closed => ?_)
    have stays := written_closed opened closed
    exact (byClockNow_closed s (stays ▸ closed)).trans stays

/-- R70: a CLEAR of an entry. -/
theorem clearProgramme_sublist (s : State) (id : Nat) : (s.clearProgramme id).programme.Sublist s.programme := by
  unfold State.clearProgramme
  split
  · exact List.Sublist.refl _
  · have removed : ∀ b c d, (({ s with programme := removeEntry id s.programme } : State).markEntryChange b c d).programme =
        removeEntry id s.programme := fun b c d => markWhere_programme _ _ _
    rw [removed]
    exact removeEntry_sublist _ _

theorem clearProgrammes_sublist (ids : List Nat) (s : State) : (ids.foldl State.clearProgramme s).programme.Sublist s.programme := by
  induction ids generalizing s with
  | nil => exact List.Sublist.refl _
  | cons id ids ih => exact (ih _).trans (clearProgramme_sublist s id)

/-- R72, R74: the clock's notification evaluates the table. -/
theorem clockNotify_turns (s : State) (boundary first : Bool) : s.Turns (s.clockNotify boundary first) := by
  obtain ⟨-, -, -, frame⟩ := clockNotify_spec s boundary first
  have evaluated : (s.clockNotify boundary first).programme = evaluateProgramme s.programme s.node.retention s.ship.absMinute :=
    (congrArg State.programme frame).trans (evaluateProgramme_eq _ _ _).symm
  exact turns_of_eq evaluated (.evaluated _ _)

theorem advanceSecond_turns (s : State) : s.Turns s.advanceSecond := by
  unfold State.advanceSecond
  dsimp only
  split
  · exact turns_of_same rfl
  · exact clockNotify_turns (s.onShip Ship.tick) true false

theorem setClock_turns (s : State) (day minute second : Nat) : s.Turns (s.setClock day minute second) := by
  unfold State.setClock
  split
  · exact turns_of_same rfl
  · exact clockNotify_turns (s.onShip _) _ _

/-- R1, R15, R155: a bulletin. -/
theorem takeBulletin_turns (s : State) (seq : Nat) (b : Bulletin) : s.Turns (s.takeBulletin seq b) := by
  have alive : ∀ t : State, t.bridgeAlive.programme = t.programme := fun t => bridgeAlive_only t .programme (by decide)
  have applied : ∀ t : State, t.Turns (t.applyBulletin b) := by
    intro t
    cases b with
    | time day minute second => exact setClock_turns t day minute second
    | phase p drill =>
      unfold State.applyBulletin
      dsimp only
      split
      · exact turns_of_same (takePhase_only t _ _ .programme (by decide))
      · exact turns_of_same rfl
    | closures first states => exact turns_of_same (takeClosures_only t _ _ .programme (by decide))
    | light level => exact turns_of_same (takeLight_only t _ .programme (by decide))
    | cabinMark cabins => exact turns_of_same (cabinMark_only t _ .programme (by decide))
    | assistClear cabins => exact turns_of_same (assistClear_only t _ .programme (by decide))
    | other => exact turns_of_same rfl
  unfold State.takeBulletin
  split
  · exact turns_of_eq (alive _) (applied { s with watermark := some seq })
  · exact turns_of_same (alive s)

end Sys2Proof.Machine
end

section
/-! SUPPORT. The turn of the programme table that each command takes (R64), and the statement. -/

namespace Sys2Proof.Machine

/-! ### The operations that leave the table -/

@[simp] theorem placement_programme (s : State) (d : Nat) (away : Bool) : (s.placement d away).programme = s.programme :=
  placement_only s d away .programme (by decide)

@[simp] theorem recount_programme (s : State) (d : Nat) : (s.recount d).programme = s.programme :=
  recount_only s d .programme (by decide)

@[simp] theorem recountStation_programme (s : State) (d : Option Nat) : (s.recountStation d).programme = s.programme :=
  recountStation_only s d .programme (by decide)

@[simp] theorem requeue_programme (s : State) (d : Nat) (x : Display) (b : DisplayConfig) (r : DisplayRuntime) :
    (s.requeue d x b r).programme = s.programme := (requeue_screens s d x b r).programme_eq

@[simp] theorem setNode_programme (s : State) (n : NodeParams) : (s.setNode n).programme = s.programme :=
  (congrArg State.programme (setNode_taken s n).2.rest :)

@[simp] theorem relist_programme (s : State) (p : Nat → Bool) : (s.relist p).programme = s.programme := by
  simp [State.relist]

@[simp] theorem changeDisplay_programme (s : State) (d : Nat) (x : Display) (b : DisplayConfig) :
    (s.changeDisplay d x b).programme = s.programme := by
  simp [State.changeDisplay, apply_ite State.programme]

@[simp] theorem createDisplay_programme (s : State) (d : Nat) (c : DisplayConfig) : (s.createDisplay d c).programme = s.programme := by
  simp [State.createDisplay]

@[simp] theorem cabinChanged_programme (s : State) (old : Option Cabin) (c : Cabin) : (s.cabinChanged old c).programme = s.programme := by
  have held : (s.cabinHeld old c).programme = s.programme := by
    simp [State.cabinHeld, apply_ite State.programme]
  have marked : ∀ t : State, (t.cabinMarks old c).programme = t.programme := fun t => by
    simp [State.cabinMarks, apply_ite State.programme]
  have recounted : ∀ t : State, (t.cabinRecounts old c).programme = t.programme := fun t => by
    cases old with
    | none => exact recountStation_programme t _
    | some o => simp [State.cabinRecounts, apply_ite State.programme]
  simp [State.cabinChanged, apply_ite State.programme, held, marked, recounted]

@[simp] theorem removeDisplay_programme (s : State) (d : Nat) : (s.removeDisplay d).programme = s.programme := by
  simp [State.removeDisplay]

@[simp] theorem removeCabin_programme (s : State) (i : Nat) : (s.removeCabin i).programme = s.programme := by
  unfold State.removeCabin
  split
  · rfl
  · simp

@[simp] theorem destRemoved_programme (s : State) (d : Nat) (t : Dest) : (s.destRemoved d t).programme = s.programme := by
  have reported : (s.reportLoss d 0).programme = s.programme := reportLoss_only s d 0 .programme (by decide)
  simp [State.destRemoved, apply_ite State.programme, reported]

theorem clearDest_programme (s : State) (d : Nat) : (s.clearDest d).programme = s.programme := by
  unfold State.clearDest
  split
  · rfl
  · simp [State.clearHeldOf]

theorem clearList_programme (s : State) (i : Nat) : (s.clearList i).programme = s.programme := relist_programme _ _

theorem clearCabin_programme (s : State) (i : Nat) : (s.clearCabin i).programme = s.programme := by
  unfold State.clearCabin
  split
  · rfl
  · simp

theorem clearNotice_programme (s : State) (i : Nat) : (s.clearNotice i).programme = s.programme := by
  unfold State.clearNotice
  split
  · rfl
  · exact markBy_programme _ _

theorem clearTemplate_programme (s : State) (i : Nat) : (s.clearTemplate i).programme = s.programme := by
  unfold State.clearTemplate
  split
  · rfl
  · exact markWhere_programme _ _ _

theorem clearNodes_programme (s : State) (hit : Nat → Bool) : (s.clearNodes hit).programme = s.programme := by
  simp [State.clearNodes, apply_ite State.programme]

theorem clearSegments_programme (s : State) (hit : Nat → Bool) : (s.clearSegments hit).programme = s.programme := by
  simp [State.clearSegments, apply_ite State.programme]

theorem clearSelection_programme (s : State) (i : Nat) : (s.clearSelection i).programme = s.programme := markWhere_programme _ _ _

theorem foldl_programme {α : Type} {f : State → α → State} (h : ∀ (s : State) (a : α), (f s a).programme = s.programme) (l : List α)
    (s : State) : (l.foldl f s).programme = s.programme := by
  induction l generalizing s with
  | nil => rfl
  | cons a l ih => exact (ih _).trans (h s a)

theorem clearCabins_programme (s : State) : s.clearCabins.programme = s.programme :=
  (foldl_programme recount_programme _ _).trans (foldl_programme removeCabin_programme _ _)

/-! ### WRITE and CLEAR -/

/-- What a WRITE or a CLEAR yields, where it is taken, has a property. -/
def Yields {α : Type} (p : α → Prop) (w : Except ResultCode α) : Prop := ∀ a, w = .ok a → p a

theorem yields_error {α : Type} (p : α → Prop) (r : ResultCode) : Yields p (.error r) := nofun

theorem yields_ok {α : Type} {p : α → Prop} {a : α} (h : p a) : Yields p (.ok a) := by
  rintro _ ⟨⟩
  exact h

/-- A check before what is yielded. -/
theorem yields_check {α : Type} {p : α → Prop} {c : Prop} [Decidable c] {r : ResultCode} {w : Except ResultCode α} (h : Yields p w) :
    Yields p (if c then .error r else w) := by
  split
  · exact yields_error p r
  · exact h

/-- A WRITE, where it is taken, turns the programme table. -/
abbrev WriteTurns (s : State) (w : WriteResult) : Prop := Yields (fun u => s.Turns u.1) w

/-- A CLEAR, where it is taken, turns the programme table. -/
abbrev ClearTurns (s : State) (w : Except ResultCode State) : Prop := Yields s.Turns w

theorem writeTurns_same {s t : State} {b : Bool} (h : t.programme = s.programme) : WriteTurns s (.ok (t, b)) :=
  yields_ok (turns_of_same h)

theorem clearTurns_same {s t : State} (h : t.programme = s.programme) : ClearTurns s (.ok t) := yields_ok (turns_of_same h)

theorem writeEmpty_turns (s : State) (t i : Nat) : WriteTurns s (s.writeEmpty t i) := by
  unfold State.writeEmpty
  split
  · split
    · exact writeTurns_same rfl
    · exact yields_error _ _
  all_goals exact writeTurns_same rfl

theorem writeDisplay_turns (s : State) (d : Nat) (fs : FieldList) : WriteTurns s (s.writeDisplay d fs) := by
  refine yields_check ?_
  split
  · exact yields_check (writeTurns_same (createDisplay_programme _ _ _))
  · exact yields_check (yields_check (writeTurns_same (changeDisplay_programme _ _ _ _)))

/-- R66 to R69: a WRITE to PROGRAMME. -/
theorem writeProgramme_turns (s : State) {id : Nat} (range : 1 ≤ id ∧ id ≤ 65535) (fs : FieldList) :
    WriteTurns s (s.writeProgramme id fs) := by
  refine yields_check ?_
  split
  · rename_i absent
    by_cases full : 256 ≤ s.programme.length
    · rw [if_pos full]
      exact yields_error _ _
    · rw [if_neg full]
      exact yields_ok (createEntry_turns range absent (Nat.lt_of_not_le full) fs)
  · rename_i e here
    by_cases shut : statusClosed e fs = true
    · rw [if_pos shut]
      exact yields_error _ _
    · rw [if_neg shut]
      exact yields_ok (updateEntry_turns ((mem_of_findEntry here).2 ▸ here) shut)

theorem writeNotice_turns (s : State) (o i : Nat) (fs : FieldList) : WriteTurns s (s.writeNotice o i fs) := by
  refine yields_check (yields_check (writeTurns_same ?_))
  split
  · rfl
  · exact markBy_programme _ _

theorem writeTemplate_turns (s : State) (i : Nat) (fs : FieldList) : WriteTurns s (s.writeTemplate i fs) := by
  refine yields_check ?_
  split
  · exact yields_error _ _
  · exact writeTurns_same (markWhere_programme _ _ _)

/-- R168: the WRITE of any table; of PROGRAMME under an id that the index check passes. -/
theorem writeTable_turns (s : State) {o t i : Nat} (range : t = 7 → 1 ≤ i ∧ i ≤ 65535) (fs : FieldList) :
    WriteTurns s (s.writeTable o t i fs) := by
  unfold State.writeTable
  split
  · exact writeEmpty_turns _ _ _
  split
  · exact yields_check (writeTurns_same (setNode_programme _ _))
  · exact writeDisplay_turns _ _ _
  · exact yields_check (yields_check (writeTurns_same rfl))
  · exact yields_check (writeTurns_same rfl)
  · exact yields_check (yields_check (yields_check (yields_check (writeTurns_same rfl))))
  · exact yields_check (yields_check (writeTurns_same rfl))
  · exact yields_check (writeTurns_same (relist_programme _ _))
  · exact writeProgramme_turns s (range rfl) fs
  · exact yields_check (yields_check (yields_check (writeTurns_same (cabinChanged_programme _ _ _))))
  · exact writeNotice_turns _ _ _ _
  · exact yields_check (writeTurns_same (markAll_programme _ _))
  · exact writeTemplate_turns _ _ _
  · exact yields_check (writeTurns_same (markWhere_programme _ _ _))
  · exact yields_check (yields_check (writeTurns_same rfl))
  · exact yields_error _ _

theorem clearDisplays_turns (s : State) (hit : Nat → Bool) : ClearTurns s (s.clearDisplays hit) :=
  yields_check (clearTurns_same (foldl_programme removeDisplay_programme _ _))

theorem clearStrings_turns (s : State) : ClearTurns s s.clearStrings := by
  unfold State.clearStrings
  split
  · exact clearTurns_same rfl
  · exact yields_error _ _

/-- R168: the CLEAR of any table. -/
theorem clearEntry_turns (s : State) (o t i : Nat) : ClearTurns s (s.clearEntry o t i) := by
  unfold State.clearEntry
  dsimp only
  split
  · exact clearTurns_same (setNode_programme _ _)
  · exact clearDisplays_turns _ _
  · exact yields_check (clearTurns_same rfl)
  · exact clearTurns_same (clearNodes_programme _ _)
  · exact clearTurns_same (clearSegments_programme _ _)
  · exact clearTurns_same (clearDest_programme _ _)
  · exact clearTurns_same (clearList_programme _ _)
  · exact yields_ok (.removed (clearProgramme_sublist _ _))
  · exact clearTurns_same (clearCabin_programme _ _)
  · exact clearTurns_same (clearNotice_programme _ _)
  · exact clearTurns_same (markAll_programme _ _)
  · exact clearTurns_same (clearTemplate_programme _ _)
  · exact clearTurns_same (clearSelection_programme _ _)
  · exact clearTurns_same rfl
  · exact yields_error _ _

/-- R166, R168: the CLEAR_TABLE of any table. -/
theorem clearAll_turns (s : State) (o t : Nat) : ClearTurns s (s.clearAll o t) := by
  unfold State.clearAll
  dsimp only
  split
  · exact clearTurns_same (setNode_programme _ _)
  · exact clearDisplays_turns _ _
  · exact clearStrings_turns _
  · exact clearTurns_same (clearNodes_programme _ _)
  · exact clearTurns_same (clearSegments_programme _ _)
  · exact clearTurns_same (foldl_programme clearDest_programme _ _)
  · exact clearTurns_same (foldl_programme clearList_programme _ _)
  · exact yields_ok (.removed (clearProgrammes_sublist _ _))
  · exact clearTurns_same (clearCabins_programme _)
  · exact clearTurns_same (foldl_programme clearNotice_programme _ _)
  · exact clearTurns_same (markAll_programme _ _)
  · exact clearTurns_same (foldl_programme clearTemplate_programme _ _)
  · exact clearTurns_same (foldl_programme clearSelection_programme _ _)
  · exact clearTurns_same rfl
  · exact yields_error _ _

/-! ### Requests and frames -/

theorem warmRestart_programme (s : State) : s.warmRestart.programme = s.programme := markAll_programme _ _

/-- R168: a request that passes its checks. -/
theorem checked_turns {s : State} (cs : List (Bool × ResultCode)) {a : Answer} (h : firstRefusal cs = none → s.Turns a.state) :
    s.Turns (s.checked cs a).state := by
  unfold State.checked
  split
  · exact turns_of_same rfl
  · rename_i passed
    exact h passed

theorem ofWrite_turns {s : State} {w : WriteResult} (h : WriteTurns s w) : s.Turns (s.ofWrite w).state := by
  unfold State.ofWrite
  split
  · exact turns_of_same rfl
  · exact h _ rfl

theorem ofClear_turns {s : State} {w : Except ResultCode State} (h : ClearTurns s w) : s.Turns (s.ofClear w).state := by
  unfold State.ofClear
  split
  · exact turns_of_same rfl
  · exact h _ rfl

/-- R66, R164, R168: a programme entry that a WRITE reaches has an id 1..65535. -/
theorem answerWrite_turns (s : State) (o t i : Nat) (fs : FieldList) : s.Turns (s.answerWrite o t i fs).state := by
  refine checked_turns _ fun passed => ofWrite_turns (writeTable_turns s ?_ fs)
  rintro rfl
  have index : indexOk 7 i false = true := of_firstRefusal_none passed (indexOk 7 i false, .badIndex) (by simp)
  obtain ⟨low, high⟩ := indexOk_programme.1 index
  exact ⟨low, Nat.le_of_lt_succ high⟩

theorem answerRestart_programme (s : State) (o : Nat) : (s.respond o .restart).state.programme = s.programme := by
  unfold State.respond State.answerRestart State.checked
  dsimp only
  split
  · rfl
  · exact warmRestart_programme s

/-- R163: a request takes one turn of the programme table. -/
theorem respond_turns (s : State) (o : Nat) (r : Request) : s.Turns (s.respond o r).state := by
  cases r with
  | write t i fs => exact answerWrite_turns s o t i fs
  | read t i => exact checked_turns _ fun _ => turns_of_same rfl
  | clear t i => exact checked_turns _ fun _ => ofClear_turns (clearEntry_turns s o t i)
  | clearTable t => exact checked_turns _ fun _ => ofClear_turns (clearAll_turns s o t)
  | adjustSteps k v c => exact checked_turns _ fun _ => turns_of_same (markWhere_programme _ _ _)
  | holdString i => exact checked_turns _ fun _ => turns_of_same rfl
  | freeString i => exact checked_turns _ fun _ => turns_of_same rfl
  | retryDisplay d => exact checked_turns _ fun _ => turns_of_same rfl
  | restart => exact turns_of_same (answerRestart_programme s o)
  | status => exact turns_of_same rfl
  | displayStatus d => exact checked_turns _ fun _ => turns_of_same rfl
  | identify => exact turns_of_same rfl
  | malformed k => exact turns_of_same rfl

/-- R156: a request that arrives leaves the table as it was, or as its answer does. -/
theorem takeRequest_programme (s : State) (p : Port) (f : Frame) (r : Request) :
    (s.takeRequest p f r).programme = s.programme ∨ (s.takeRequest p f r).programme = (s.respond f.origin r).state.programme := by
  unfold State.takeRequest
  dsimp only
  split
  · split
    · exact Or.inl rfl
    · refine Or.inr ?_
      unfold State.oweReply
      split
      · rfl
      · rfl
  · exact Or.inr rfl

/-- R151 to R154: a frame that arrives leaves the table as it was, or as what it carries does. -/
theorem frameArrives_programme (s : State) (p : Port) (f : Frame) (c : Content) :
    (s.frameArrives p f c).programme = s.programme ∨ (s.frameArrives p f c).programme = (s.act p f c).programme := by
  have forwarded : ∀ t : State, (t.forward p f).programme = t.programme := fun t => by
    simp [State.forward, apply_ite State.programme]
  unfold State.frameArrives
  split
  · simp only [apply_ite State.programme, forwarded, ite_self]
    split
    · exact Or.inr rfl
    · exact Or.inl rfl
  · exact Or.inl rfl

theorem act_turns (s : State) (p : Port) (f : Frame) (c : Content) : s.Turns (s.act p f c) := by
  unfold State.act
  split
  · split
    · exact takeBulletin_turns _ _ _
    · exact turns_of_same rfl
  · rename_i r
    split
    · rcases takeRequest_programme s p f r with same | answered
      · exact turns_of_same same
      · exact turns_of_eq answered (respond_turns s f.origin r)
    · exact turns_of_same rfl
  · exact turns_of_same rfl

theorem frameArrives_turns (s : State) (p : Port) (f : Frame) (c : Content) : s.Turns (s.frameArrives p f c) := by
  rcases frameArrives_programme s p f c with same | acted
  · exact turns_of_same same
  · exact turns_of_eq acted (act_turns s p f c)

/-- R64, R175: a warm restart keeps the table. -/
theorem restart_programme (s : State) (a : Arrival) : (s.requestArrives a .restart).programme = s.programme := by
  have acted : (s.act a.port (a.requestFrame .restart) (.request .restart)).programme = s.programme := by
    unfold State.act
    dsimp only
    split
    · rcases takeRequest_programme s a.port (a.requestFrame .restart) .restart with same | answered
      · exact same
      · exact answered.trans (answerRestart_programme s _)
    · rfl
  rcases frameArrives_programme s a.port (a.requestFrame .restart) (.request .restart) with same | taken
  · exact same
  · exact taken.trans acted

/-! ### Commands and steps -/

theorem transmit_programme (s : State) (p : Port) (c : TxChoice) : (s.transmit p c).programme = s.programme := by
  cases c
  all_goals simp [State.transmit, State.sends]

/-- R139: a take changes the displays and the strings alone. -/
theorem takes_screens (s : State) (k : StringNo) :
    s.ScreensOnly (s.dispatchTaken k) ∧ s.ScreensOnly (s.pollTaken k) ∧ s.ScreensOnly (s.probeTaken k) := by
  unfold State.dispatchTaken State.pollTaken State.probeTaken
  cases s.offer k with
  | none => exact ⟨rfl, rfl, rfl⟩
  | some o =>
    cases o with
    | dispatch d u n => exact ⟨takeDispatch_screens _ _ _ _ _, rfl, rfl⟩
    | poll d => exact ⟨rfl, takePoll_screens _ _ _, rfl⟩
    | probe d => exact ⟨rfl, rfl, takeProbe_screens _ _ _⟩

theorem stringReply_programme (s : State) (k : StringNo) (tag : Nat) (r : StringReply) : (s.stringReply k tag r).programme = s.programme :=
  stringReply_only s k tag r .programme (by decide)

/-- A timer's event whose effect takes one turn. -/
theorem expire_turns (s : State) (deadline : Option Nat) {f : State → State} (h : ∀ t : State, t.Turns (f t)) :
    s.Turns (s.expire deadline f) := by
  unfold State.expire
  split
  · exact h (s.reach _)
  · exact turns_of_same rfl

/-- A command takes one turn of the programme table in the state it leaves. -/
def OutcomeTurns (s : State) (o : Result) : Prop := ∀ t, o = .next t → s.Turns t

theorem outcomeTurns_next {s t : State} (h : s.Turns t) : OutcomeTurns s (.next t) := by
  rintro _ ⟨⟩
  exact h

theorem outcomeTurns_same {s t : State} (h : t.programme = s.programme) : OutcomeTurns s (.next t) := outcomeTurns_next (turns_of_same h)

/-- A timer's command whose effect leaves the table. -/
theorem outcomeTurns_expire {s : State} (deadline : Option Nat) {f : State → State} (h : ∀ t : State, (f t).programme = t.programme) :
    OutcomeTurns s (.next (s.expire deadline f)) := outcomeTurns_next (expire_turns s deadline fun t => turns_of_same (h t))

/-- Every command takes one turn: the clock and the TIME bulletin evaluate, WRITE, CLEAR and CLEAR_TABLE change entries, power-on reset
removes them all, and the others leave the table. -/
theorem exec_turns (i : Instr) (s : State) : OutcomeTurns s (exec i s) := by
  have frame : ∀ (p : Port) (f : Frame) (c : Content), OutcomeTurns s (.next (s.frameArrives p f c)) := fun p f c =>
    outcomeTurns_next (frameArrives_turns s p f c)
  have reply : ∀ (k : StringNo) (tag : Nat) (r : StringReply), OutcomeTurns s (.next (s.stringReply k tag r)) := fun k tag r =>
    outcomeTurns_same (stringReply_programme s k tag r)
  cases i with
  | powerOnReset straps => exact outcomeTurns_next (.removed (List.nil_sublist _))
  | musterInChange level =>
    refine outcomeTurns_same ?_
    unfold State.rawLevel
    split
    · rfl
    · rfl
  | musterLineChange => exact outcomeTurns_expire _ fun t => filterLine_only t .programme (by decide)
  | clockSecondAdvance => exact outcomeTurns_next (expire_turns s _ advanceSecond_turns)
  | standDownHoldExpiry => exact outcomeTurns_expire _ fun t => holdExpires_only t .programme (by decide)
  | bridgeSilenceExpiry => exact outcomeTurns_expire _ fun t => silenceExpires_only t .programme (by decide)
  | lineSignalChange p present => exact outcomeTurns_same (setPort_programme _ _ _)
  | portUp p => exact outcomeTurns_expire _ fun t => setPort_programme _ _ _
  | portDown p => exact outcomeTurns_expire _ fun t => setPort_programme t p _
  | frameReceive p bytes =>
    refine outcomeTurns_next ?_
    unfold State.bytesArrive
    split
    · exact frameArrives_turns _ _ _ _
    · exact turns_of_same rfl
  | timeBulletin | phaseBulletin | closuresBulletin | lightBulletin | cabinMarkBulletin | assistClearBulletin => exact frame _ _ _
  | write | read | clear | clearTable | adjustSteps | holdString | freeString | retryDisplay | restart | status | displayStatus
  | identify => exact frame _ _ _
  | transmitBegin p =>
    refine outcomeTurns_same ?_
    unfold State.beginTransmit
    split
    · exact transmit_programme _ _ _
    · rfl
  | transmitEnd p => exact outcomeTurns_same (setPort_programme _ _ _)
  | dispatchTake k => exact outcomeTurns_same (takes_screens s k).1.programme_eq
  | pollTake k => exact outcomeTurns_same (takes_screens s k).2.1.programme_eq
  | probeTake k => exact outcomeTurns_same (takes_screens s k).2.2.programme_eq
  | ready | busy | ack | nak | refresh => exact reply _ _ _
  | events k tag codes =>
    refine outcomeTurns_same ?_
    unfold State.eventsReply
    split
    · exact stringReply_programme _ _ _ _
    · rfl
  | stringReplyDiscard k bytes =>
    refine outcomeTurns_same ?_
    unfold State.replyBytes
    split
    · exact stringReply_programme _ _ _ _
    · rfl
  | replyTimeout k =>
    refine outcomeTurns_expire _ fun t => ?_
    unfold State.unanswered
    split
    · exact failTry_only t k _ _ .programme (by decide)
    · rfl
  | refreshBusyReached | minRefreshExpiry | pollDue | probeDue => exact outcomeTurns_expire _ fun t => rfl
  | solverTake => exact outcomeTurns_same (solverTakes_only s .programme (by decide))
  | sweepEnd => exact outcomeTurns_same (sweepEnds_only s .programme (by decide))

/-- A step takes one turn: that of its command, or none in an idle millisecond. -/
theorem step_turns {s t : State} (h : step s = .next t) : s.Turns t := by
  cases hp : s.pending with
  | cons i rest =>
    refine exec_turns i { s with pending := rest } t ?_
    rw [← h, step, hp]
  | nil =>
    rw [step, hp] at h
    have h : s.idle = .next t := h
    unfold State.idle at h
    split at h
    · cases h
      exact turns_of_same rfl
    · split at h
      · exact exec_turns _ { s with draws := s.draws + 1 } t h
      · cases h
        exact turns_of_same rfl

/-- Settles O55: what every turn of the table keeps, and the two resets. -/
theorem programmeKept : Obligations.ProgrammeKept := by
  refine ⟨fun s t ok h => ?_, fun straps s => ⟨_, rfl, rfl⟩, fun a s => ⟨_, rfl, restart_programme s a⟩⟩
  have turn := step_turns h
  have ordered := (programmeOk_iff s).1 ok
  exact ⟨(programmeOk_iff t).2 (turn.ordered ordered), fun e he closed f hf ids => turn.closed ordered he closed hf ids⟩

end Sys2Proof.Machine
end

section
/-! SUPPORT. A display put back from a transaction and then marked (R131, R132): what each part of a reply leaves of it and of its place. -/

namespace Sys2Proof.Machine

/-- R129, R131, R132: in `u` the transaction of string `k` has ended, leaving the controller `c`, and its display, now `y`, stands
where a return to its place and later marks put it. The last two fields are what a further mark needs: no counter has gone down, and
the display waits no lower than at its place. -/
structure State.StandsBack (s u : State) (k : StringNo) (c : StringCtl) (d : Nat) (place : Option (Urgency × Nat)) (y : Display) :
    Prop where
  display : u.display d = some y
  ends : s.EndsTxn u k c d y.cfg.string
  back : s.PutBack u d y.cfg.string place y.rt.state
  counter : (s.str y.cfg.string).counter ≤ (u.str y.cfg.string).counter
  above : ∀ v n, place = some (v, n) → ∃ w, y.rt.state = .queued w ∧ w.code ≤ v.code

section Parts

variable {s u : State} {k : StringNo} {c : StringCtl} {d : Nat} {place : Option (Urgency × Nat)} {y : Display}

/-- Parts other than the displays and the strings have no say. -/
theorem State.StandsBack.congr (h : s.StandsBack u k c d place y) {v : State} (displays : v.displays = u.displays)
    (strings : v.strings = u.strings) : s.StandsBack v k c d place y := by
  have display : v.display = u.display := funext fun j => congrArg (Tab.fetch · j) displays
  have str : v.str = u.str := funext fun j => congrArg (·[j]) strings
  obtain ⟨here, ⟨others, strs, places⟩, back, counter, above⟩ := h
  refine ⟨by rw [display, here], ⟨by rwa [display], by rwa [str], by rwa [str]⟩, ?_, by rwa [str], above⟩
  unfold State.PutBack at back ⊢
  rwa [str]

/-- A change of the record that keeps the configuration and the update state. -/
theorem State.StandsBack.setDisplay (h : s.StandsBack u k c d place y) {z : Display} (cfg : z.cfg = y.cfg)
    (state : z.rt.state = y.rt.state) : s.StandsBack (u.setDisplay d z) k c d place z := by
  obtain ⟨-, ⟨others, strs, places⟩, back, counter, above⟩ := h
  rw [← cfg] at strs places back counter
  rw [← state] at back above
  exact ⟨display_setDisplay_same _ _ _, ⟨fun j hj => (display_setDisplay_ne _ _ hj).trans (others j hj), strs, places⟩, back, counter, above⟩

theorem State.StandsBack.marked (h : s.StandsBack u k c d place y) (v : Urgency) :
    (u.mark d v).display d = some (y.markedAt v) ∧ ∀ j, j ≠ d → (u.mark d v).display j = s.display j := by
  refine ⟨?_, fun j hj => ?_⟩
  · rw [display_mark, if_pos rfl, h.display]
    rfl
  · rw [display_mark, if_neg hj, h.ends.displays j hj]

/-- R132: a mark that does not raise the display leaves its place. -/
theorem State.StandsBack.mark_still (h : s.StandsBack u k c d place y) {v : Urgency} (still : (y.markedAt v).rt.state = y.rt.state) :
    s.StandsBack (u.mark d v) k c d place (y.markedAt v) := by
  obtain ⟨here, others⟩ := h.marked v
  have strings : (u.mark d v).strings = u.strings := mark_strings_still fun x hx => by
    rw [h.display] at hx
    cases hx
    exact still
  have str : (u.mark d v).str = u.str := funext fun j => congrArg (·[j]) strings
  obtain ⟨-, ⟨-, strs, places⟩, back, counter, above⟩ := h
  refine ⟨here, ⟨others, by rw [str]; exact strs, by rw [str]; exact places⟩, ?_, by rw [str]; exact counter, by rwa [still]⟩
  rw [still]
  unfold State.PutBack at back ⊢
  rw [str]
  exact back

/-- R131, R132: a mark that raises the display gives it a fresh place, in a higher queue than that of its return place. -/
theorem State.StandsBack.mark_raised (h : s.StandsBack u k c d place y) {v : Urgency} (raised : (y.markedAt v).rt.state ≠ y.rt.state) :
    s.StandsBack (u.mark d v) k c d place (y.markedAt v) := by
  obtain ⟨here, others⟩ := h.marked v
  obtain ⟨queued, otherStrs, placesOf, fresh, members⟩ := mark_str_moved h.display raised
  obtain ⟨-, ⟨-, strs, places⟩, -, counter, above⟩ := h
  have higher : ∀ w n, place = some (w, n) → v.code < w.code := fun w n hp => by
    obtain ⟨z, hz, le⟩ := above w n hp
    by_contra low
    refine raised ?_
    simp only [Display.markedAt, UpdateState.raised, hz]
    rw [if_neg (by omega)]
  refine ⟨here, ⟨others, fun j hj => (otherStrs j hj).trans (strs j hj), places.trans placesOf⟩, fun w hw => ?_, ?_,
    fun w n hp => ⟨v, queued, (higher w n hp).le⟩⟩
  · rw [queued] at hw
    cases hw
    refine ⟨fun n hp => absurd (higher v n hp) (Nat.lt_irrefl _), fun _ => ?_⟩
    rw [markedAt_cfg, fresh, Nat.add_sub_cancel]
    exact ⟨(members v _ rfl).2 (Or.inl ⟨rfl, rfl⟩), Nat.lt_succ_of_le counter⟩
  · rw [markedAt_cfg, fresh]
    exact Nat.le_succ_of_le counter

/-- R132: a mark leaves the place, or gives the display a fresh one in a higher queue. -/
theorem State.StandsBack.mark (h : s.StandsBack u k c d place y) (v : Urgency) : s.StandsBack (u.mark d v) k c d place (y.markedAt v) := by
  by_cases still : (y.markedAt v).rt.state = y.rt.state
  · exact h.mark_still still
  · exact h.mark_raised still

end Parts

/-- R129: in `t` the transaction of string `k` has ended, leaving the controller `c`, and its display is `x`, not yet put back. -/
structure State.TxnOver (s t : State) (k : StringNo) (c : StringCtl) (d : Nat) (x : Display) : Prop where
  display : t.display d = some x
  displays : ∀ j, j ≠ d → t.display j = s.display j
  strings : ∀ j, t.str j = if j = k then c else s.str j
  counter : ∀ j, (t.str j).counter = (s.str j).counter

theorem setStr_onRuntime_over {s : State} {k : StringNo} {c : StringCtl} {d : Nat} {x : Display} (here : s.display d = some x)
    (counter : c.counter = (s.str k).counter) (f : DisplayRuntime → DisplayRuntime) :
    s.TxnOver ((s.setStr k c).onRuntime d f) k c d { x with rt := f x.rt } := by
  refine ⟨?_, fun j hj => ?_, fun j => str_setStr s k j c, fun j => ?_⟩
  · rw [display_onRuntime, if_pos rfl, display_setStr, here]
    rfl
  · rw [display_onRuntime, if_neg hj, display_setStr]
  · rw [str_onRuntime, str_setStr]
    split
    · rename_i hj
      rw [hj, counter]
    · rfl

/-- R132: a display returned to its place, with no stale mark considered. -/
def Display.returned (x : Display) (place : Option (Urgency × Nat)) : Display :=
  { x with rt := { x.rt with state := stateBack place none } }

theorem State.TxnOver.returned {s t : State} {k : StringNo} {c : StringCtl} {d : Nat} {x : Display} (h : s.TxnOver t k c d x)
    (place : Option (Urgency × Nat)) :
    (t.returnToPlace d place).display d = some (x.returned place) ∧
      ∀ j, j ≠ d → (t.returnToPlace d place).display j = s.display j := by
  refine ⟨?_, fun j hj => ?_⟩
  · rw [display_returnToPlace, if_pos rfl, h.display]
    cases place
    all_goals rfl
  · rw [display_returnToPlace, if_neg hj, h.displays j hj]

/-- R132: a display without a return place becomes CLEAN. -/
theorem State.TxnOver.clean {s t : State} {k : StringNo} {c : StringCtl} {d : Nat} {x : Display} (h : s.TxnOver t k c d x) :
    s.StandsBack (t.returnToPlace d none) k c d none (x.returned none) := by
  obtain ⟨here, others⟩ := h.returned none
  refine ⟨here, ⟨others, fun j _ => h.strings j, ?_⟩, nofun, (h.counter _).ge, nofun⟩
  change StringCtl.PlacesOf d (if x.cfg.string = k then c else s.str x.cfg.string) (t.str x.cfg.string)
  rw [h.strings]
  exact .refl _ _

/-- R131, R132: a display with a return place stands there again, under its old stamp. -/
theorem State.TxnOver.entered {s t : State} {k : StringNo} {c : StringCtl} {d : Nat} {x : Display} (h : s.TxnOver t k c d x)
    (v : Urgency) (n : Nat) : s.StandsBack (t.returnToPlace d (some (v, n))) k c d (some (v, n)) (x.returned (some (v, n))) := by
  obtain ⟨here, others⟩ := h.returned (some (v, n))
  obtain ⟨strs, placesOf⟩ := str_enterAt h.display v n
  have entered : (t.enterAt d v n).str x.cfg.string =
      (t.str x.cfg.string).setQueue v (insertPlace (t.before v) { display := d, stamp := n } ((t.str x.cfg.string).queue v)) := by
    simp only [State.enterAt, h.display, str_setDisplay, str_setStr_same]
  have member : { display := d, stamp := n } ∈ ((t.enterAt d v n).str x.cfg.string).queue v := by
    rw [entered, queue_setQueue, if_pos rfl, mem_insertPlace]
    exact Or.inl rfl
  have counter : ((t.enterAt d v n).str x.cfg.string).counter = (s.str x.cfg.string).counter := by
    rw [entered, ← h.counter]
    cases v
    all_goals rfl
  rw [h.strings x.cfg.string] at placesOf
  refine ⟨here, ⟨others, fun j hj => (strs j hj).trans (h.strings j), placesOf⟩, fun w hw => ?_, counter.ge, fun w m hw => ?_⟩
  · cases hw
    exact ⟨fun m hm => by cases hm; exact ⟨member, counter⟩, fun no => absurd rfl (no n)⟩
  · cases hw
    exact ⟨v, rfl, Nat.le_refl _⟩

/-- R129, R132: the transaction is over and its display returns to its place. -/
theorem State.TxnOver.standsBack {s t : State} {k : StringNo} {c : StringCtl} {d : Nat} {x : Display} (h : s.TxnOver t k c d x)
    (place : Option (Urgency × Nat)) : s.StandsBack (t.returnToPlace d place) k c d place (x.returned place) :=
  match place with
  | none => h.clean
  | some (v, n) => h.entered v n

/-- R132: the stale flag applied to a display that has returned to its place. -/
def Display.putBack (x : Display) (place : Option (Urgency × Nat)) : Display :=
  { x with rt := { x.rt with state := stateBack place x.rt.stale, stale := none } }

theorem putBack_of_stale {x : Display} {place : Option (Urgency × Nat)} {v : Urgency} (stale : x.rt.stale = some v) :
    ({ x.returned place with rt := { (x.returned place).rt with stale := none } } : Display).markedAt v = x.putBack place := by
  unfold Display.putBack
  rw [stale]
  rcases place with _ | ⟨w, n⟩
  · rfl
  · cases v <;> cases w <;> rfl

theorem putBack_of_fresh {x : Display} {place : Option (Urgency × Nat)} (fresh : x.rt.stale = none) :
    x.returned place = x.putBack place := by
  unfold Display.putBack Display.returned
  rw [← fresh]

/-- R132: the stale mark of a display that has returned to its place is applied. -/
theorem State.StandsBack.applyStale {s u : State} {k : StringNo} {c : StringCtl} {d : Nat} {place : Option (Urgency × Nat)} {x : Display}
    (h : s.StandsBack u k c d place (x.returned place)) : s.StandsBack (u.applyStale d) k c d place (x.putBack place) := by
  have here := h.display
  unfold State.applyStale
  rw [here]
  dsimp only
  cases stale : x.rt.stale with
  | none =>
    rw [show (x.returned place).rt.stale = none from stale, ← putBack_of_fresh stale]
    exact h
  | some v =>
    rw [show (x.returned place).rt.stale = some v from stale, ← putBack_of_stale stale]
    exact (h.setDisplay (z := { x.returned place with rt := { (x.returned place).rt with stale := none } }) rfl rfl).mark v

/-- R132: a display that has returned is QUEUED or CLEAN, so a mark raises it and leaves the rest of its record. -/
theorem putBack_marked (x : Display) (place : Option (Urgency × Nat)) (u : Urgency) :
    (x.putBack place).markedAt u =
      { x with rt := { x.rt with state := (stateBack place x.rt.stale).raised u, stale := none } } := by
  have waits : stateBack place x.rt.stale ≠ .opened := by
    rcases place with _ | _ <;> cases x.rt.stale <;> nofun
  rw [Display.markedAt]
  exact congrArg (fun st => ({ x with rt := { x.rt with state := (stateBack place x.rt.stale).raised u, stale := st } } : Display))
    (if_neg waits)

end Sys2Proof.Machine
end

section
/-! SUPPORT. Button presses (R86 to R88): what each leaves of its cabin, and the reports that it queues. -/

namespace Sys2Proof.Machine

/-! ### Presses and their reports -/

/-- The parts a press changes. -/
abbrev pressParts : List Part := [.cabins, .reports, .reportArrival]

/-- R86 to R88: a press leaves the cabin `c` at index `i` and queues reports of its number, each by its kind and value. -/
structure State.PressLeaves (s t : State) (i : Nat) (c : Cabin) (rs : List (ReportKind × Nat)) : Prop where
  cabins : ∀ j, Tab.fetch t.cabins j = if j = i then some c else Tab.fetch s.cabins j
  reports : ReportedAll s.stamp c.number rs s.reporting t.reporting
  rest : s.Only t pressParts

theorem ReportedAll.append {st : Stamp} {n : Nat} {rs qs : List (ReportKind × Nat)} {a b c : List Report × Nat}
    (h : ReportedAll st n rs a b) (g : ReportedAll st n qs b c) : ReportedAll st n (rs ++ qs) a c := by
  induction rs generalizing a with
  | nil =>
    cases h
    exact g
  | cons r rs ih =>
    obtain ⟨m, first, others⟩ := h
    exact ⟨m, first, ih others⟩

theorem stamp_of_ship {s t : State} (h : t.ship = s.ship) : t.stamp = s.stamp := by rw [State.stamp, State.stamp, h]

section Parts

variable {s t u : State} {i : Nat} {c e : Cabin} {rs qs : List (ReportKind × Nat)}

theorem pressLeaves_refl (here : Tab.fetch s.cabins i = some c) : s.PressLeaves s i c [] := by
  refine ⟨fun j => ?_, rfl, .refl _ _⟩
  split
  · rename_i hj
    rw [hj, here]
  · rfl

theorem State.PressLeaves.trans (h : s.PressLeaves t i c rs) (g : t.PressLeaves u i e qs) (number : e.number = c.number) :
    s.PressLeaves u i e (rs ++ qs) := by
  refine ⟨fun j => ?_, ?_, h.rest.trans g.rest⟩
  · rw [g.cabins, h.cabins]
    split
    · rfl
    · rfl
  · have later := g.reports
    rw [stamp_of_ship (h.rest .ship (by decide))] at later
    rw [number] at later ⊢
    exact h.reports.append later

theorem State.PressLeaves.here (h : s.PressLeaves t i c rs) : Tab.fetch t.cabins i = some c := by rw [h.cabins, if_pos rfl]

theorem setCabin_alone (s : State) (i : Nat) (c : Cabin) : s.Only (s.setCabin i c) [.cabins] := by
  intro p hp
  cases p
  case cabins => exact absurd hp (by decide)
  all_goals rfl

theorem setCabin_press (s : State) (i : Nat) (c : Cabin) : s.PressLeaves (s.setCabin i c) i c [] :=
  ⟨fun _ => Tab.fetch_store _ _ _ _, rfl, (setCabin_alone s i c).mono _ (by decide)⟩

/-- R159: a press queues a report of its cabin. -/
theorem State.PressLeaves.report (h : s.PressLeaves t i c rs) (k : ReportKind) (v : Nat) :
    s.PressLeaves (t.queueReport k c.number v) i c (rs ++ [(k, v)]) := by
  have only := queueReport_only t k c.number v
  refine h.trans ⟨fun j => ?_, ⟨_, queueReport_reported _ _ _ _, rfl⟩, only.mono _ (by decide)⟩ rfl
  rw [show (t.queueReport k c.number v).cabins = t.cabins from only .cabins (by decide), h.cabins]
  split
  · rfl
  · rfl

end Parts

/-! ### NORMAL and STAND_DOWN (R87) -/

/-- R87: a cabin after presses that leave DND and MUR at `f`. -/
def Cabin.withFlags (c : Cabin) (f : Bool × Bool) : Cabin := { c with dnd := f.1, mur := f.2 }

/-- R87: the DND button. -/
theorem servicePress_dnd {s : State} {i : Nat} {c : Cabin} (here : Tab.fetch s.cabins i = some c) :
    s.PressLeaves (s.servicePress i 0) i (c.withFlags (pressed (c.dnd, c.mur) 0)) (pressReports (c.dnd, c.mur) 0) := by
  obtain ⟨number, display, station, group, occupied, language, greeting, dnd, mur, assist, swept⟩ := c
  simp only [State.servicePress, here]
  cases dnd with
  | true => cases mur <;> exact (setCabin_press s i _).report _ _
  | false =>
    cases mur with
    | true => exact ((setCabin_press s i _).report _ _).report _ _
    | false => exact (setCabin_press s i _).report _ _

/-- R87: the MUR button. -/
theorem servicePress_mur {s : State} {i : Nat} {c : Cabin} (here : Tab.fetch s.cabins i = some c) :
    s.PressLeaves (s.servicePress i 1) i (c.withFlags (pressed (c.dnd, c.mur) 1)) (pressReports (c.dnd, c.mur) 1) := by
  obtain ⟨number, display, station, group, occupied, language, greeting, dnd, mur, assist, swept⟩ := c
  simp only [State.servicePress, here]
  cases mur with
  | true => cases dnd <;> exact (setCabin_press s i _).report _ _
  | false =>
    cases dnd with
    | true => exact ((setCabin_press s i _).report _ _).report _ _
    | false => exact (setCabin_press s i _).report _ _

/-- R87: one press at an OCCUPIED cabin, by its button. -/
theorem servicePress_press {s : State} {i : Nat} {c : Cabin} (here : Tab.fetch s.cabins i = some c) (b : Nat) :
    s.PressLeaves (s.servicePress i b) i (c.withFlags (pressed (c.dnd, c.mur) b)) (pressReports (c.dnd, c.mur) b) := by
  match b with
  | 0 => exact servicePress_dnd here
  | 1 => exact servicePress_mur here
  | 2 =>
    simp only [State.servicePress, here]
    exact (pressLeaves_refl here).report .serviceCall 0
  | b + 3 =>
    simp only [State.servicePress, here]
    exact pressLeaves_refl here

/-- R87: a code of no known button does nothing. -/
theorem servicePress_unknown {s : State} {i b : Nat} (h : ¬knownButton b = true) : s.servicePress i b = s := by
  obtain ⟨n, rfl⟩ : ∃ n, b = n + 3 := ⟨b - 3, by have : ¬b < 3 := mt decide_eq_true h; omega⟩
  unfold State.servicePress
  split
  · rfl
  · rfl

theorem servicePresses_known (i : Nat) (codes : List Nat) (s : State) :
    (codes.filter knownButton).foldl (fun t b => t.servicePress i b) s = codes.foldl (fun t b => t.servicePress i b) s := by
  rw [List.foldl_filter]
  congr
  funext t b
  exact ite_eq_left_iff.2 fun unknown => (servicePress_unknown unknown).symm

/-- R86, R87: the presses of one EVENTS, one after another. -/
theorem servicePresses_press {s : State} {i : Nat} {c : Cabin} (codes : List Nat) (here : Tab.fetch s.cabins i = some c) :
    s.PressLeaves (codes.foldl (fun t b => t.servicePress i b) s) i (c.withFlags (codes.foldl pressed (c.dnd, c.mur)))
      (pressesReports (c.dnd, c.mur) codes) := by
  induction codes generalizing s c with
  | nil => exact pressLeaves_refl here
  | cons b codes ih =>
    have first := servicePress_press here b
    exact first.trans (ih first.here) rfl

/-! ### ALERT and MUSTER (R88) -/

/-- R88: each press sets ASSIST and reports it. -/
theorem assistPresses_press {s : State} {i : Nat} {c : Cabin} (codes : List Nat) (here : Tab.fetch s.cabins i = some c) :
    s.PressLeaves (codes.foldl (fun t _ => t.assistPress i) s) i { c with assist := c.assist || !codes.isEmpty }
      (codes.map fun _ => (.assist, if c.occupied then 1 else 0)) := by
  induction codes generalizing s c with
  | nil =>
    simp only [List.isEmpty_nil, Bool.not_true, Bool.or_false]
    exact pressLeaves_refl here
  | cons b codes ih =>
    have first : s.PressLeaves (s.assistPress i) i { c with assist := true } [(.assist, if c.occupied then 1 else 0)] := by
      simp only [State.assistPress, here]
      exact (setCabin_press s i { c with assist := true }).report _ _
    have all := first.trans (ih first.here) rfl
    simp only [Bool.true_or] at all
    simp only [List.isEmpty_cons, Bool.not_false, Bool.or_true]
    exact all

/-! ### The events of a poll (R86) -/

section Poll

variable {s : State} {d i : Nat} {c : Cabin} {codes : List Nat}

theorem known_eq_nil_iff : codes.filter knownButton = [] ↔ ∀ b ∈ codes, 3 ≤ b := by
  simp only [List.filter_eq_nil_iff, knownButton, decide_eq_true_iff, Nat.not_lt]

theorem known_ne_nil (h : ∃ b ∈ codes, b < 3) : codes.filter knownButton ≠ [] := fun none => by
  obtain ⟨b, hb, lt⟩ := h
  exact Nat.not_le.2 lt (known_eq_nil_iff.1 none b hb)

theorem takeEvents_ignored (h : s.cabinNaming d = none ∨ ∀ b ∈ codes, 3 ≤ b) : s.takeEvents d codes = s := by
  unfold State.takeEvents
  split
  · rfl
  · rename_i naming
    exact if_pos (known_eq_nil_iff.2 (h.resolve_left (by rw [naming]; nofun)))

theorem takeEvents_vacant (naming : s.cabinNaming d = some (i, c)) (calm : s.ship.phase.emergency = false) (vacant : c.occupied = false) :
    s.takeEvents d codes = s := by
  simp [State.takeEvents, naming, calm, vacant]

theorem takeEvents_assist (naming : s.cabinNaming d = some (i, c)) (known : ∃ b ∈ codes, b < 3) (emergency : s.ship.phase.emergency = true) :
    s.takeEvents d codes = ((codes.filter knownButton).foldl (fun t _ => t.assistPress i) s).mark d .safety := by
  simp only [State.takeEvents, naming, known_ne_nil known, emergency, if_true, if_false]

theorem takeEvents_service (naming : s.cabinNaming d = some (i, c)) (known : ∃ b ∈ codes, b < 3) (calm : s.ship.phase.emergency = false)
    (occupied : c.occupied = true) : s.takeEvents d codes = (codes.foldl (fun t b => t.servicePress i b) s).mark d .service := by
  rw [← servicePresses_known]
  simp [State.takeEvents, naming, known_ne_nil known, calm, occupied]

end Poll

end Sys2Proof.Machine
end

section
/-! SUPPORT. EVENTS as the end of a poll (R86 to R88, R144), and the statement. -/

namespace Sys2Proof.Machine

/-! ### The presses leave displays and strings -/

/-- R86 to R88: presses change cabins and reports alone, whatever the table's form. -/
theorem servicePress_parts (s : State) (i b : Nat) : s.Only (s.servicePress i b) pressParts := by
  cases here : Tab.fetch s.cabins i with
  | none =>
    simp only [State.servicePress, here]
    exact .refl _ _
  | some c => exact (servicePress_press here b).rest

theorem assistPress_parts (s : State) (i : Nat) : s.Only (s.assistPress i) pressParts := by
  cases here : Tab.fetch s.cabins i with
  | none =>
    simp only [State.assistPress, here]
    exact .refl _ _
  | some c => exact (assistPresses_press [0] here).rest

/-- R86: presses are ignored, or they end with one mark of the display. -/
theorem takeEvents_cases (s : State) (d : Nat) (codes : List Nat) :
    s.takeEvents d codes = s ∨ ∃ t u, s.Only t pressParts ∧ s.takeEvents d codes = t.mark d u := by
  unfold State.takeEvents
  split
  · exact Or.inl rfl
  · split
    · exact Or.inl rfl
    · split
      · exact Or.inr ⟨_, _, foldl_only _ (fun t _ => assistPress_parts t _) _ _, rfl⟩
      · split
        · exact Or.inr ⟨_, _, foldl_only _ (fun t b => servicePress_parts t _ b) _ _, rfl⟩
        · exact Or.inl rfl

theorem State.StandsBack.takeEvents {s u : State} {k : StringNo} {c : StringCtl} {d : Nat} {place : Option (Urgency × Nat)} {x : Display}
    (h : s.StandsBack u k c d place (x.putBack place)) (codes : List Nat) :
    ∃ st, s.StandsBack (u.takeEvents d codes) k c d place { x with rt := { x.rt with state := st, stale := none } } := by
  rcases takeEvents_cases u d codes with same | ⟨t, v, only, marked⟩
  · rw [same]
    exact ⟨_, h⟩
  · rw [marked]
    have back := (h.congr (only .displays (by decide)) (only .strings (by decide))).mark v
    rw [putBack_marked] at back
    exact ⟨_, back⟩

/-! ### The poll ends -/

/-- R144: the state in which the events are handed to the Cabin Unit: the transaction over, the display put back. -/
def State.polled (s : State) (k : StringNo) (t : Txn) : State :=
  (((s.endTxn k).onRuntime t.display fun r => { r with lastPoll := some s.now, failures := 0 }).returnToPlace t.display
    t.place).applyStale t.display

/-- R144: the display polled, before its return. -/
def State.pollAnswered (s : State) (x : Display) : Display := { x with rt := { x.rt with lastPoll := some s.now, failures := 0 } }

theorem polled_standsBack {s : State} {t : Txn} {x : Display} (here : s.display t.display = some x) (k : StringNo) :
    s.StandsBack (s.polled k t) k ((s.str k).over false) t.display t.place ((s.pollAnswered x).putBack t.place) :=
  ((setStr_onRuntime_over (c := (s.str k).over false) here rfl _).standsBack t.place).applyStale (x := s.pollAnswered x)

theorem polled_only (s : State) (k : StringNo) (t : Txn) : s.Only (s.polled k t) screenParts := by
  have returned : ∀ u : State, u.ScreensOnly (u.returnToPlace t.display t.place) := fun u => by
    unfold State.returnToPlace
    split
    · exact enterAt_screens _ _ _ _
    · exact onRuntime_screens _ _ _
  have stale : ∀ u : State, u.ScreensOnly (u.applyStale t.display) := fun u => by
    unfold State.applyStale
    split
    · exact .refl _
    · split
      · exact (setDisplay_screens _ _ _).trans (mark_screens _ _ _)
      · exact .refl _
  exact ((((setStr_screens s k _).trans (onRuntime_screens _ _ _)).trans (returned _)).trans (stale _)).only

/-- R140, R144, R181: EVENTS under the awaited tag of a poll. -/
theorem exec_events {s : State} {k : StringNo} {t : Txn} {codes : List Nat} (txn : (s.str k).txn = some t) (step : t.step = .poll)
    (few : codes.length ≤ 4) : exec (.events k t.tag codes) s = .next ((s.polled k t).takeEvents t.display codes) := by
  refine congrArg Host.Outcome.next ?_
  have own : s.stringReply k t.tag (.events codes) = s.answer k t (.events codes) := by
    unfold State.stringReply
    rw [txn]
    exact if_pos rfl
  rw [State.eventsReply, if_pos few, own]
  unfold State.answer
  rw [step]
  rfl

/-- What a reply on a string can change, put back. -/
theorem replyParts_frame {s t : State} (h : s.Only t replyParts) :
    { t with displays := s.displays, strings := s.strings, cabins := s.cabins, reports := s.reports,
             reportArrival := s.reportArrival } = s := by
  refine State.eq_of_agree fun p => ?_
  have agree := h p
  cases p
  case displays | strings | cabins | reports | reportArrival => rfl
  all_goals exact agree (by decide)

/-- R86 to R88: presses that end with a mark of the display, after the poll. -/
theorem pressed_after_poll {s : State} {k : StringNo} {t : Txn} {x : Display} (here : s.display t.display = some x) {w : State} {i : Nat}
    {c : Cabin} {rs : List (ReportKind × Nat)} (press : (s.polled k t).PressLeaves w i c rs) (u : Urgency) :
    (∀ j, Tab.fetch (w.mark t.display u).cabins j = if j = i then some c else Tab.fetch s.cabins j) ∧
      (∀ y, (w.mark t.display u).display t.display = some y → y.rt.state = (stateBack t.place x.rt.stale).raised u) ∧
      ReportedAll s.stamp c.number rs s.reporting (w.mark t.display u).reporting := by
  have only := polled_only s k t
  have marks := mark_screens w t.display u
  obtain ⟨cabins, reports, rest⟩ := press
  refine ⟨fun j => ?_, fun y hy => ?_, ?_⟩
  · rw [marks.cabins_eq, cabins, show (s.polled k t).cabins = s.cabins from only .cabins (by decide)]
  · have back := ((polled_standsBack here k).congr (rest .displays (by decide)) (rest .strings (by decide))).mark u
    rw [back.display, putBack_marked] at hy
    cases hy
    rfl
  · have before : (s.polled k t).reporting = s.reporting := Prod.ext (only .reports (by decide)) (only .reportArrival (by decide))
    have after : (w.mark t.display u).reporting = w.reporting := Prod.ext marks.reports_eq marks.reportArrival_eq
    rw [stamp_of_ship (only .ship (by decide)), before] at reports
    rw [after]
    exact reports

/-- R86: presses that are ignored, after the poll. -/
theorem ignored_after_poll {s : State} {k : StringNo} {t : Txn} {x : Display} (here : s.display t.display = some x) {codes : List Nat}
    (same : (s.polled k t).takeEvents t.display codes = s.polled k t) {u : State} (hu : u = (s.polled k t).takeEvents t.display codes)
    {y : Display} (hy : u.display t.display = some y) :
    u.cabins = s.cabins ∧ u.reporting = s.reporting ∧ y.rt.state = stateBack t.place x.rt.stale := by
  have only := polled_only s k t
  rw [hu, same] at hy ⊢
  refine ⟨only .cabins (by decide), Prod.ext (only .reports (by decide)) (only .reportArrival (by decide)), ?_⟩
  rw [(polled_standsBack here k).display] at hy
  cases hy
  rfl

/-- Settles O48: the display put back by the poll's end, then the presses by phase and occupancy. -/
theorem eventsTaken : Obligations.EventsTaken := by
  intro s k t x codes txn _ step here few
  have only := polled_only s k t
  have phase : (s.polled k t).ship.phase = s.ship.phase := congrArg Ship.phase (only .ship (by decide))
  have cabins : (s.polled k t).cabins = s.cabins := only .cabins (by decide)
  have named : (s.polled k t).cabinNaming t.display = s.cabinNaming t.display := by rw [State.cabinNaming, cabins]; rfl
  obtain ⟨u, hu⟩ : ∃ u, u = (s.polled k t).takeEvents t.display codes := ⟨_, rfl⟩
  obtain ⟨st, back⟩ := (polled_standsBack here k).takeEvents codes
  rw [← hu] at back
  refine ⟨u, _, (exec_events txn step few).trans (congrArg _ hu.symm), back.display, back.ends, rfl, rfl, back.back, fun idle => ?_,
    fun i c naming cabin => ⟨fun emergency known => ?_, fun calm => ⟨fun vacant => ?_, fun occupied known => ?_⟩⟩, ?_⟩
  · exact ignored_after_poll here (takeEvents_ignored (by rwa [named])) hu back.display
  · have press := assistPresses_press (codes.filter knownButton) (s := s.polled k t) (by rw [cabins]; exact cabin)
    rw [show c.assist || !(codes.filter knownButton).isEmpty by simp [known_ne_nil known]] at press
    rw [takeEvents_assist (named.trans naming) known (by rw [phase]; exact (Phase.emergency_iff _).2 emergency)] at hu
    obtain ⟨left, state, reports⟩ := pressed_after_poll here press .safety
    rw [← hu] at left state reports
    exact ⟨left, state _ back.display, reports⟩
  · exact ignored_after_poll here
      (takeEvents_vacant (named.trans naming) (by rw [phase]; exact (Phase.not_emergency_iff _).2 calm) vacant) hu back.display
  · have press := servicePresses_press codes (s := s.polled k t) (by rw [cabins]; exact cabin)
    rw [takeEvents_service (named.trans naming) known (by rw [phase]; exact (Phase.not_emergency_iff _).2 calm) occupied] at hu
    obtain ⟨left, state, reports⟩ := pressed_after_poll here press .service
    rw [← hu] at left state reports
    exact ⟨left, state _ back.display, reports⟩
  · rw [hu]
    exact replyParts_frame ((only.mono _ (by decide)).trans (takeEvents_only _ _ _))

end Sys2Proof.Machine
end

section
/-! SUPPORT. The WRITE of CABINS (R80 to R82): its field list and its checks. -/

namespace Sys2Proof.Machine

/-! ### The field list -/

/-- R80: its fields, in the order of their numbers. -/
def CabinWrite.fields (w : CabinWrite) : List (Nat × Option FieldValue) :=
  [(1, w.number.map .number), (2, w.display.map .number), (3, w.station.map optValue), (4, w.group.map optValue),
   (5, w.occupancy.map .number), (6, w.language.map optValue), (7, w.greeting.map optValue)]

theorem CabinWrite.pairs_eq (w : CabinWrite) : w.pairs = pairsOf w.fields := by
  unfold CabinWrite.pairs CabinWrite.fields pairsOf
  simp only [List.flatMap_cons, List.flatMap_nil, List.append_assoc, List.append_nil]

theorem CabinWrite.fields_nodup (w : CabinWrite) : (w.fields.map (·.1)).Nodup := (by decide : [1, 2, 3, 4, 5, 6, 7].Nodup)

theorem CabinWrite.plain (w : CabinWrite) : PlainFields 8 w.pairs := by
  rw [w.pairs_eq]
  refine .of_fields w.fields_nodup (by decide : 7 ≤ 22) ?_
  unfold CabinWrite.fields
  simp only [List.forall_mem_cons]
  exact ⟨plain_number rfl _, plain_number rfl _, plain_opt rfl _, plain_opt rfl _, plain_number rfl _, plain_opt rfl _, plain_opt rfl _,
    List.forall_mem_nil _⟩

theorem CabinWrite.supplied_eq (w : CabinWrite) {fs : FieldList} (h : fs.Perm w.pairs) (k : Nat) {f : Nat} {v : Option FieldValue}
    (hf : w.fields[k]? = some (f, v)) : supplied fs f = v := by
  rw [supplied_perm h w.plain.nodup, w.pairs_eq]
  exact supplied_pairsOf w.fields_nodup (List.mem_of_getElem? hf)

/-- R165: a supplied number of a field with a none value breaks a condition. -/
theorem numberBreaks_opt_iff {fs : FieldList} {n : Nat} {v : Option (Option Nat)} (h : supplied fs n = v.map optValue) (ok : Nat → Bool) :
    numberBreaks fs n ok = true ↔ ∃ x, v = some (some x) ∧ ok x = false := by
  unfold numberBreaks
  rw [h]
  rcases v with _ | _ | x
  all_goals simp [optValue]

theorem supplies_opt {fs : FieldList} {n : Nat} {v : Option (Option Nat)} (h : supplied fs n = v.map optValue) :
    supplies fs n = true ↔ v ≠ none := by
  rw [supplies_eq, h, Option.isSome_map, Option.isSome_iff_ne_none]

/-- R81, step 2. -/
theorem CabinWrite.valueRefused_iff (w : CabinWrite) {fs : FieldList} (h : fs.Perm w.pairs) :
    (unknownField 8 fs || numberBreaks fs 1 (fun v => decide (1 ≤ v) && decide (v ≤ 65535)) ||
      numberBreaks fs 5 (fun v => decide (v ≤ 1)) || numberBreaks fs 4 (fun v => decide (65 ≤ v) && decide (v ≤ 90))) = true ↔
      w.ValueRefused := by
  rw [(w.plain.perm h).known, Bool.false_or, Bool.or_eq_true, Bool.or_eq_true, numberBreaks_iff (w.supplied_eq h 0 rfl),
    numberBreaks_iff (w.supplied_eq h 4 rfl), numberBreaks_opt_iff (w.supplied_eq h 3 rfl), or_assoc, CabinWrite.ValueRefused]
  simp only [Bool.and_eq_false_iff, decide_eq_false_iff_not, Nat.not_le, Nat.lt_one_iff]

theorem cabinDisplay_false_iff (s : State) (d : Nat) : s.cabinDisplay d = false ↔ ∀ x, s.display d = some x → x.cfg.cls ≠ .cabin := by
  unfold State.cabinDisplay
  cases s.display d with
  | none => simp
  | some x => simp

/-- R81, step 3. -/
theorem CabinWrite.displayRefused_iff (w : CabinWrite) (s : State) {fs : FieldList} (h : fs.Perm w.pairs) :
    numberBreaks fs 2 (fun v => decide (v ≤ 511) && s.cabinDisplay v) = true ↔ w.DisplayRefused s := by
  rw [numberBreaks_iff (w.supplied_eq h 1 rfl), CabinWrite.DisplayRefused]
  refine exists_congr fun d => and_congr_right fun _ => ?_
  rw [Bool.and_eq_false_iff, decide_eq_false_iff_not, Nat.not_le, cabinDisplay_false_iff]
  by_cases far : 511 < d
  · simp only [far, true_or, implies_true]
  · simp only [far, false_or]

/-- R81, step 4. -/
theorem CabinWrite.adjusted_iff (w : CabinWrite) {fs : FieldList} (h : fs.Perm w.pairs) : numbersAdjusted 8 fs = true ↔ w.Adjusted := by
  rw [numbersAdjusted_perm h, numbersAdjusted_iff, w.pairs_eq]
  have free : ∀ n ∈ [1, 2, 4, 5], ∀ v, bring 8 n v = v := by
    intro n hn v
    simp only [List.mem_cons, List.not_mem_nil, or_false] at hn
    rcases hn with rfl | rfl | rfl | rfl
    all_goals rfl
  have station := bring_ne_iff (t := 8) (n := 3) rfl rfl (by decide)
  have language := bring_ne_iff (t := 8) (n := 6) rfl rfl (by decide)
  have greeting := bring_ne_iff (t := 8) (n := 7) rfl rfl (by decide)
  simp [mem_pairsOf, CabinWrite.fields, CabinWrite.Adjusted, or_and_right, exists_or, free, station, language, greeting, optValue_number]

/-- R81, step 5. -/
theorem cabinTaken_iff (s : State) (i : Nat) (c : Cabin) :
    s.cabinTaken i c = true ↔ ∃ e ∈ s.cabins, e.1 ≠ i ∧ (e.2.number = c.number ∨ e.2.display = c.display) := by
  simp only [State.cabinTaken, List.any_eq_true, Bool.and_eq_true, Bool.or_eq_true, bne_iff_ne, beq_iff_eq]

theorem cabinMoved_iff (old : Option Cabin) (c : Cabin) : cabinMoved old c = true ↔ c.MovesFrom old := by
  cases old with
  | none => simp [cabinMoved, Cabin.MovesFrom]
  | some o => simp [cabinMoved, Cabin.MovesFrom]

theorem cabinNames_iff (old : Option Cabin) (c : Cabin) (d : Nat) : cabinNames old c d = true ↔ c.Names old d := by
  cases old with
  | none => simp [cabinNames, Cabin.Names]
  | some o => simp [cabinNames, Cabin.Names]

/-! ### The entry before and after -/

/-- R80: a cabin that stands, or the defaults of one that a WRITE with its required fields creates. -/
def State.CabinBefore (s : State) (w : CabinWrite) (i : Nat) (c : Cabin) : Prop :=
  Tab.fetch s.cabins i = some c ∨
    (Tab.fetch s.cabins i = none ∧ w.number ≠ none ∧ w.display ≠ none ∧
      c = { c with station := none, group := none, occupied := false, language := none, greeting := none, dnd := false,
                   mur := false, assist := false, swept := false })

/-- R80, R81: what a WRITE leaves of the defaults is decided by the fields it must supply. -/
theorem Cabin.created_written {w : CabinWrite} {c : Cabin} {fs : FieldList} (h : fs.Perm w.pairs) (number : w.number ≠ none)
    (display : w.display ≠ none)
    (hc : c = { c with station := none, group := none, occupied := false, language := none, greeting := none, dnd := false,
                       mur := false, assist := false, swept := false }) :
    Cabin.created.written fs = c.written fs := by
  obtain ⟨n, hn⟩ := Option.ne_none_iff_exists'.1 number
  obtain ⟨d, hd⟩ := Option.ne_none_iff_exists'.1 display
  have own : ∀ old, numField 8 fs 1 old = bring 8 1 n := fun old => by
    rw [numField_eq 8 fs 1 old w.number (w.supplied_eq h 0 rfl), hn]
    rfl
  have shown : ∀ old, numField 8 fs 2 old = bring 8 2 d := fun old => by
    rw [numField_eq 8 fs 2 old w.display (w.supplied_eq h 1 rfl), hd]
    rfl
  rw [hc, Cabin.written, Cabin.written, own, own, shown, shown]
  rfl

/-- R81, R82: the cabin that the checks of a WRITE read. -/
theorem State.CabinBefore.written {s : State} {w : CabinWrite} {i : Nat} {c c' : Cabin} (h : s.CabinBefore w i c) (leaves : w.Leaves c c')
    {fs : FieldList} (perm : fs.Perm w.pairs) : ((Tab.fetch s.cabins i).getD Cabin.created).written fs = c' := by
  rw [leaves.unique (Cabin.written_leaves w c perm)]
  rcases h with here | ⟨absent, number, display, hc⟩
  · rw [here, Option.getD_some]
  · rw [absent, Option.getD_none]
    exact Cabin.created_written perm number display hc

/-- R80: a WRITE that creates a cabin supplies its required fields. -/
theorem State.CabinBefore.required {s : State} {w : CabinWrite} {i : Nat} {c : Cabin} (h : s.CabinBefore w i c) {fs : FieldList}
    (perm : fs.Perm w.pairs) (missing : (alwaysRequires 8 || !s.entryExists 8 i) = true) :
    (requiredFields 8).all (supplies fs) = true := by
  rcases h with here | ⟨-, number, display, -⟩
  · rw [State.entryExists, here] at missing
    cases missing
  · have given : ∀ n ∈ [1, 2], supplies fs n = true := by
      intro n hn
      simp only [List.mem_cons, List.not_mem_nil, or_false] at hn
      rcases hn with rfl | rfl
      · exact (supplies_number (w.supplied_eq perm 0 rfl)).2 number
      · exact (supplies_number (w.supplied_eq perm 1 rfl)).2 display
    exact List.all_eq_true.2 given

/-- R81: the checks of a WRITE in their order, and what is left of a taken one. -/
theorem writeCabin_cases {s : State} {w : CabinWrite} {i : Nat} {c : Cabin} (before : s.CabinBefore w i c) {fs : FieldList}
    (perm : fs.Perm w.pairs) :
    (w.ValueRefused → s.writeCabin i fs = .error .badField) ∧
      (¬w.ValueRefused → w.DisplayRefused s → s.writeCabin i fs = .error .badRef) ∧
      ∀ c', w.Leaves c c' → ¬w.ValueRefused → ¬w.DisplayRefused s →
        (s.cabinTaken i c' = true → s.writeCabin i fs = .error .conflict) ∧
          (¬s.cabinTaken i c' = true → s.writeCabin i fs =
            .ok ((s.setCabin i c').cabinChanged (Tab.fetch s.cabins i) c', numbersAdjusted 8 fs)) := by
  have value := w.valueRefused_iff perm
  have display := w.displayRefused_iff s perm
  unfold State.writeCabin
  refine ⟨fun h => if_pos (value.2 h), fun h1 h2 => (if_neg (mt value.1 h1)).trans (if_pos (display.2 h2)), fun c' leaves h1 h2 => ?_⟩
  dsimp only
  rw [before.written leaves perm]
  exact ⟨fun h3 => (if_neg (mt value.1 h1)).trans ((if_neg (mt display.1 h2)).trans (if_pos h3)),
    fun h3 => (if_neg (mt value.1 h1)).trans ((if_neg (mt display.1 h2)).trans (if_neg h3))⟩

/-! ### The checks before them (R165, R168, R174) -/

/-- R168: a WRITE that passes every check but that of the phase. -/
theorem write_phase {s : State} {a : Arrival} {t i : Nat} {fs : FieldList} (asked : s.Asked a) (plain : PlainFields t fs)
    (table : tableOk t = true) (index : indexOk t i false = true)
    (required : (alwaysRequires t || !s.entryExists t i) = true → (requiredFields t).all (supplies fs) = true)
    (access : s.mayWrite a.origin t i = true) (phase : s.phasePassesWrite a.origin t fs = false) :
    exec (.write a t i fs) s = .next (s.answered a 6 0 []) := by
  have once := (hasDuplicate_eq_false_iff fs).2 plain.nodup
  have form : s.writeFormOk t i fs = true := by
    rw [State.writeFormOk, once, plain.kindsOk, table, index]
    cases missing : alwaysRequires t || !s.entryExists t i with
    | false => rfl
    | true => exact required missing
  have answer : s.answerWrite a.origin t i fs = s.refuse .phase := by
    simp [State.answerWrite, State.checked, firstRefusal, form, table, index, access, phase]
  exact exec_write asked plain answer

theorem writeTable_cabin {s : State} {o i : Nat} {fs : FieldList} (h : fs ≠ []) : s.writeTable o 8 i fs = s.writeCabin i fs := by
  cases fs with
  | nil => exact absurd rfl h
  | cons p fs => rfl

/-- R174: in ALERT and MUSTER the display and the muster station of a cabin are the BRIDGE's alone. -/
theorem phasePassesWrite_cabin (s : State) (o : Nat) (w : CabinWrite) {fs : FieldList} (h : fs.Perm w.pairs) :
    s.phasePassesWrite o 8 fs = false ↔
      (s.ship.phase = .alert ∨ s.ship.phase = .muster) ∧ o ≠ originBridge ∧ (w.display ≠ none ∨ w.station ≠ none) := by
  have gated : (gatedTable 8 || (8 == tblCabins && (supplies fs 2 || supplies fs 3))) = true ↔ w.display ≠ none ∨ w.station ≠ none := by
    rw [← supplies_number (w.supplied_eq h 1 rfl), ← supplies_opt (w.supplied_eq h 2 rfl), ← Bool.or_eq_true]
    rfl
  rw [← Phase.emergency_iff, ← gated]
  simp only [State.phasePassesWrite, Bool.or_eq_false_iff, Bool.not_eq_false', beq_eq_false_iff_ne, and_assoc]

end Sys2Proof.Machine
end

section
/-! SUPPORT. The effects of a taken WRITE of CABINS (R82, R93): held values, marks and recounts. -/

namespace Sys2Proof.Machine

/-! ### Held values (R28) -/

/-- R28: a display without its held route values at some positions. -/
def Display.withoutHeld (x : Display) (p : Nat → Bool) : Display := { x with rt := { x.rt with held := x.rt.held.filter fun h => !p h.1 } }

theorem withoutHeld_twice (x : Display) (p : Nat → Bool) : (x.withoutHeld p).withoutHeld p = x.withoutHeld p := by
  simp only [Display.withoutHeld, List.filter_filter, Bool.and_self]

theorem display_clearHeld (s : State) (d : Nat) (p : Nat → Bool) (j : Nat) :
    (s.clearHeld d p).display j = if j = d then (s.display d).map (·.withoutHeld p) else s.display j :=
  display_onRuntime _ _ _ _

theorem display_clearHeldMany (s : State) (ds : List Nat) (p : Nat → Bool) (j : Nat) :
    (s.clearHeldMany ds p).display j = if j ∈ ds then (s.display j).map (·.withoutHeld p) else s.display j := by
  induction ds generalizing s with
  | nil => rfl
  | cons d ds ih =>
    refine (ih (s.clearHeld d p)).trans ?_
    rw [display_clearHeld]
    by_cases hd : j = d
    · subst hd
      simp only [if_true, List.mem_cons_self, Option.map_map, Function.comp_def, withoutHeld_twice, ite_self]
    · simp only [List.mem_cons, hd, false_or, if_false]

/-- Held values cleared are of the displays alone. -/
theorem clearHeldMany_frame (s : State) (ds : List Nat) (p : Nat → Bool) : { s.clearHeldMany ds p with displays := s.displays } = s := by
  induction ds generalizing s with
  | nil => rfl
  | cons d ds ih =>
    have rest := ih (s.clearHeld d p)
    exact congrArg (fun t : State => { t with displays := s.displays }) rest

theorem clearHeldMany_setCabin (s : State) (i : Nat) (c : Cabin) (ds : List Nat) (p : Nat → Bool) :
    (s.setCabin i c).clearHeldMany ds p = (s.clearHeldMany ds p).setCabin i c := by
  induction ds generalizing s with
  | nil => rfl
  | cons d ds ih => exact ih (s.clearHeld d p)

/-- R82, step 2, has no eye for the cabins. -/
theorem cabinHeld_setCabin (s : State) (i : Nat) (e : Cabin) (old : Option Cabin) (c : Cabin) :
    (s.setCabin i e).cabinHeld old c = (s.cabinHeld old c).setCabin i e := by
  unfold State.cabinHeld
  split
  · exact clearHeldMany_setCabin _ _ _ _ _
  · rfl

theorem cabinHeld_frame (s : State) (old : Option Cabin) (c : Cabin) : { s.cabinHeld old c with displays := s.displays } = s := by
  unfold State.cabinHeld
  split
  · exact clearHeldMany_frame _ _ _
  · rfl

theorem cabinHeld_screens (s : State) (old : Option Cabin) (c : Cabin) : s.ScreensOnly (s.cabinHeld old c) := by
  unfold State.cabinHeld
  split
  · exact clearHeldMany_screens _ _ _
  · rfl

/-- R82, step 2: where the cabin moves, held value 8 goes at its display and at the one named before. -/
theorem display_cabinHeld (s : State) (old : Option Cabin) (c : Cabin) (d : Nat) :
    (c.MovesFrom old ∧ c.Names old d → (s.cabinHeld old c).display d = (s.display d).map (·.withoutHeld stationPosition)) ∧
      (¬(c.MovesFrom old ∧ c.Names old d) → (s.cabinHeld old c).display d = s.display d) := by
  have listed : ∀ x, s.display d = some x →
      (d ∈ (s.displays.filter fun e => cabinNames old c e.1).map (·.1) ↔ c.Names old d) := fun x hx => by
    rw [← cabinNames_iff, List.mem_map]
    constructor
    · rintro ⟨e, he, rfl⟩
      exact (List.mem_filter.1 he).2
    · exact fun named => ⟨(d, x), List.mem_filter.2 ⟨Tab.mem_of_fetch hx, named⟩, rfl⟩
  unfold State.cabinHeld
  split
  · rename_i moved
    have moves := (cabinMoved_iff old c).1 moved
    rw [display_clearHeldMany]
    cases hx : s.display d with
    | none => simp only [Option.map_none, ite_self, implies_true, and_self]
    | some x =>
      exact ⟨fun h => if_pos ((listed x hx).2 h.2), fun h => if_neg fun named => h ⟨moves, (listed x hx).1 named⟩⟩
  · rename_i still
    exact ⟨fun h => absurd ((cabinMoved_iff old c).2 h.1) still, fun _ => rfl⟩

/-! ### Marks (R132) -/

/-- R132: the displays of some indices marked at one urgency, in a table of any form. -/
theorem markWhere_indices_round (s : State) (p : Nat → Bool) (u : Urgency) :
    s.Marks (s.markWhere (fun d _ => p d) u) fun d _ v => p d = true ∧ v = u := by
  have listed : (s.displays.filterMap fun e => (if p e.1 then some u else none).map fun v => (e.1, v)) =
      (s.displays.filter fun e => p e.1).map fun e => (e.1, u) := by
    rw [← List.filterMap_eq_map, ← List.filterMap_eq_filter, List.filterMap_filterMap]
    refine List.filterMap_congr fun e _ => ?_
    by_cases h : p e.1 <;> simp [Option.guard, h]
  have marks : s.markWhere (fun d _ => p d) u = s.marks ((s.displays.filter fun e => p e.1).map fun e => (e.1, u)) :=
    congrArg s.marks listed
  rw [marks]
  refine (marks_round _ s (fun a ha b hb _ => ?_) fun rising => ?_).congr_marks fun d x hx v => ?_
  · obtain ⟨_, _, rfl⟩ := List.mem_map.1 ha
    obtain ⟨_, _, rfl⟩ := List.mem_map.1 hb
    rfl
  · rw [List.map_map]
    exact List.pairwise_map.2 (List.Pairwise.filter _ rising)
  · rw [List.mem_map]
    constructor
    · rintro ⟨e, he, same⟩
      cases same
      exact ⟨(List.mem_filter.1 he).2, rfl⟩
    · rintro ⟨named, rfl⟩
      exact ⟨(d, x), List.mem_filter.2 ⟨Tab.mem_of_fetch hx, named⟩, rfl⟩

theorem cabinMarks_screens (s : State) (old : Option Cabin) (c : Cabin) : s.ScreensOnly (s.cabinMarks old c) := by
  unfold State.cabinMarks
  split
  · rfl
  · exact markWhere_screens _ _ _

/-- R82, step 3. -/
theorem cabinMarks_round (s : State) (old : Option Cabin) (c : Cabin) :
    s.Marks (s.cabinMarks old c) fun d _ u => old ≠ some c ∧ c.Names old d ∧ u = emergencyUrgency s.ship.phase := by
  unfold State.cabinMarks
  split
  · rename_i same
    exact .none fun _ _ _ _ h => h.1 same
  · rename_i changed
    refine (markWhere_indices_round s _ _).congr_marks fun d x _ u => ?_
    rw [cabinNames_iff, State.writeUrgency_eq]
    exact ⟨fun h => ⟨changed, h⟩, fun h => h.2⟩

/-! ### Recounts (R92, R93) -/

theorem recountStation_recounts (s : State) (n : Option Nat) :
    (s.recountStation n).RecountsStation s.stamp n s.losses (s.recountStation n).losses := by
  cases n with
  | none => rfl
  | some d => exact recount_recounts s d

/-- R92, R93: a recount depends on the destinations, the cabins and the displays alone. -/
theorem State.RecountsStation.congr {t u : State} {st : Stamp} {n : Option Nat} {before after : Tab Nat × (List Report × Nat)}
    (h : t.RecountsStation st n before after) (dests : u.dests = t.dests) (cabins : u.cabins = t.cabins)
    (displays : u.displays = t.displays) : u.RecountsStation st n before after := by
  have counts : u.lossAt = t.lossAt := by
    funext d cells
    simp only [State.lossAt, State.display, cabins, displays]
  cases n with
  | none => exact h
  | some d =>
    unfold State.RecountsStation State.Recounts at h ⊢
    rwa [counts, dests]

/-- R82, step 4: two stations recounted one after the other. -/
theorem recountStation_twice (s : State) (n m : Option Nat) :
    ((s.recountStation n).recountStation m).RecountsStation s.stamp n s.losses (s.recountStation n).losses ∧
      ((s.recountStation n).recountStation m).RecountsStation s.stamp m (s.recountStation n).losses
        ((s.recountStation n).recountStation m).losses := by
  have first := recountStation_only s n
  have second := recountStation_only (s.recountStation n) m
  refine ⟨(recountStation_recounts s n).congr (second .dests (by decide)) (second .cabins (by decide)) (second .displays (by decide)), ?_⟩
  rw [← stamp_of_ship (first .ship (by decide))]
  exact recountStation_recounts _ m

/-- R82, R93: the recounts that a WRITE brings, from the counts and the Report Queue of `s` to those of `t`, `mid` between the two
stations. -/
structure State.CabinRecounted (s t : State) (mid : Tab Nat × (List Report × Nat)) (old : Option Cabin) (c : Cabin) : Prop where
  left : ∀ o, old = some o → o.station ≠ c.station → t.RecountsStation s.stamp o.station s.losses mid
  once : (∀ o, old = some o → o.station = c.station) → mid = s.losses
  taken : c.MovesFrom old → t.RecountsStation s.stamp c.station mid t.losses
  still : ¬c.MovesFrom old → t.losses = s.losses

/-- R82, step 4, where the cabin has moved. -/
theorem cabinRecounts_moved {s : State} {old : Option Cabin} {c : Cabin} (moves : c.MovesFrom old) :
    ∃ mid, s.CabinRecounted (s.cabinRecounts old c) mid old c := by
  have single := recountStation_recounts s c.station
  cases old with
  | none => exact ⟨s.losses, nofun, fun _ => rfl, fun _ => single, fun h => absurd moves h⟩
  | some o =>
    by_cases same : o.station = c.station
    · rw [show s.cabinRecounts (some o) c = s.recountStation c.station from if_pos same]
      exact ⟨s.losses, fun o' ho' differs => by cases ho'; exact absurd same differs, fun _ => rfl, fun _ => single,
        fun h => absurd moves h⟩
    · obtain ⟨first, second⟩ := recountStation_twice s o.station c.station
      rw [show s.cabinRecounts (some o) c = (s.recountStation o.station).recountStation c.station from if_neg same]
      exact ⟨_, fun o' ho' _ => by cases ho'; exact first, fun h => absurd (h o rfl) same, fun _ => second, fun h => absurd moves h⟩

theorem cabinRecounts_only (s : State) (old : Option Cabin) (c : Cabin) : s.Only (s.cabinRecounts old c) lossParts := by
  unfold State.cabinRecounts
  split
  · split
    · exact recountStation_only _ _
    · exact (recountStation_only _ _).trans (recountStation_only _ _)
  · exact recountStation_only _ _

/-! ### All of a taken WRITE -/

/-- R82, steps 1 to 3: the cabin put, held values cleared and the displays marked, before any recount. -/
def State.cabinMarked (s : State) (i : Nat) (old : Option Cabin) (c : Cabin) : State :=
  ((s.setCabin i c).cabinHeld old c).cabinMarks old c

section Taken

variable (s : State) (i : Nat) (old : Option Cabin) (c : Cabin)

theorem cabinChanged_eq :
    (s.setCabin i c).cabinChanged old c =
      if cabinMoved old c then (s.cabinMarked i old c).cabinRecounts old c else s.cabinMarked i old c := rfl

theorem cabinMarked_screens : (s.setCabin i c).ScreensOnly (s.cabinMarked i old c) :=
  (cabinHeld_screens _ _ _).trans (cabinMarks_screens _ _ _)

theorem cabinMarked_only : s.Only (s.cabinMarked i old c) [.cabins, .displays, .strings] :=
  ((setCabin_alone s i c).mono _ (by decide)).trans ((cabinMarked_screens s i old c).only.mono _ (by decide))

theorem cabinChanged_losses : (s.cabinMarked i old c).Only ((s.setCabin i c).cabinChanged old c) lossParts := by
  rw [cabinChanged_eq]
  split
  · exact cabinRecounts_only _ _ _
  · exact .refl _ _

theorem cabinChanged_cabins (j : Nat) :
    Tab.fetch ((s.setCabin i c).cabinChanged old c).cabins j = if j = i then some c else Tab.fetch s.cabins j := by
  have marked : (s.cabinMarked i old c).cabins = (s.setCabin i c).cabins := (cabinMarked_screens s i old c).cabins_eq
  have counted : ((s.setCabin i c).cabinChanged old c).cabins = (s.cabinMarked i old c).cabins :=
    cabinChanged_losses s i old c .cabins (by decide)
  rw [counted, marked]
  exact Tab.fetch_store _ _ _ _

/-- R82, step 3, from the state without the held values that go. -/
theorem cabinChanged_marks :
    (s.cabinHeld old c).Marks ((s.setCabin i c).cabinChanged old c) fun d _ u =>
      old ≠ some c ∧ c.Names old d ∧ u = emergencyUrgency s.ship.phase := by
  have only := cabinChanged_losses s i old c
  have displays : ((s.setCabin i c).cabinChanged old c).displays = (s.cabinMarked i old c).displays := only .displays (by decide)
  have round := cabinMarks_round ((s.setCabin i c).cabinHeld old c) old c
  rw [show ((s.setCabin i c).cabinHeld old c).ship = s.ship from (cabinHeld_screens _ _ _).ship_eq] at round
  have held : (s.setCabin i c).cabinHeld old c = (s.cabinHeld old c).setCabin i c := cabinHeld_setCabin s i c old c
  exact round.congr (by rw [held]; rfl) (by rw [held]; rfl) (funext fun d => congrArg (Tab.fetch · d) displays) (only .strings (by decide))
    fun _ => by rw [displays]; rfl

/-- R82: a WRITE that leaves the cabin as it was touches no display. -/
theorem cabinChanged_still :
    ((s.setCabin i c).cabinChanged (some c) c).displays = s.displays ∧ ((s.setCabin i c).cabinChanged (some c) c).strings = s.strings := by
  have still : cabinMoved (some c) c = false := by simp [cabinMoved]
  rw [cabinChanged_eq, State.cabinMarked, State.cabinHeld, still, State.cabinMarks, if_pos rfl]
  exact ⟨rfl, rfl⟩

/-- R82, step 4, seen from the state before the WRITE. -/
theorem cabinChanged_recounted : ∃ mid, s.CabinRecounted ((s.setCabin i c).cabinChanged old c) mid old c := by
  have only := cabinMarked_only s i old c
  have stamp : (s.cabinMarked i old c).stamp = s.stamp := stamp_of_ship (only .ship (by decide))
  have losses : (s.cabinMarked i old c).losses = s.losses :=
    Prod.ext (only .lossReported (by decide)) (Prod.ext (only .reports (by decide)) (only .reportArrival (by decide)))
  rw [cabinChanged_eq]
  by_cases moves : c.MovesFrom old
  · rw [if_pos ((cabinMoved_iff old c).2 moves)]
    obtain ⟨mid, left, once, taken, still⟩ := cabinRecounts_moved (s := s.cabinMarked i old c) moves
    rw [stamp, losses] at left
    rw [stamp] at taken
    rw [losses] at once still
    exact ⟨mid, left, once, taken, still⟩
  · rw [if_neg (mt (cabinMoved_iff old c).1 moves)]
    refine ⟨_, fun o ho differs => absurd (fun o' ho' => ?_) moves, fun _ => rfl, fun h => absurd h moves, fun _ => losses⟩
    rw [ho] at ho'
    cases ho'
    exact Or.inl differs

theorem cabinChanged_frame :
    { (s.setCabin i c).cabinChanged old c with
      cabins := s.cabins, displays := s.displays, strings := s.strings, lossReported := s.lossReported, reports := s.reports,
      reportArrival := s.reportArrival } = s := by
  have only : s.Only ((s.setCabin i c).cabinChanged old c) (.cabins :: .displays :: .strings :: lossParts) :=
    ((cabinMarked_only s i old c).mono _ (by decide)).trans ((cabinChanged_losses s i old c).mono _ (by decide))
  refine State.eq_of_agree fun p => ?_
  have agree := only p
  cases p
  case cabins | displays | strings | lossReported | reports | reportArrival => rfl
  all_goals exact agree (by decide)

end Taken

/-! ### The statement -/

theorem index_cabin {i : Nat} (hi : i < 384) : indexOk 8 i false = true := by
  simp [indexOk, tableSize, Config.cabinCount, tblProgramme, hi]

/-- R165, R168: a WRITE of a cabin reaches the checks of R81, where access lets it, unless the phase bars it. -/
theorem reaches_cabin {s : State} {a : Arrival} {w : CabinWrite} {i : Nat} {c : Cabin} (asked : s.Asked a) (hi : i < 384)
    (access : s.WriteAccess a.origin 8 i) (before : s.CabinBefore w i c) {fs : FieldList} (perm : fs.Perm w.pairs)
    (phase : s.phasePassesWrite a.origin 8 fs = true) : s.WriteReaches a 8 i fs :=
  ⟨asked, w.plain.perm perm, rfl, index_cabin hi, before.required perm,
    (s.mayWrite_iff _ 8 i hi).2 access, phase⟩

/-- Settles O33: the phase, the checks of R81 in their order, and the effects of R82. -/
theorem cabinWritten : Obligations.CabinWritten := by
  intro a i w fs c s asked hi access perm nonempty before
  have before : s.CabinBefore w i c := before
  have barred := phasePassesWrite_cabin s a.origin w perm
  have table := writeTable_cabin (s := s) (o := a.origin) (i := i) nonempty
  refine ⟨fun emergency origin supplied => ?_, fun passes => ?_⟩
  · exact write_phase asked (w.plain.perm perm) rfl (index_cabin hi) (before.required perm) ((s.mayWrite_iff _ 8 i hi).2 access)
      (barred.2 ⟨emergency, origin, supplied⟩)
  · have phase : s.phasePassesWrite a.origin 8 fs = true := by
      rw [← Bool.not_eq_false, barred]
      rintro ⟨emergency, origin, supplied⟩
      rcases passes with normal | standDown | bridge | ⟨display, station⟩
      · rw [normal] at emergency
        exact absurd emergency (by decide)
      · rw [standDown] at emergency
        exact absurd emergency (by decide)
      · exact origin bridge
      · exact supplied.elim (· display) (· station)
    have reaches := reaches_cabin asked hi access before perm phase
    obtain ⟨value, display, rest⟩ := writeCabin_cases before perm
    refine ⟨fun h => reaches.refused (table.trans (value h)), fun h1 h2 => reaches.refused (table.trans (display h1 h2)),
      fun c' leaves h1 h2 => ?_⟩
    obtain ⟨conflict, taken⟩ := rest c' leaves h1 h2
    refine ⟨fun other => reaches.refused (table.trans (conflict ((cabinTaken_iff s i c').2 other))), fun free => ?_⟩
    have free : ¬s.cabinTaken i c' = true := fun h => by
      obtain ⟨e, he, hne, same⟩ := (cabinTaken_iff s i c').1 h
      exact same.elim (free e he hne).1 (free e he hne).2
    obtain ⟨mid, left, once, now, still⟩ := cabinChanged_recounted s i (Tab.fetch s.cabins i) c'
    refine ⟨_, _, s.cabinHeld (Tab.fetch s.cabins i) c', mid, reaches.taken (table.trans (taken free)), code_le_one _,
      (code_one_iff _).trans (w.adjusted_iff perm), cabinChanged_cabins s i _ c', display_cabinHeld s _ c', cabinHeld_frame s _ c',
      cabinChanged_marks s i _ c', fun same => ?_, left, once, now, still, cabinChanged_frame s i _ c'⟩
    rw [same]
    exact cabinChanged_still s i c'

end Sys2Proof.Machine
end

section
/-! SUPPORT. The WRITE of NOTICES (R96 to R98, R102): its field list, its check and the marks of what it leaves. -/

namespace Sys2Proof.Machine

/-! ### The field list -/

/-- R96: its fields, in the order of their numbers. -/
def NoticeWrite.fields (w : NoticeWrite) : List (Nat × Option FieldValue) :=
  [(1, w.priority.map .number), (2, w.classMask.map .number), (3, w.deckMask.map .number), (4, w.text.map .number),
   (5, w.start.map optValue), (6, w.stop.map optValue)]

theorem NoticeWrite.pairs_eq (w : NoticeWrite) : w.pairs = pairsOf w.fields := by
  unfold NoticeWrite.pairs NoticeWrite.fields pairsOf
  simp only [List.flatMap_cons, List.flatMap_nil, List.append_assoc, List.append_nil]

theorem NoticeWrite.fields_nodup (w : NoticeWrite) : (w.fields.map (·.1)).Nodup := (by decide : [1, 2, 3, 4, 5, 6].Nodup)

theorem NoticeWrite.plain (w : NoticeWrite) : PlainFields 9 w.pairs := by
  rw [w.pairs_eq]
  refine .of_fields w.fields_nodup (by decide : 6 ≤ 22) ?_
  unfold NoticeWrite.fields
  simp only [List.forall_mem_cons]
  exact ⟨plain_number rfl _, plain_number rfl _, plain_number rfl _, plain_number rfl _, plain_opt rfl _, plain_opt rfl _,
    List.forall_mem_nil _⟩

theorem NoticeWrite.supplied_eq (w : NoticeWrite) {fs : FieldList} (h : fs.Perm w.pairs) (k : Nat) {f : Nat} {v : Option FieldValue}
    (hf : w.fields[k]? = some (f, v)) : supplied fs f = v := by
  rw [supplied_perm h w.plain.nodup, w.pairs_eq]
  exact supplied_pairsOf w.fields_nodup (List.mem_of_getElem? hf)

/-! ### What is adjusted (R97, step 2) -/

/-- R96: a number outside the range or the mask of its field. -/
theorem NoticeWrite.outOfRange_iff (w : NoticeWrite) {fs : FieldList} (h : fs.Perm w.pairs) :
    numbersAdjusted 9 fs = true ↔
      (∃ v, w.priority = some v ∧ (v < 1 ∨ 15 < v)) ∨ (∃ v, w.classMask = some v ∧ 63 < v) ∨ (∃ v, w.deckMask = some v ∧ 65535 < v) ∨
        (∃ v, w.text = some v ∧ 1023 < v) ∨ ∃ v, (w.start = some (some v) ∨ w.stop = some (some v)) ∧ 368639 < v := by
  rw [numbersAdjusted_perm h, numbersAdjusted_iff, w.pairs_eq]
  have priority := bring_ne_iff (t := 9) (n := 1) rfl rfl (by decide)
  have classes : ∀ v, bring 9 2 v ≠ v ↔ 63 < v := fun v => by
    have masked : bring 9 2 v = v % 64 := rfl
    omega
  have decks := bring_ne_iff (t := 9) (n := 3) rfl rfl (by decide)
  have text := bring_ne_iff (t := 9) (n := 4) rfl rfl (by decide)
  have start := bring_ne_iff (t := 9) (n := 5) rfl rfl (by decide)
  have stop := bring_ne_iff (t := 9) (n := 6) rfl rfl (by decide)
  simp [mem_pairsOf, NoticeWrite.fields, or_and_right, exists_or, optValue_number, priority, classes, decks, text, start, stop]

/-- R97: CONTENT's priority is held to 11. -/
theorem NoticeWrite.held_iff (w : NoticeWrite) (o : Nat) {fs : FieldList} (h : fs.Perm w.pairs) :
    (supplies fs 1 && o == originContent && decide (11 < numField 9 fs 1 0)) = true ↔
      ∃ v, w.priority = some v ∧ o = originContent ∧ 11 < v := by
  have given := w.supplied_eq h 0 (f := 1) rfl
  have clamped : ∀ v, bring 9 1 v = max 1 (min 15 v) := fun _ => rfl
  rw [supplies_eq, given, numField_eq 9 fs 1 0 w.priority given]
  cases w.priority with
  | none => simp
  | some v => simp [clamped]

theorem NoticeWrite.adjusted_iff (w : NoticeWrite) (o : Nat) {fs : FieldList} (h : fs.Perm w.pairs) :
    noticeAdjusted o fs = true ↔ w.Adjusted o := by
  have limit : ∀ v, ((v < 1 ∨ 15 < v) ∨ o = originContent ∧ 11 < v) ↔ v = 0 ∨ priorityLimit o < v := by
    intro v
    unfold priorityLimit
    split
    · omega
    · omega
  rw [noticeAdjusted, Bool.or_eq_true, w.outOfRange_iff h, w.held_iff o h, or_right_comm, ← exists_or, NoticeWrite.Adjusted]
  simp only [← and_or_left, limit]

/-! ### The notice before and after -/

/-- R96: a notice that stands, or the defaults of one that a WRITE with its required fields creates. -/
def State.NoticeBefore (s : State) (w : NoticeWrite) (i : Nat) (n : Notice) : Prop :=
  Tab.fetch s.notices i = some n ∨
    (Tab.fetch s.notices i = none ∧ w.priority ≠ none ∧ w.text ≠ none ∧
      n = { n with classMask := 0x3F#6, deckMask := 0xFFFF#16, start := none, stop := none })

/-- R98: a notice whose current flag is set against the clock. -/
def Notice.clocked (n : Notice) (now : Option Nat) : Notice := { n with current := n.isCurrent now }

theorem Notice.clocked_current_iff (s : State) (n : Notice) : (n.clocked s.nowMinute).current = true ↔ s.CurrentNow (n.clocked s.nowMinute) :=
  (n.clocked s.nowMinute).isCurrent_iff s

/-- R96, R97: what a WRITE leaves of the defaults is decided by the fields it must supply. -/
theorem Notice.created_written {w : NoticeWrite} {n : Notice} {fs : FieldList} (h : fs.Perm w.pairs) (priority : w.priority ≠ none)
    (text : w.text ≠ none) (hn : n = { n with classMask := 0x3F#6, deckMask := 0xFFFF#16, start := none, stop := none })
    (o : Nat) (now : Option Nat) : Notice.created.written o fs now = n.written o fs now := by
  obtain ⟨p, hp⟩ := Option.ne_none_iff_exists'.1 priority
  obtain ⟨m, hm⟩ := Option.ne_none_iff_exists'.1 text
  rw [Notice.written_eq w _ o now h, Notice.written_eq w _ o now h, hn]
  unfold NoticeWrite.leaves
  rw [hp, hm]
  rfl

/-- R97: the notice that the check of a WRITE reads. -/
theorem State.NoticeBefore.written {s : State} {w : NoticeWrite} {i : Nat} {n : Notice} (before : s.NoticeBefore w i n) {fs : FieldList}
    (perm : fs.Perm w.pairs) (o : Nat) :
    ((Tab.fetch s.notices i).getD Notice.created).written o fs s.nowMinute = (w.leaves o n).clocked s.nowMinute := by
  refine Eq.trans ?_ (Notice.written_eq w n o s.nowMinute perm)
  rcases before with here | ⟨absent, priority, text, hn⟩
  · rw [here, Option.getD_some]
  · rw [absent, Option.getD_none]
    exact Notice.created_written perm priority text hn o s.nowMinute

/-- R96: a WRITE that creates a notice supplies its required fields. -/
theorem State.NoticeBefore.required {s : State} {w : NoticeWrite} {i : Nat} {n : Notice} (before : s.NoticeBefore w i n) {fs : FieldList}
    (perm : fs.Perm w.pairs) (missing : (alwaysRequires 9 || !s.entryExists 9 i) = true) :
    (requiredFields 9).all (supplies fs) = true := by
  rcases before with here | ⟨-, priority, text, -⟩
  · rw [State.entryExists, here] at missing
    cases missing
  · have given : ∀ f ∈ [1, 4], supplies fs f = true := by
      intro f hf
      simp only [List.mem_cons, List.not_mem_nil, or_false] at hf
      rcases hf with rfl | rfl
      · exact (supplies_number (w.supplied_eq perm 0 rfl)).2 priority
      · exact (supplies_number (w.supplied_eq perm 3 rfl)).2 text
    exact List.all_eq_true.2 given

/-- R97, step 3. -/
theorem Notice.boundsBad_iff (n : Notice) : n.boundsBad = true ↔ n.BoundsRefused := by
  unfold Notice.boundsBad Notice.BoundsRefused
  cases n.start with
  | none => simp
  | some a =>
    cases n.stop with
    | none => simp
    | some b => simp

/-! ### The marks (R102) -/

/-- R102: the urgencies at which a change of one slot asks for a mark of a configuration: where the notice counts on a side for it, those
of the priorities on the sides where the notice counts at all. -/
def NoticeAsks (p : Phase) (before after : Option Notice) (c : DisplayConfig) (u : Urgency) : Prop :=
  (∃ o, (after = some o ∨ before = some o) ∧ o.CountsFor p c) ∧
    ∃ q, (after = some q ∨ before = some q) ∧ q.current = true ∧ q.AboveFloor p ∧ u = noticeUrgencyAt p q.priority

/-- R102: a mark goes by the priority of a side on which the notice counts, of the higher one where it counts on both. -/
theorem State.noticeMark_counting {s : State} {before after : Option Notice} {c : DisplayConfig} {u : Urgency}
    (h : s.noticeMark before after c = some u) :
    ∃ q, (s.countingSide after = some q ∨ s.countingSide before = some q) ∧ u = s.noticeUrgency q.priority := by
  unfold State.noticeMark at h
  split at h
  · cases h
  · next b hb ha =>
    obtain ⟨-, urgency⟩ := Option.ite_none_right_eq_some.1 h
    exact ⟨b, Or.inr hb, (Option.some.inj urgency).symm⟩
  · next a hb ha =>
    obtain ⟨-, urgency⟩ := Option.ite_none_right_eq_some.1 h
    exact ⟨a, Or.inl ha, (Option.some.inj urgency).symm⟩
  · next b a hb ha =>
    obtain ⟨-, urgency⟩ := Option.ite_none_right_eq_some.1 h
    rcases max_choice b.priority a.priority with higher | higher
    · exact ⟨b, Or.inr hb, by rw [← Option.some.inj urgency, higher]⟩
    · exact ⟨a, Or.inl ha, by rw [← Option.some.inj urgency, higher]⟩

/-- R102: a mark goes at the highest urgency that is asked for. -/
theorem State.noticeMark_highest {s : State} {before after : Option Notice} {c : DisplayConfig} {u : Urgency}
    (h : s.noticeMark before after c = some u) : Highest (NoticeAsks s.ship.phase before after c) u := by
  constructor
  · obtain ⟨q, counting, urgency⟩ := State.noticeMark_counting h
    rw [s.countingSide_eq_some, s.countingSide_eq_some, ← or_and_right] at counting
    obtain ⟨side, current, floor⟩ := counting
    exact ⟨(s.noticeMark_isSome before after c).1 (by rw [h]; rfl), q, side, current, floor, urgency.trans (s.noticeUrgency_eq _)⟩
  · rintro v ⟨-, q, side, current, floor, rfl⟩
    exact s.noticeMark_urgency before after c u q h side current floor

/-- R132: a round said by all the urgencies asked for, where a block gives each display the highest of them, and one wherever any is asked
for. -/
theorem State.Marks.of_highest {s t : State} {f : Nat → Display → Option Urgency} {m : Nat → Display → Urgency → Prop}
    (h : s.Marks t fun d x u => f d x = some u) (highest : ∀ d x u, f d x = some u → Highest (m d x) u)
    (every : ∀ d x u, m d x u → (f d x).isSome = true) : s.Marks t m := by
  refine h.congr_highest (fun d x _ hn u hu => hn u (highest d x u hu).1) fun d x u _ hu => ?_
  obtain ⟨v, hv⟩ := Option.isSome_iff_exists.1 (every d x u hu.1)
  rw [hu.unique (highest d x v hv)]
  exact ⟨hv, fun w hw => Nat.le_of_eq (by rw [Option.some.inj (hv.symm.trans hw)])⟩

/-- R102: the marks of a change of one slot. -/
theorem markNoticeChange_round {s : State} (rising : Tab.Rising s.displays) (l : Tab Notice) (before after : Option Notice) :
    s.Marks (({ s with notices := l } : State).markNoticeChange before after) fun _ y u =>
      NoticeAsks s.ship.phase before after y.cfg u := by
  have round : s.Marks (({ s with notices := l } : State).markNoticeChange before after) fun _ y u =>
      s.noticeMark before after y.cfg = some u :=
    (markBy_round { s with notices := l } rising fun _ y => s.noticeMark before after y.cfg).congr rfl rfl rfl rfl fun _ => rfl
  exact round.of_highest (fun _ _ _ h => State.noticeMark_highest h)
    fun _ y _ asks => (s.noticeMark_isSome before after y.cfg).2 asks.1

/-! ### The check and the outcome -/

/-- R97, R102: the state `t` is what a taken WRITE leaves of `s`, with the notice `x` in the slot. -/
structure State.NoticeTaken (s t : State) (i : Nat) (x : Notice) : Prop where
  table : ∀ j, Tab.fetch t.notices j = if j = i then some x else Tab.fetch s.notices j
  still : Tab.fetch s.notices i = some x → t.displays = s.displays ∧ t.strings = s.strings
  marks : s.TablesOk → s.Marks t fun _ y u => Tab.fetch s.notices i ≠ some x ∧
    (∃ o, (o = x ∨ Tab.fetch s.notices i = some o) ∧ o.CountsFor s.ship.phase y.cfg) ∧
    ∃ q, (q = x ∨ Tab.fetch s.notices i = some q) ∧ q.current = true ∧ q.AboveFloor s.ship.phase ∧
      u = noticeUrgencyAt s.ship.phase q.priority
  rest : { t with notices := s.notices, displays := s.displays, strings := s.strings } = s

theorem noticeTaken_still {s : State} {i : Nat} {x : Notice} (same : Tab.fetch s.notices i = some x) :
    s.NoticeTaken { s with notices := Tab.store s.notices i x } i x :=
  ⟨fun j => Tab.fetch_store _ i j x, fun _ => ⟨rfl, rfl⟩,
    fun _ => (State.Marks.none (s := s) fun _ _ _ _ h => h.1 same).congr rfl rfl rfl rfl fun _ => rfl, rfl⟩

theorem noticeTaken_marked {s : State} {i : Nat} {x : Notice} (changed : Tab.fetch s.notices i ≠ some x) :
    s.NoticeTaken (({ s with notices := Tab.store s.notices i x } : State).markNoticeChange (Tab.fetch s.notices i) (some x)) i x := by
  have screens : ({ s with notices := Tab.store s.notices i x } : State).ScreensOnly
    (({ s with notices := Tab.store s.notices i x } : State).markNoticeChange (Tab.fetch s.notices i) (some x)) := markBy_screens _ _
  refine ⟨fun j => ?_, fun same => absurd same changed, fun tables => ?_, ?_⟩
  · rw [screens.notices_eq]
    exact Tab.fetch_store _ i j x
  · refine (markNoticeChange_round tables.displays.1 _ _ _).congr_marks fun _ y _ u => ?_
    unfold NoticeAsks
    simp only [Option.some.injEq, eq_comm (a := x)]
    exact ⟨fun h => ⟨changed, h⟩, fun h => h.2⟩
  · rw [screens]

/-- R97: the check of a WRITE, and what it leaves. -/
theorem writeNotice_cases {s : State} {w : NoticeWrite} {i : Nat} {n : Notice} (before : s.NoticeBefore w i n) {fs : FieldList}
    (perm : fs.Perm w.pairs) (o : Nat) :
    ((w.leaves o n).BoundsRefused → s.writeNotice o i fs = .error .badField) ∧
      (¬(w.leaves o n).BoundsRefused →
        ∃ t, s.writeNotice o i fs = .ok (t, noticeAdjusted o fs) ∧ s.NoticeTaken t i ((w.leaves o n).clocked s.nowMinute)) := by
  have bounds : ((w.leaves o n).clocked s.nowMinute).boundsBad = true ↔ (w.leaves o n).BoundsRefused := Notice.boundsBad_iff _
  unfold State.writeNotice
  dsimp only
  rw [before.written perm, (w.plain.perm perm).known]
  refine ⟨fun h => if_pos (bounds.2 h), fun h => ⟨_, if_neg (mt bounds.1 h), ?_⟩⟩
  split
  · rename_i same
    exact noticeTaken_still same
  · rename_i changed
    exact noticeTaken_marked changed

/-! ### The statement -/

theorem writeTable_notice {s : State} {o i : Nat} {fs : FieldList} (h : fs ≠ []) : s.writeTable o 9 i fs = s.writeNotice o i fs := by
  cases fs with
  | nil => exact absurd rfl h
  | cons p fs => rfl

theorem index_notice {i : Nat} (h : i < 64) : indexOk 9 i false = true := by
  simpa [indexOk, tableSize, tblProgramme, Config.noticeCount] using h

/-- Settles O30: the check of the bounds, and the taken WRITE with the marks of its change. -/
theorem writeNotice : Obligations.WriteNotice := by
  intro a i w fs n s asked range access perm nonempty before
  have before : s.NoticeBefore w i n := before
  have reaches : s.WriteReaches a 9 i fs :=
    ⟨asked, w.plain.perm perm, rfl, index_notice range, before.required perm, (s.mayWrite_iff _ 9 i range).2 access,
      (phasePasses_ungated (t := 9) rfl rfl s a.origin fs).1⟩
  have table := writeTable_notice (s := s) (o := a.origin) (i := i) nonempty
  obtain ⟨refused, taken⟩ := writeNotice_cases before perm a.origin
  refine ⟨fun h => reaches.refused (table.trans (refused h)), fun h => ?_⟩
  obtain ⟨t, ok, left⟩ := taken h
  exact ⟨_, t, _, reaches.taken (table.trans ok), code_le_one _, (code_one_iff _).trans (w.adjusted_iff a.origin perm), rfl,
    Notice.clocked_current_iff s _, left.table, left.still, left.marks, left.rest⟩

end Sys2Proof.Machine
end

section
/-! SUPPORT. What a body, a frame and a reply that are spelled as R179 to R181 say are read as. -/

namespace Sys2Proof

/-! ### Flags and items one after another -/

theorem flagOf_of_reads {b : Byte} {f : Bool} (h : ReadsAs b f) : flagOf b = f := by
  have zero : b = 0#8 ↔ b.toNat = 0 := by rw [← BitVec.toNat_inj]; rfl
  cases f <;> simpa [flagOf, zero, ReadsAs] using h

theorem length_of_spelledEach {α : Type} {p : α → List Byte → Prop} {size : α → Nat} (each : ∀ x bs, p x bs → bs.length = size x)
    {xs : List α} {bs : List Byte} (h : SpelledEach p xs bs) : bs.length = (xs.map size).sum := by
  induction xs generalizing bs with
  | nil => exact congrArg List.length h
  | cons x xs ih =>
    obtain ⟨front, rest, hx, hxs, rfl⟩ := h
    rw [List.length_append, each x front hx, ih hxs, List.map_cons, List.sum_cons]

theorem readU16s_spelled {ns : List Nat} (fits : ns.all fits16 = true) (rest : List Byte) :
    readU16s ns.length (ns.flatMap be16 ++ rest) = some (ns, rest) :=
  readU16s_writeU16s ns (fun n hn => of_decide_eq_true (List.all_eq_true.1 fits n hn)) rest

theorem byteOf_fits8 {n : Nat} (h : fits8 n = true) : (byteOf n).toNat = n := byteOf_toNat_of_lt (of_decide_eq_true h)

theorem map_toNat_byteOf {ns : List Nat} (fits : ns.all fits8 = true) : (ns.map byteOf).map (·.toNat) = ns := by
  have each : ∀ n ∈ ns, (byteOf n).toNat = id n := fun n hn => byteOf_fits8 (List.all_eq_true.1 fits n hn)
  exact List.map_map.trans ((List.map_congr_left each).trans (List.map_id ns))

theorem num16_fits16 {n : Nat} (h : fits16 n = true) : num16 (byteOf (n / 256)) (byteOf n) = n := num16_be16 (of_decide_eq_true h)

/-! ### Slots, values and pairs (R180) -/

theorem RawSlot.length_of_spelled (x : RawSlot) (bs : List Byte) (h : x.SpelledBy bs) : bs.length = 12 := by
  obtain ⟨e, -, rfl⟩ := h
  rfl

theorem readSlots_cons (n : Nat) (c r w h sz e src a1 a0 l cd p : Byte) (bs : List Byte) :
    readSlots (n + 1) ([c, r, w, h, sz, e, src, a1, a0, l, cd, p] ++ bs) =
      (readSlots n bs).map fun q =>
        ({ column := c.toNat, row := r.toNat, width := w.toNat, height := h.toNat, size := sz.toNat,
           emphasis := flagOf e, source := src.toNat, argument := num16 a1 a0, language := l.toNat,
           condition := cd.toNat, polarity := p.toNat } :: q.1, q.2) := by
  simp only [List.cons_append, List.nil_append, readSlots]
  cases readSlots n bs <;> rfl

theorem readSlots_spelled {xs : List RawSlot} {ys : List Byte} (h : SpelledEach RawSlot.SpelledBy xs ys)
    (fits : xs.all RawSlot.wf = true) (rest : List Byte) : readSlots xs.length (ys ++ rest) = some (xs, rest) := by
  induction xs generalizing ys with
  | nil => rw [show ys = [] from h]; rfl
  | cons x xs ih =>
    obtain ⟨front, tail, ⟨e, flag, rfl⟩, hxs, rfl⟩ := h
    obtain ⟨hx, fits⟩ := Bool.and_eq_true_iff.1 fits
    simp only [RawSlot.wf, Bool.and_eq_true] at hx
    obtain ⟨⟨⟨⟨⟨⟨⟨⟨⟨column, row⟩, width⟩, height⟩, size⟩, source⟩, argument⟩, language⟩, condition⟩, polarity⟩ := hx
    rw [List.append_assoc]
    refine (readSlots_cons ..).trans ?_
    rw [ih hxs fits, byteOf_fits8 column, byteOf_fits8 row, byteOf_fits8 width, byteOf_fits8 height, byteOf_fits8 size,
      byteOf_fits8 source, num16_fits16 argument, byteOf_fits8 language, byteOf_fits8 condition, byteOf_fits8 polarity,
      flagOf_of_reads flag]
    rfl

theorem FieldValue.length_of_spelled (v : FieldValue) (bs : List Byte) (h : v.SpelledBy bs) : bs.length = 1 + v.size := by
  cases v with
  | number n => rw [show bs = _ from h]; rfl
  | flag b => obtain ⟨b, -, rfl⟩ := h; rfl
  | absent => rw [show bs = _ from h]; rfl
  | list ns | string ns =>
    have numbers := writeU16s_length ns
    rw [writeU16s] at numbers
    rw [show bs = _ from h, FieldValue.size, List.length_cons, List.length_cons, numbers]
    omega
  | slots xs =>
    obtain ⟨ys, hxs, rfl⟩ := h
    rw [FieldValue.size, List.length_cons, List.length_cons, length_of_spelledEach RawSlot.length_of_spelled hxs, List.map_const',
      List.sum_replicate, smul_eq_mul]
    omega

theorem pair_length_of_spelled (p : Nat × FieldValue) (bs : List Byte) (h : PairSpelledBy p bs) : bs.length = 2 + p.2.size := by
  obtain ⟨zs, value, rfl⟩ := h
  rw [List.length_cons, p.2.length_of_spelled zs value]
  omega

/-- R180: a value is read back from its tag and its bytes, whatever follows it. -/
theorem readValue_spelled {v : FieldValue} {bs : List Byte} (h : v.SpelledBy bs) (fits : v.wf = true) :
    ∃ tag zs, bs = tag :: zs ∧ ∀ rest, readValue tag.toNat (zs ++ rest) = some (v, rest) := by
  cases v with
  | number n =>
    refine ⟨_, _, h, fun rest => ?_⟩
    exact congrArg (fun m => some (FieldValue.number m, rest)) (num32_be32 (of_decide_eq_true fits))
  | flag f =>
    obtain ⟨b, reads, rfl⟩ := h
    refine ⟨_, _, rfl, fun rest => ?_⟩
    exact congrArg (fun g => some (FieldValue.flag g, rest)) (flagOf_of_reads reads)
  | absent => exact ⟨_, _, h, fun rest => rfl⟩
  | list ns | string ns =>
    obtain ⟨few, fits⟩ := Bool.and_eq_true_iff.1 fits
    refine ⟨_, _, h, fun rest => ?_⟩
    change (readU16s (byteOf ns.length).toNat (ns.flatMap be16 ++ rest)).map _ = _
    rw [byteOf_fits8 few, readU16s_spelled fits]
    rfl
  | slots xs =>
    obtain ⟨few, fits⟩ := Bool.and_eq_true_iff.1 fits
    obtain ⟨ys, hxs, rfl⟩ := h
    refine ⟨_, _, rfl, fun rest => ?_⟩
    change (readSlots (byteOf xs.length).toNat (ys ++ rest)).map _ = _
    rw [byteOf_fits8 few, readSlots_spelled hxs fits]
    rfl

theorem readPairs_spelled {fs : FieldList} {ys : List Byte} (h : SpelledEach PairSpelledBy fs ys)
    (fits : fs.all (fun p => fits8 p.1 && p.2.wf) = true) : readPairs fs.length ys = some (fs, []) := by
  induction fs generalizing ys with
  | nil => rw [show ys = [] from h]; rfl
  | cons p fs ih =>
    obtain ⟨front, tail, ⟨bs, value, rfl⟩, hfs, rfl⟩ := h
    obtain ⟨hp, fits⟩ := Bool.and_eq_true_iff.1 fits
    obtain ⟨number, hv⟩ := Bool.and_eq_true_iff.1 hp
    obtain ⟨tag, zs, rfl, reads⟩ := readValue_spelled value hv
    rw [List.length_cons, List.cons_append, List.cons_append, readPairs, reads tail]
    simp only [ih hfs fits, byteOf_fits8 number]

/-! ### Requests (R179, R180) -/

/-- R180: a request is read back from every body that spells it. -/
theorem parseRequest_spelled {r : Request} {body : List Byte} (h : r.SpelledBy body) (fits : r.wf = true) : parseRequest body = r := by
  cases r with
  | write t i fs =>
    obtain ⟨ys, pairs, rfl⟩ := h
    obtain ⟨⟨table, index⟩, ⟨⟨few, fields⟩, -⟩⟩ : (fits8 t = true ∧ fits16 i = true) ∧ (fits8 fs.length = true ∧ _) ∧ _ := by
      simpa only [Request.wf, fieldsWf, Bool.and_eq_true] using fits
    refine (parseRequest_write (byteOf t) _ _ (byteOf fs.length) ys).trans ?_
    rw [byteOf_fits8 few, readPairs_spelled pairs fields, byteOf_fits8 table, num16_fits16 index]
  | read t i =>
    obtain ⟨table, index⟩ := Bool.and_eq_true_iff.1 fits
    rw [show body = _ from h]
    refine (parseRequest_read ..).trans ?_
    rw [byteOf_fits8 table, num16_fits16 index]
  | clear t i =>
    obtain ⟨table, index⟩ := Bool.and_eq_true_iff.1 fits
    rw [show body = _ from h]
    refine (parseRequest_clear ..).trans ?_
    rw [byteOf_fits8 table, num16_fits16 index]
  | clearTable t =>
    rw [show body = _ from h]
    exact (parseRequest_clearTable _).trans (congrArg _ (byteOf_fits8 fits))
  | adjustSteps k v c =>
    obtain ⟨⟨kind, value⟩, code⟩ : (fits8 k = true ∧ fits16 v = true) ∧ fits8 c = true := by
      simpa only [Request.wf, Bool.and_eq_true] using fits
    rw [show body = _ from h]
    refine (parseRequest_adjustSteps ..).trans ?_
    rw [byteOf_fits8 kind, num16_fits16 value, byteOf_fits8 code]
  | holdString k =>
    rw [show body = _ from h]
    exact (parseRequest_holdString _).trans (congrArg _ (byteOf_fits8 fits))
  | freeString k =>
    rw [show body = _ from h]
    exact (parseRequest_freeString _).trans (congrArg _ (byteOf_fits8 fits))
  | retryDisplay d =>
    rw [show body = _ from h]
    exact (parseRequest_retryDisplay _ _).trans (congrArg _ (num16_fits16 fits))
  | restart => rw [show body = _ from h]; exact parseRequest_restart
  | status => rw [show body = _ from h]; exact parseRequest_status
  | displayStatus d =>
    rw [show body = _ from h]
    exact (parseRequest_displayStatus _ _).trans (congrArg _ (num16_fits16 fits))
  | identify => rw [show body = _ from h]; exact parseRequest_identify
  | malformed k => cases fits

/-- R180: the length of the body of a WRITE. -/
theorem length_write_bytes (t i : Nat) (fs : FieldList) :
    (Request.write t i fs).bytes.length = 5 + (fs.map fun p => 2 + p.2.size).sum := by
  have pairs := length_of_spelledEach pair_length_of_spelled (spelledEach_flatMap pairSpelledBy_pairBytes fs)
  rw [← pairs, Nat.add_comm]
  rfl

/-- R179: a body that spells a request that can be sent has at most 1024 bytes. -/
theorem Request.length_of_spelled {r : Request} {body : List Byte} (h : r.SpelledBy body) (fits : r.wf = true) :
    body.length ≤ Config.maxBodyLength := by
  cases r with
  | write t i fs =>
    obtain ⟨ys, pairs, rfl⟩ := h
    have size : 5 + (fs.map fun p => 2 + p.2.size).sum ≤ Config.maxBodyLength := by
      simp only [Request.wf, fieldsWf, Bool.and_eq_true, decide_eq_true_iff] at fits
      exact fits.2.2
    rw [← length_of_spelledEach pair_length_of_spelled pairs] at size
    simp only [List.length_append, List.length_cons, List.length_nil, be16_length]
    omega
  | malformed k => cases h
  | _ => rw [show body = _ from h]; exact of_decide_eq_true rfl

/-! ### Bulletins (R179, R180) -/

theorem readCabinList_spelled {ns : List Nat} (few : fits8 ns.length = true) (fits : ns.all fits16 = true) :
    readCabinList (byteOf ns.length :: ns.flatMap be16) = some ns := by
  have numbers := readU16s_spelled fits []
  rw [List.append_nil] at numbers
  simp only [readCabinList, byteOf_fits8 few, numbers]

/-- R180: a bulletin is read back from every body that spells it. -/
theorem parseBulletin_spelled {b : Bulletin} {body : List Byte} (h : b.SpelledBy body) (fits : b.wf = true) :
    parseBulletin body = b := by
  cases b with
  | time d m sec =>
    obtain ⟨⟨day, minute⟩, second⟩ : (fits16 d = true ∧ fits16 m = true) ∧ fits8 sec = true := by
      simpa only [Bulletin.wf, Bool.and_eq_true] using fits
    rw [show body = _ from h]
    refine (parseBulletin_time ..).trans ?_
    rw [num16_fits16 day, num16_fits16 minute, byteOf_fits8 second]
  | phase p drill =>
    obtain ⟨flag, reads, rfl⟩ := h
    refine (parseBulletin_phase ..).trans ?_
    rw [byteOf_fits8 fits, flagOf_of_reads reads]
  | closures f st =>
    obtain ⟨⟨first, few⟩, states⟩ : (fits8 f = true ∧ fits8 st.length = true) ∧ st.all fits8 = true := by
      simpa only [Bulletin.wf, Bool.and_eq_true] using fits
    rw [show body = _ from h]
    refine (parseBulletin_closures ..).trans ?_
    rw [byteOf_fits8 few, if_pos (List.length_map _).symm, byteOf_fits8 first, map_toNat_byteOf states]
  | light l =>
    rw [show body = _ from h]
    exact (parseBulletin_light _).trans (congrArg _ (byteOf_fits8 fits))
  | cabinMark ns =>
    obtain ⟨few, numbers⟩ := Bool.and_eq_true_iff.1 fits
    rw [show body = _ from h]
    refine (parseBulletin_cabinMark _).trans ?_
    rw [readCabinList_spelled few numbers]
  | assistClear ns =>
    obtain ⟨few, numbers⟩ := Bool.and_eq_true_iff.1 fits
    rw [show body = _ from h]
    refine (parseBulletin_assistClear _).trans ?_
    rw [readCabinList_spelled few numbers]
  | other => cases h

/-- R179: a body that spells a bulletin that can be sent has at most 1024 bytes. -/
theorem Bulletin.length_of_spelled {b : Bulletin} {body : List Byte} (h : b.SpelledBy body) (fits : b.wf = true) :
    body.length ≤ Config.maxBodyLength := by
  have cabins : ∀ ns : List Nat, fits8 ns.length = true → (ns.flatMap be16).length + 2 ≤ Config.maxBodyLength := fun ns few => by
    have numbers : (ns.flatMap be16).length = 2 * ns.length := writeU16s_length ns
    have few := of_decide_eq_true few
    rw [numbers, Config.maxBodyLength]
    omega
  cases b with
  | time d m sec => rw [show body = _ from h]; exact of_decide_eq_true rfl
  | phase p drill => obtain ⟨flag, -, rfl⟩ := h; exact of_decide_eq_true rfl
  | closures f st =>
    simp only [Bulletin.wf, Bool.and_eq_true, fits8, decide_eq_true_iff] at fits
    have few := fits.1.2
    rw [show body = _ from h, List.length_cons, List.length_cons, List.length_cons, List.length_map, Config.maxBodyLength]
    omega
  | light l => rw [show body = _ from h]; exact of_decide_eq_true rfl
  | cabinMark ns => rw [show body = _ from h]; exact cabins ns (Bool.and_eq_true_iff.1 fits).1
  | assistClear ns => rw [show body = _ from h]; exact cabins ns (Bool.and_eq_true_iff.1 fits).1
  | other => cases h

end Sys2Proof
end

section
/-! SUPPORT. Frames and string replies as they arrive, byte by byte (R122, R151, R179 to R181), and the statement about their bytes. -/

namespace Sys2Proof

/-! ### The two bytes of the check value (R122) -/

theorem crcBytes_eq (bs : List Byte) : crcBytes bs = be16 (crcValue bs) := congrArg be16 (crc16_toNat bs)

/-- R151, R181: bytes that end in their own check value pass the check. -/
theorem crcBytes_checks (bs : List Byte) :
    crcBytes ((bs ++ be16 (crcValue bs)).take ((bs ++ be16 (crcValue bs)).length - 2)) =
      (bs ++ be16 (crcValue bs)).drop ((bs ++ be16 (crcValue bs)).length - 2) := by
  rw [List.length_append, be16_length, Nat.add_sub_cancel, List.take_left, List.drop_left, crcBytes_eq]

/-! ### Frames (R151, R180) -/

/-- R180: the numbers of the header fit their bytes, and the body is no longer than R151 lets it be. -/
structure Frame.Fits (f : Frame) : Prop where
  kind : f.kind < 256
  origin : f.origin < 256
  node : f.node < 256
  dest : f.dest < 256
  hop : f.hop < 64
  seq : f.seq < 65536
  body : f.body.length ≤ Config.maxBodyLength

/-- R151: nine header bytes, a body of the length they give and its check value pass every check. -/
theorem parseFrame_checked (k o n d h s1 s0 l1 l0 : Byte) {body : List Byte} (size : body.length ≤ Config.maxBodyLength)
    (length : num16 l1 l0 = body.length) :
    parseFrame (k :: o :: n :: d :: h :: s1 :: s0 :: l1 :: l0 ::
        (body ++ be16 (crcValue ([k, o, n, d, h, s1, s0, l1, l0] ++ body)))) =
      .ok { kind := k.toNat, origin := o.toNat, node := n.toNat, dest := d.toNat, hop := h.toNat % 64, seq := num16 s1 s0,
            body := body } := by
  have check := crcBytes_checks ([k, o, n, d, h, s1, s0, l1, l0] ++ body)
  generalize crcValue ([k, o, n, d, h, s1, s0, l1, l0] ++ body) = c at check ⊢
  simp only [List.cons_append, List.nil_append] at check
  have rest : (body ++ be16 c).length = body.length + 2 := List.length_append
  have front : (body ++ be16 c).take ((body ++ be16 c).length - 2) = body := by
    rw [rest, Nat.add_sub_cancel, List.take_left]
  rw [parseFrame, if_neg (by omega), if_neg (by omega), if_neg (not_not.2 check), front]

/-- R151, R179: a frame is read back from its bytes, whatever the two upper bits of its hop byte are. -/
theorem parseFrame_received {f : Frame} (fits : f.Fits) {upper : Nat} (h : upper < 4) : parseFrame (f.received upper) = .ok f := by
  obtain ⟨kind, origin, node, dest, hop, seq, body⟩ := fits
  have length : num16 (byteOf (f.body.length / 256)) (byteOf f.body.length) = f.body.length :=
    num16_be16 (body.trans_lt (by decide))
  have hopByte : (byteOf (upper * 64 + f.hop)).toNat % 64 = f.hop := by
    rw [byteOf_toNat_of_lt (by omega)]
    omega
  refine (parseFrame_checked _ _ _ _ _ _ _ _ _ body length).trans ?_
  rw [byteOf_toNat_of_lt kind, byteOf_toNat_of_lt origin, byteOf_toNat_of_lt node, byteOf_toNat_of_lt dest, hopByte, num16_be16 seq]

/-! ### String replies (R181) -/

/-- R181: four bytes, a payload of the length they give and their check value pass the check. -/
theorem parseStringReply_checked (t c m1 m0 : Byte) {payload : List Byte} (length : num16 m1 m0 = payload.length) :
    parseStringReply (t :: c :: m1 :: m0 :: (payload ++ be16 (crcValue ([t, c, m1, m0] ++ payload)))) =
      (StringReply.parse c.toNat payload).map fun r => (t.toNat, r) := by
  have check := crcBytes_checks ([t, c, m1, m0] ++ payload)
  generalize crcValue ([t, c, m1, m0] ++ payload) = n at check ⊢
  simp only [List.cons_append, List.nil_append] at check
  have rest : (payload ++ be16 n).length = num16 m1 m0 + 2 := by rw [length]; exact List.length_append
  rw [parseStringReply, if_pos ⟨rest, check⟩, length, List.take_left]

/-- R181: a reply is read back from its bytes by its code. -/
theorem parseStringReply_layout {tag code : Nat} {payload : List Byte} (ht : tag < 256) (hc : code < 256)
    (size : payload.length < 65536) :
    parseStringReply (stringLayout tag code payload) = (StringReply.parse code payload).map fun r => (tag, r) := by
  refine (parseStringReply_checked _ _ _ _ (num16_be16 size)).trans ?_
  rw [byteOf_toNat_of_lt ht, byteOf_toNat_of_lt hc]

/-- R181: a reply of one of the six codes is read back from its payload. -/
theorem StringReply.parse_layout {k : StringNo} {tag : Nat} {r : StringReply} {i : Instr} (command : r.command k tag = some i)
    (fits : i.wf = true) {code : Nat} {payload : List Byte} (h : r.layout = some (code, payload)) :
    tag < 256 ∧ code < 256 ∧ payload.length < 65536 ∧ StringReply.parse code payload = some r := by
  cases r <;> cases command <;> cases h
  case ready c =>
    obtain ⟨tag, cls⟩ := Bool.and_eq_true_iff.1 fits
    refine ⟨of_decide_eq_true tag, by decide, (by decide : 1 < 65536), ?_⟩
    rw [parseReply_ready, byteOf_fits8 cls]
  case busy ms =>
    obtain ⟨tag, time⟩ := Bool.and_eq_true_iff.1 fits
    exact ⟨of_decide_eq_true tag, by decide, by rw [be16_length]; decide,
      (parseReply_busy _ _).trans (congrArg (fun n => some (StringReply.busy n)) (num16_fits16 time))⟩
  case refresh ms =>
    obtain ⟨tag, time⟩ := Bool.and_eq_true_iff.1 fits
    exact ⟨of_decide_eq_true tag, by decide, by rw [be16_length]; decide,
      (parseReply_refresh _ _).trans (congrArg (fun n => some (StringReply.refresh n)) (num16_fits16 time))⟩
  case ack => exact ⟨of_decide_eq_true fits, by decide, by decide, parseReply_ack⟩
  case nak => exact ⟨of_decide_eq_true fits, by decide, by decide, parseReply_nak⟩
  case events cs =>
    obtain ⟨⟨tag, few⟩, codes⟩ : (fits8 _ = true ∧ cs.length ≤ 4) ∧ cs.all fits8 = true := by
      simpa only [Instr.wf, Bool.and_eq_true, decide_eq_true_iff] using fits
    have count : (byteOf cs.length).toNat = (cs.map byteOf).length := by
      rw [byteOf_toNat_of_lt (by omega), List.length_map]
    refine ⟨of_decide_eq_true tag, by decide, by rw [List.length_cons, List.length_map]; omega, ?_⟩
    rw [parseReply_events, if_pos ⟨count, by rwa [count, List.length_map]⟩, map_toNat_byteOf codes]

end Sys2Proof

namespace Sys2Proof.Machine

/-- R151: the bytes of a frame bring what the frame carries. -/
theorem bytesArrive_received (s : State) (p : Port) {f : Frame} (fits : f.Fits) {upper : Nat} (h : upper < 4) :
    s.bytesArrive p (f.received upper) = s.frameArrives p f f.content := by
  rw [State.bytesArrive, parseFrame_received fits h]

theorem act_body (s : State) (p : Port) (f : Frame) (body : List Byte) (c : Content) :
    s.act p { f with body := body } c = s.act p f c := rfl

/-- R153: of two frames that differ in their bodies alone one does what the other does, where they are not forwarded. -/
theorem frameArrives_body (s : State) (p : Port) {f : Frame} {body : List Byte} (c : Content) (one : f.body.length ≤ Config.maxBodyLength)
    (two : body.length ≤ Config.maxBodyLength) (still : s.forwards f = false) :
    s.frameArrives p { f with body := body } c = s.frameArrives p f c := by
  have still' : s.forwards { f with body := body } = false := still
  have own : s.ownFrame { f with body := body } = s.ownFrame f := rfl
  simp only [State.frameArrives, act_body, still, still', own, decide_eq_true one, decide_eq_true two, Bool.false_eq_true, if_false]

/-- R180: a body that spells what another one spells may stand in its place where the frame is not forwarded. -/
theorem arrives_as (s : State) (a : Arrival) (kind : Nat) {body own : List Byte} (c : Content)
    (one : own.length ≤ Config.maxBodyLength) (two : body.length ≤ Config.maxBodyLength)
    (same : a.hop = 0 ∨ s.address = some a.dest ∨ body = own) :
    s.frameArrives a.port (a.frame kind body) c = s.frameArrives a.port (a.frame kind own) c := by
  have still : s.forwards (a.frame kind own) = false →
    s.frameArrives a.port (a.frame kind body) c = s.frameArrives a.port (a.frame kind own) c :=
    frameArrives_body s a.port (f := a.frame kind own) c one two
  rcases same with hop | dest | rfl
  · exact still (by simp [State.forwards, Arrival.frame, hop])
  · exact still (not_forwards dest)
  · rfl

theorem arrivalFrame_fits {a : Arrival} (h : a.wf = true) {kind : Nat} (hk : kind < 256) {body : List Byte}
    (size : body.length ≤ Config.maxBodyLength) : (a.frame kind body).Fits := by
  simp only [Arrival.wf, fits8, fits16, Bool.and_eq_true, decide_eq_true_iff] at h
  obtain ⟨⟨⟨⟨origin, node⟩, dest⟩, hop⟩, seq⟩ := h
  exact ⟨hk, origin, node, dest, hop, seq, size⟩

/-! ### The command of a request, of a bulletin and of a reply -/

theorem exec_requestCommand {a : Arrival} {r : Request} {i : Instr} (h : r.command a = some i) (s : State) :
    exec i s = .next (s.requestArrives a r) := by
  cases r <;> cases h <;> rfl

theorem Request.command_wf {a : Arrival} {r : Request} {i : Instr} (h : r.command a = some i) (fits : i.wf = true) :
    a.wf = true ∧ r.wf = true := by
  cases r <;> cases h
  case restart | status | identify => exact ⟨fits, rfl⟩
  all_goals exact Bool.and_eq_true_iff.1 fits

theorem Bulletin.command_wf {a : Arrival} {b : Bulletin} {i : Instr} (h : b.command a = some i) (fits : i.wf = true) :
    a.wf = true ∧ b.wf = true := by
  cases b <;> cases h <;> exact Bool.and_eq_true_iff.1 fits

/-- R154, R179, R180: the bytes of a REQUEST frame are the command of the request that its body spells. -/
theorem exec_requestBytes {a : Arrival} {r : Request} {i : Instr} (command : r.command a = some i) (fits : i.wf = true) (s : State)
    {body : List Byte} (spelled : r.SpelledBy body) (same : a.hop = 0 ∨ s.address = some a.dest ∨ body = r.bytes) {upper : Nat}
    (h : upper < 4) : exec (.frameReceive a.port ((a.frame 1 body).received upper)) s = exec i s := by
  obtain ⟨arrival, request⟩ := Request.command_wf command fits
  have size := Request.length_of_spelled spelled request
  have own := Request.length_of_spelled (r.spelledBy_bytes a i command) request
  have content : (a.frame 1 body).content = .request r := congrArg Content.request (parseRequest_spelled spelled request)
  rw [exec_requestCommand command]
  refine congrArg Host.Outcome.next ((bytesArrive_received s a.port (arrivalFrame_fits arrival (by decide) size) h).trans ?_)
  rw [content, arrives_as s a 1 (.request r) own size same]
  rfl

/-- R154, R179, R180: the bytes of a BULLETIN frame are the command of the bulletin that its body spells. -/
theorem exec_bulletinBytes {a : Arrival} {b : Bulletin} {i : Instr} (command : b.command a = some i) (fits : i.wf = true) (s : State)
    {body : List Byte} (spelled : b.SpelledBy body) (same : a.hop = 0 ∨ s.address = some a.dest ∨ body = b.bytes) {upper : Nat}
    (h : upper < 4) : exec (.frameReceive a.port ((a.frame 0 body).received upper)) s = exec i s := by
  obtain ⟨arrival, bulletin⟩ := Bulletin.command_wf command fits
  have size := Bulletin.length_of_spelled spelled bulletin
  have own := Bulletin.length_of_spelled (b.spelledBy_bytes a i command) bulletin
  have content : (a.frame 0 body).content = .bulletin b := congrArg Content.bulletin (parseBulletin_spelled spelled bulletin)
  rw [exec_command command]
  refine congrArg Host.Outcome.next ((bytesArrive_received s a.port (arrivalFrame_fits arrival (by decide) size) h).trans ?_)
  rw [content, arrives_as s a 0 (.bulletin b) own size same]
  rfl

/-- R181: the command of a reply is what the reply does on its string; an EVENTS reply that can be sent has at most four events. -/
theorem exec_replyCommand {k : StringNo} {tag : Nat} {r : StringReply} {i : Instr} (h : r.command k tag = some i) (fits : i.wf = true)
    (s : State) : exec i s = .next (s.stringReply k tag r) := by
  cases r <;> cases h
  case events cs =>
    have few : cs.length ≤ 4 := by
      simp only [Instr.wf, Bool.and_eq_true, decide_eq_true_iff] at fits
      exact fits.1.2
    exact congrArg Host.Outcome.next (if_pos few)
  all_goals rfl

/-- R140, R181: the bytes of a reply are its command. -/
theorem exec_replyBytes {k : StringNo} {tag : Nat} {r : StringReply} {i : Instr} (command : r.command k tag = some i) (fits : i.wf = true)
    (s : State) {code : Nat} {payload : List Byte} (h : r.layout = some (code, payload)) :
    exec (.stringReplyDiscard k (stringLayout tag code payload)) s = exec i s := by
  obtain ⟨ht, hc, size, parse⟩ := StringReply.parse_layout command fits h
  rw [exec_replyCommand command fits]
  refine congrArg Host.Outcome.next ?_
  rw [State.replyBytes, parseStringReply_layout ht hc size, parse]
  rfl

/-! ### What the 820 sends itself -/

theorem stringBytes_layout (tag code : Nat) (payload : List Byte) : stringBytes tag code payload = stringLayout tag code payload := by
  unfold stringBytes stringLayout
  exact congrArg (byteOf tag :: byteOf code :: (be16 payload.length ++ payload) ++ ·) (crcBytes_eq _)

theorem Frame.bytes_received (f : Frame) : f.bytes = ({ f with hop := f.hop % 64 } : Frame).received 0 := by
  unfold Frame.bytes Frame.received Frame.header
  rw [crcBytes_eq, Nat.zero_mul, Nat.zero_add]

theorem dataBytes_spelled (present : Bool) (pairs : FieldList) :
    ∃ body, SpelledEach PairSpelledBy pairs body ∧
      dataBytes (present, pairs) = [if present then 0 else 1, byteOf pairs.length] ++ body :=
  ⟨_, spelledEach_flatMap pairSpelledBy_pairBytes pairs, by cases present <;> rfl⟩

theorem DisplayClass.ofCode_eq_some (n : Nat) (c : DisplayClass) : DisplayClass.ofCode n = some c ↔ n = c.code := by
  refine ⟨?_, fun h => by rw [h]; cases c <;> rfl⟩
  unfold DisplayClass.ofCode
  split <;> rintro ⟨⟩ <;> rfl

theorem SegmentKind.ofCode_eq_some (n : Nat) (k : SegmentKind) : SegmentKind.ofCode n = some k ↔ n = k.code := by
  refine ⟨?_, fun h => by rw [h]; cases k <;> rfl⟩
  unfold SegmentKind.ofCode
  split <;> rintro ⟨⟩ <;> rfl

theorem DestKind.ofCode_eq_some (n : Nat) (k : DestKind) : DestKind.ofCode n = some k ↔ n = k.code := by
  refine ⟨?_, fun h => by rw [h]; cases k <;> rfl⟩
  unfold DestKind.ofCode
  split <;> rintro ⟨⟩ <;> rfl

theorem enumerationCodes : EnumerationCodes where
  phase := rfl
  closure := rfl
  cls := rfl
  clsRead := DisplayClass.ofCode_eq_some
  urgency := rfl
  update := fun _ => rfl
  fault := rfl
  segment := rfl
  segmentRead := SegmentKind.ofCode_eq_some
  destination := rfl
  destinationRead := DestKind.ofCode_eq_some
  status := rfl
  entry := rfl
  grid := rfl
  mode := rfl
  source := rfl
  condition := rfl
  arrows := fun _ => rfl
  glyph := rfl
  string := rfl
  report := rfl
  result := rfl

/-- Settles O10: the bytes of requests, bulletins and replies, what the 820 sends, and the codes. -/
theorem commandBytes : Obligations.CommandBytes :=
  ⟨fun _ _ _ s _ command fits spelled same _ upper => exec_requestBytes command fits s spelled same upper,
    fun _ _ _ s _ command fits spelled same _ upper => exec_bulletinBytes command fits s spelled same upper,
    fun _ _ _ _ s _ _ command fits layout => exec_replyBytes command fits s layout,
    fun n => ⟨byteOf_toNat n, rfl, rfl⟩, Frame.bytes_received, stringBytes_layout, crc16_toNat,
    fun a r i => r.spelledBy_bytes a i, fun a b i => b.spelledBy_bytes a i, dataBytes_spelled, enumerationCodes⟩

end Sys2Proof.Machine
end

section
/-! SUPPORT. A WRITE whose values may be long (R165, R168), and the WRITE of TEXTS and SELECTION (R111, R113, R123, R124). -/

namespace Sys2Proof.Machine

/-! ### A WRITE whose values may be long (R165, R168) -/

/-- R165, R168: a WRITE that fits a frame and passes every check before the one of access, whatever its values are. -/
structure State.WriteInForm (s : State) (a : Arrival) (t i : Nat) (fs : FieldList) : Prop where
  asked : s.Asked a
  size : (Request.write t i fs).bytes.length ≤ 1024
  once : (fs.map (·.1)).Nodup
  kinds : kindsOk t fs = true
  table : tableOk t = true
  index : indexOk t i false = true
  required : (alwaysRequires t || !s.entryExists t i) = true → (requiredFields t).all (supplies fs) = true

theorem State.WriteInForm.form {s : State} {a : Arrival} {t i : Nat} {fs : FieldList} (h : s.WriteInForm a t i fs) :
    s.writeFormOk t i fs = true := by
  rw [State.writeFormOk, (hasDuplicate_eq_false_iff fs).2 h.once, h.kinds, h.table, h.index]
  cases missing : alwaysRequires t || !s.entryExists t i with
  | false => rfl
  | true => exact h.required missing

/-- R156, R168: the reply to it, by what the Responder makes of it. -/
theorem State.WriteInForm.replied {s : State} {a : Arrival} {t i : Nat} {fs : FieldList} (h : s.WriteInForm a t i fs) {x : Answer}
    (hx : s.answerWrite a.origin t i fs = x) : exec (.write a t i fs) s = .next (x.state.answered a x.code.code 0 x.data) := by
  subst hx
  exact congrArg Host.Outcome.next (requestArrives_asked h.asked h.size rfl)

theorem State.WriteInForm.denied {s : State} {a : Arrival} {t i : Nat} {fs : FieldList} (h : s.WriteInForm a t i fs)
    (access : s.mayWrite a.origin t i = false) : exec (.write a t i fs) s = .next (s.answered a 5 0 []) :=
  h.replied (x := s.refuse .denied) (by simp [State.answerWrite, State.checked, firstRefusal, h.form, h.table, h.index, access])

/-- R168: what its table makes of it, where access and phase let it through. -/
theorem State.WriteInForm.answer {s : State} {a : Arrival} {t i : Nat} {fs : FieldList} (h : s.WriteInForm a t i fs)
    (access : s.mayWrite a.origin t i = true) (phase : s.phasePassesWrite a.origin t fs = true) :
    s.answerWrite a.origin t i fs = s.ofWrite (s.writeTable a.origin t i fs) := by
  simp only [State.answerWrite, State.checked, firstRefusal, h.form, h.table, h.index, access, phase, if_true]

theorem State.WriteInForm.refused {s : State} {a : Arrival} {t i : Nat} {fs : FieldList} (h : s.WriteInForm a t i fs)
    (access : s.mayWrite a.origin t i = true) (phase : s.phasePassesWrite a.origin t fs = true) {r : ResultCode}
    (hw : s.writeTable a.origin t i fs = .error r) : exec (.write a t i fs) s = .next (s.answered a r.code 0 []) :=
  h.replied ((h.answer access phase).trans (congrArg s.ofWrite hw))

theorem State.WriteInForm.taken {s : State} {a : Arrival} {t i : Nat} {fs : FieldList} (h : s.WriteInForm a t i fs)
    (access : s.mayWrite a.origin t i = true) (phase : s.phasePassesWrite a.origin t fs = true) {u : State} {b : Bool}
    (hw : s.writeTable a.origin t i fs = .ok (u, b)) :
    exec (.write a t i fs) s = .next (u.answered a (if b then 1 else 0) 0 []) := by
  rw [h.replied ((h.answer access phase).trans (congrArg s.ofWrite hw))]
  cases b <;> rfl

/-! ### TEXTS (R113, R124) -/

theorem text_inForm {s : State} {a : Arrival} {i : Nat} {cs : List Nat} (asked : s.Asked a) (range : i < 4096)
    (few : cs.length ≤ 255) : s.WriteInForm a 10 i [(1, .string cs)] where
  asked := asked
  size := by
    rw [length_write_bytes]
    change 5 + (2 + (1 + 2 * cs.length)) ≤ 1024
    omega
  once := List.nodup_singleton _
  kinds := rfl
  table := rfl
  index := by simpa [indexOk, tableSize, tblProgramme, Config.textVariantCount] using range
  required := fun _ => rfl

theorem writeTable_text (s : State) (o i : Nat) (cs : List Nat) :
    s.writeTable o 10 i [(1, .string cs)] =
      .ok (({ s with texts := Tab.put s.texts i (cs.take 40) [] } : State).markAll (s.textUrgency o), decide (40 < cs.length)) := rfl

/-- R124. -/
theorem State.textUrgency_eq (s : State) (o : Nat) :
    s.textUrgency o = if o = originBridge then emergencyUrgency s.ship.phase else .routine := by
  unfold State.textUrgency emergencyUrgency
  simp only [Phase.emergency_iff, ite_and]

/-- R113, R124: a WRITE of a text variant. -/
theorem text_written {s : State} {a : Arrival} {i : Nat} {cs : List Nat} (asked : s.Asked a) (range : i < 4096)
    (access : s.WriteAccess a.origin 10 i) (few : cs.length ≤ 255) :
    ∃ t : State, exec (.write a 10 i [(1, .string cs)]) s = .next (t.answered a (if 40 < cs.length then 1 else 0) 0 []) ∧
      (∀ j, Tab.fetchD t.texts j [] = if j = i then cs.take 40 else Tab.fetchD s.texts j []) ∧
      (s.Marks t fun _ _ u => u = if a.origin = originBridge then emergencyUrgency s.ship.phase else .routine) ∧
      { t with texts := s.texts, displays := s.displays, strings := s.strings } = s := by
  have screens := markAll_screens ({ s with texts := Tab.put s.texts i (cs.take 40) [] } : State) (s.textUrgency a.origin)
  have round := markAll_round ({ s with texts := Tab.put s.texts i (cs.take 40) [] } : State) (s.textUrgency a.origin)
  have ungated := (phasePasses_ungated (t := 10) rfl rfl s a.origin [(1, .string cs)]).1
  have reply := (text_inForm asked range few).taken ((s.mayWrite_iff _ 10 i range).2 access) ungated (writeTable_text s a.origin i cs)
  simp only [decide_eq_true_eq] at reply
  refine ⟨_, reply, fun j => ?_, ?_, ?_⟩
  · rw [screens.texts_eq]
    exact Tab.fetchD_put s.texts i j (cs.take 40) []
  · rw [← s.textUrgency_eq]
    exact round.congr rfl rfl rfl rfl fun _ => rfl
  · rw [screens]

/-! ### SELECTION (R111, R123) -/

theorem plain_selection (v : Option Nat) : PlainFields 12 [(1, optValue v)] :=
  PlainFields.of_fields (es := [(1, (some v).map optValue)]) (by decide : [1].Nodup) (by decide : 1 ≤ 22)
    (List.forall_mem_singleton.2 (plain_opt rfl (some v)))

/-- R111, R168: the number of an entry is clamped to 63. -/
theorem selection_adjusted (v : Option Nat) : numbersAdjusted 12 [(1, optValue v)] = decide (63 < v.getD 0) := by
  have clamped := bring_ne_iff (t := 12) (n := 1) rfl rfl (by decide)
  rw [Bool.eq_iff_iff, numbersAdjusted_iff, decide_eq_true_iff]
  cases v with
  | none => simp [optValue]
  | some n => simp [optValue, clamped]

theorem writeTable_selection (s : State) (o i : Nat) (v : Option Nat) :
    s.writeTable o 12 i [(1, optValue v)] =
      .ok ((s.setSelection i (v.map (min 63))).markSelection i, decide (63 < v.getD 0)) := by
  have entry : optField 12 [(1, optValue v)] 1 none = v.map (min 63) := by
    rw [optField_eq 12 _ 1 none (some v) rfl, show bring 12 1 = min 63 from funext fun n => Nat.zero_max _]
    rfl
  rw [← selection_adjusted, ← entry]
  rfl

theorem fetch_setSelection (s : State) (i j : Nat) (n : Option Nat) :
    Tab.fetch (s.setSelection i n).selection j = if j = i then n else Tab.fetch s.selection j := by
  cases n with
  | none => exact Tab.fetch_discard s.selection i j
  | some n => exact Tab.fetch_store s.selection i j n

/-- R123: a change of an entry marks the displays of its class and mode. -/
theorem selection_marked {s : State} (rising : Tab.Rising s.displays) (i : Nat) (n : Option Nat) :
    s.Marks ((s.setSelection i n).markSelection i) fun _ x u =>
      x.cfg.cls.code * 6 + (s.screenMode x.cfg).code = i ∧ u = emergencyUrgency s.ship.phase := by
  refine ((markWhere_round (s.setSelection i n) rising _ _).congr (s' := s) rfl rfl rfl rfl fun _ => rfl).congr_marks
    fun _ x _ u => ?_
  change (selectionIndex x.cfg.cls (s.screenMode x.cfg) == i) = true ∧ u = s.writeUrgency ↔ _
  rw [beq_iff_eq, s.writeUrgency_eq, selectionIndex]

/-- R111, R123: a WRITE of a selection entry. -/
theorem selection_written {s : State} {a : Arrival} {i : Nat} (asked : s.Asked a) (v : Option Nat) (tables : s.TablesOk) (range : i < 36)
    (may : s.MayChange a 12 i) :
    ∃ t : State, exec (.write a 12 i [(1, optValue v)]) s = .next (t.answered a (if 63 < v.getD 0 then 1 else 0) 0 []) ∧
      (∀ j, Tab.fetch t.selection j = if j = i then v.map (min 63) else Tab.fetch s.selection j) ∧
      (s.Marks t fun _ x u => x.cfg.cls.code * 6 + (s.screenMode x.cfg).code = i ∧ u = emergencyUrgency s.ship.phase) ∧
      { t with selection := s.selection, displays := s.displays, strings := s.strings } = s := by
  obtain ⟨access, phase, -⟩ := mayChange_passes (t := 12) range rfl may
  have index : indexOk 12 i false = true := by simpa [indexOk, tableSize, tblProgramme, Config.selectionCount] using range
  have reaches : s.WriteReaches a 12 i [(1, optValue v)] :=
    ⟨asked, plain_selection v, rfl, index, fun _ => rfl, access, phase _⟩
  have reply := reaches.taken (writeTable_selection s a.origin i v)
  simp only [decide_eq_true_eq] at reply
  have screens : (s.setSelection i (v.map (min 63))).ScreensOnly ((s.setSelection i (v.map (min 63))).markSelection i) :=
    markWhere_screens _ _ _
  refine ⟨_, reply, fun j => ?_, selection_marked tables.displays.1 i _, ?_⟩
  · rw [screens.selection_eq]
    exact fetch_setSelection s i j _
  · rw [screens]
    rfl

end Sys2Proof.Machine
end

section
/-! SUPPORT. The WRITE of TEMPLATES (R105 to R107, R109, R123), and the statement about the stores of the Screen Composer. -/

namespace Sys2Proof.Machine

/-! ### The slots of a WRITE (R107, steps 1 to 3) -/

theorem Source.code_of_ofCode {n : Nat} {x : Source} (h : Source.ofCode n = some x) : x.code = n := by
  obtain ⟨hn, rfl⟩ := List.getElem?_eq_some_iff.1 h
  exact List.Nodup.idxOf_getElem (by decide) n hn

theorem Condition.code_of_ofCode {n : Nat} {x : Condition} (h : Condition.ofCode n = some x) : x.code = n := by
  obtain ⟨hn, rfl⟩ := List.getElem?_eq_some_iff.1 h
  exact List.Nodup.idxOf_getElem (by decide) n hn

theorem Source.ofCode_eq_none (n : Nat) : Source.ofCode n = none ↔ 21 < n := List.getElem?_eq_none_iff

theorem Condition.ofCode_eq_none (n : Nat) : Condition.ofCode n = none ↔ 15 < n := List.getElem?_eq_none_iff

/-- R107, step 2: a slot is read unless one of its codes is out of its list. -/
theorem read_eq_none (x : RawSlot) : RawSlot.read x = none ↔ SlotRefused x := by
  unfold RawSlot.read SlotRefused
  rw [← Source.ofCode_eq_none, ← Condition.ofCode_eq_none]
  cases Source.ofCode x.source with
  | none => simp
  | some src =>
    cases Condition.ofCode x.condition with
    | none => simp
    | some cond => by_cases refused : 4 < x.language ∨ 1 < x.polarity <;> simp [refused]

/-- R107: what is read of a slot keeps its box and its codes. -/
theorem read_keeps {x : RawSlot} {y : Slot} (h : RawSlot.read x = some y) :
    y.box = { column := x.column, row := x.row, width := x.width, height := x.height } ∧ y.source.code = x.source ∧
      y.condition.code = x.condition := by
  unfold RawSlot.read at h
  split at h
  · next src cond source condition =>
    split at h
    · cases h
    · cases h
      exact ⟨rfl, Source.code_of_ofCode source, Condition.code_of_ofCode condition⟩
  · cases h

/-- R107: the second list is what is read of the first, slot by slot. -/
abbrev SlotsRead (xs : List RawSlot) (ys : List Slot) : Prop := List.Forall₂ (fun x y => RawSlot.read x = some y) xs ys

theorem slots_read {xs : List RawSlot} (h : ∀ x ∈ xs, ¬SlotRefused x) : ∃ ys, xs.mapM RawSlot.read = some ys ∧ SlotsRead xs ys := by
  induction xs with
  | nil => exact ⟨[], rfl, .nil⟩
  | cons x xs ih =>
    obtain ⟨hx, hxs⟩ := List.forall_mem_cons.1 h
    obtain ⟨y, read⟩ := Option.ne_none_iff_exists'.1 (mt (read_eq_none x).1 hx)
    obtain ⟨ys, all, each⟩ := ih hxs
    exact ⟨y :: ys, by rw [List.mapM_cons, read, all]; rfl, .cons read each⟩

theorem slots_unread {xs : List RawSlot} (h : ∃ x ∈ xs, SlotRefused x) : xs.mapM RawSlot.read = none := by
  induction xs with
  | nil => obtain ⟨x, hx, -⟩ := h; cases hx
  | cons x xs ih =>
    rw [List.mapM_cons]
    cases read : RawSlot.read x with
    | none => rfl
    | some y =>
      have good : ¬SlotRefused x := fun refused => by rw [(read_eq_none x).2 refused] at read; cases read
      rw [ih ((List.exists_mem_cons_iff ..).1 h |>.resolve_left good)]
      rfl

/-! ### The slots that stand (R107) -/

/-- R107: a clip changes a slot exactly where it changes its box. -/
theorem slot_clipped (y : Slot) (g : Grid) : y.clip g ≠ y ↔ y.box.fit g ≠ y.box := by
  rw [← Box.clip_eq_fit]
  exact not_congr ⟨fun h => congrArg Slot.box h, fun h => by rw [Slot.clip, h]⟩

theorem slots_clipped (ys : List Slot) (g : Grid) : (ys != ys.map fun y => y.clip g) = true ↔ ∃ y ∈ ys, y.box.fit g ≠ y.box := by
  have same : ys.map (fun y => y.clip g) = ys ↔ ∀ y ∈ ys, y.clip g = y := by
    conv_lhs => rhs; rw [← List.map_id ys]
    exact List.map_inj_left
  rw [bne_iff_ne, ne_comm, Ne, same]
  simp only [← slot_clipped, not_forall, exists_prop]

/-- The places of two lists where a relation holds are the pairs of their zip for which it does. -/
theorem exists_place_iff {α β γ : Type} (xs : List α) (ys : List β) (f : β → γ) (P : α → γ → Prop) :
    (∃ (k : Nat) (x : α) (z : γ), xs[k]? = some x ∧ (ys.map f)[k]? = some z ∧ P x z) ↔ ∃ p ∈ xs.zip ys, P p.1 (f p.2) := by
  simp only [List.mem_iff_getElem?, List.getElem?_zip_eq_some, List.getElem?_map, Option.map_eq_some_iff]
  constructor
  · rintro ⟨k, x, z, hx, ⟨y, hy, rfl⟩, h⟩
    exact ⟨(x, y), ⟨k, hx, hy⟩, h⟩
  · rintro ⟨⟨x, y⟩, ⟨k, hx, hy⟩, h⟩
    exact ⟨k, x, f y, hx, ⟨y, hy, rfl⟩, h⟩

theorem SlotsRead.taken {xs : List RawSlot} {ys : List Slot} (h : SlotsRead xs ys) (g : Grid) :
    SlotsTaken g xs (ys.map fun y => y.clip g) := by
  refine ⟨by rw [List.length_map, ← h.length_eq], fun k x z hx hz => ?_⟩
  rw [List.getElem?_map, Option.map_eq_some_iff] at hz
  obtain ⟨y, hy, rfl⟩ := hz
  have read : RawSlot.read x = some y :=
    List.forall₂_zip h (List.mem_iff_getElem?.2 ⟨k, List.getElem?_zip_eq_some.2 ⟨hx, hy⟩⟩)
  obtain ⟨-, source, condition⟩ := read_keeps read
  exact ⟨source, condition, read_clip g read⟩

/-- R107, R168: a list of slots is adjusted where a size or an argument is clamped or a box is clipped. -/
theorem SlotsRead.adjusted {xs : List RawSlot} {ys : List Slot} (h : SlotsRead xs ys) (g : Grid) :
    (slotsClamped xs ys || ys != ys.map fun y => y.clip g) = true ↔
      ∃ (k : Nat) (x : RawSlot) (z : Slot), xs[k]? = some x ∧ (ys.map fun y => y.clip g)[k]? = some z ∧ SlotAdjusted x z := by
  have boxes : (∃ y ∈ ys, y.box.fit g ≠ y.box) ↔ ∃ p ∈ xs.zip ys, p.2.box.fit g ≠ p.2.box := by
    conv_lhs => rw [← List.map_snd_zip h.length_eq.ge]
    simp only [List.mem_map, exists_exists_and_eq_and]
  have clamps : slotsClamped xs ys = true ↔ ∃ p ∈ xs.zip ys, p.2.size ≠ p.1.size ∨ p.2.argument ≠ p.1.argument := by
    simp only [slotsClamped, List.any_eq_true, Bool.or_eq_true, bne_iff_ne, ne_comm]
  have each : ∀ p ∈ xs.zip ys, SlotAdjusted p.1 (p.2.clip g) ↔
      (p.2.size ≠ p.1.size ∨ p.2.argument ≠ p.1.argument) ∨ p.2.box.fit g ≠ p.2.box := fun p hp => by
    rw [SlotAdjusted, ← (read_keeps (List.forall₂_zip h hp)).1, or_comm, ← Box.clip_eq_fit]
    rfl
  rw [Bool.or_eq_true, slots_clipped, boxes, clamps, exists_place_iff, ← exists_or]
  simp only [← and_or_left]
  exact exists_congr fun p => and_congr_right fun hp => (each p hp).symm

/-! ### The field list (R107) -/

/-- R107: a code for the grid class, a list of slots, either or both. -/
def templatePairs (code : Option Nat) (xs : Option (List RawSlot)) : FieldList :=
  pairsOf [(1, code.map .number), (2, xs.map .slots)]

theorem templatePairs_eq (grid : Option Grid) (xs : Option (List RawSlot)) :
    (grid.map fun c => (1, FieldValue.number c.code)).toList ++ (xs.map fun l => (2, FieldValue.slots l)).toList =
      templatePairs (grid.map Grid.code) xs := by
  cases grid <;> cases xs <;> rfl

section Fields

variable {code : Option Nat} {xs : Option (List RawSlot)} {fs : FieldList} (perm : fs.Perm (templatePairs code xs))

include perm

theorem template_once : (fs.map (·.1)).Nodup :=
  (perm.map _).nodup_iff.2 ((pairsOf_keys _).nodup (by decide : [1, 2].Nodup))

theorem template_supplied : supplied fs 1 = code.map .number ∧ supplied fs 2 = xs.map .slots := by
  have once := (perm.map Prod.fst).nodup_iff.1 (template_once perm)
  rw [supplied_perm perm once, supplied_perm perm once]
  cases code <;> cases xs <;> exact ⟨rfl, rfl⟩

theorem template_kinds : kindsOk 11 fs = true := by
  rw [kindsOk_perm perm]
  cases code <;> cases xs <;> rfl

theorem template_known : unknownField 11 fs = false := by
  rw [unknownField_perm perm]
  cases code <;> cases xs <;> rfl

/-- R180: 80 slots fit a frame. -/
theorem template_size (few : ∀ l, xs = some l → l.length ≤ 80) (i : Nat) : (Request.write 11 i fs).bytes.length ≤ 1024 := by
  have total : ((templatePairs code xs).map fun p => 2 + p.2.size).sum ≤ 6 + xs.elim 0 fun l => 3 + 12 * l.length := by
    cases code <;> cases xs <;> simp [templatePairs, pairsOf, given, FieldValue.size] <;> omega
  have slots : (xs.elim 0 fun l => 3 + 12 * l.length) ≤ 963 := by
    cases xs with
    | none => exact Nat.zero_le _
    | some l => exact Nat.add_le_add_left (Nat.mul_le_mul_left 12 (few l rfl)) 3
  rw [length_write_bytes, (perm.map _).sum_eq]
  omega

/-- R168: the form of a WRITE of TEMPLATES is in order, where it supplies what a creation must. -/
theorem template_inForm {s : State} {a : Arrival} {i : Nat} (asked : s.Asked a) (range : i < 64)
    (few : ∀ l, xs = some l → l.length ≤ 80)
    (required : (alwaysRequires 11 || !s.entryExists 11 i) = true → (requiredFields 11).all (supplies fs) = true) :
    s.WriteInForm a 11 i fs where
  asked := asked
  size := template_size perm few i
  once := template_once perm
  kinds := template_kinds perm
  table := rfl
  index := by simpa [indexOk, tableSize, tblProgramme, Config.templateCount] using range
  required := required

end Fields

/-- R165: a WRITE with a grid code and slots supplies what a creation must. -/
theorem template_both {v : Nat} {l : List RawSlot} {fs : FieldList} (perm : fs.Perm (templatePairs (some v) (some l))) :
    (requiredFields 11).all (supplies fs) = true := by
  obtain ⟨one, two⟩ := template_supplied perm
  simp [requiredFields, supplies_eq, one, two]

/-! ### What the table makes of it (R107, R109, R123) -/

/-- R107: the grid class after a WRITE. -/
theorem templateGrid_eq {grid : Option Grid} {xs : Option (List RawSlot)} {fs : FieldList}
    (perm : fs.Perm (templatePairs (grid.map Grid.code) xs)) (old : Template) : templateGrid old fs = grid.getD old.grid := by
  unfold templateGrid
  rw [numField_eq 11 fs 1 old.grid.code (grid.map Grid.code) (template_supplied perm).1]
  cases grid with
  | none => cases old.grid <;> rfl
  | some c => cases c <;> rfl

/-- R109, R123: the state with a template stored and the displays marked that use it before or after. -/
def State.storeTemplate (s : State) (i : Nat) (x : Template) : State :=
  s.markTemplates { s with templates := Tab.store s.templates i x } fun n => n == i

theorem storeTemplate_eq (s : State) (i : Nat) (x : Template) :
    s.storeTemplate i x =
      ({ s with templates := Tab.store s.templates i x } : State).markWhere
        (fun _ y => s.displayTemplate y.cfg == i ||
          ({ s with templates := Tab.store s.templates i x } : State).displayTemplate y.cfg == i) s.writeUrgency := rfl

theorem storeTemplate_screens (s : State) (i : Nat) (x : Template) :
    ({ s with templates := Tab.store s.templates i x } : State).ScreensOnly (s.storeTemplate i x) := by
  rw [storeTemplate_eq]
  exact markWhere_screens _ _ _

/-- R112: the template in use goes by the stores and the ship, not by the displays' marks. -/
theorem displayTemplate_screens {s t : State} (h : s.ScreensOnly t) (c : DisplayConfig) : t.displayTemplate c = s.displayTemplate c := by
  rw [h]
  rfl

theorem storeTemplate_marked {s : State} (rising : Tab.Rising s.displays) (i : Nat) (x : Template) :
    s.Marks (s.storeTemplate i x) fun _ y u =>
      (s.templateInUse y.cfg.cls (s.screenMode y.cfg) = i ∨
        (s.storeTemplate i x).templateInUse y.cfg.cls ((s.storeTemplate i x).screenMode y.cfg) = i) ∧
      u = emergencyUrgency s.ship.phase := by
  have round : s.Marks (s.storeTemplate i x) fun _ y u =>
      (s.displayTemplate y.cfg == i || ({ s with templates := Tab.store s.templates i x } : State).displayTemplate y.cfg == i) = true ∧
        u = s.writeUrgency := by
    rw [storeTemplate_eq]
    exact (markWhere_round { s with templates := Tab.store s.templates i x } rising _ _).congr rfl rfl rfl rfl fun _ => rfl
  refine round.congr_marks fun _ y _ u => ?_
  rw [← displayTemplate_screens (storeTemplate_screens s i x) y.cfg, s.writeUrgency_eq, Bool.or_eq_true, beq_iff_eq, beq_iff_eq]
  rfl

/-- R109: a template is time-dependent by its sources. -/
theorem mkTemplate_eq (g : Grid) (ys : List Slot) :
    mkTemplate g ys = { grid := g, slots := ys, timeDependent := ys.any fun y => timeSources.contains y.source } := by
  have each : (fun y : Slot => y.source.timeDependent) = fun y => timeSources.contains y.source := by
    funext y
    cases y.source <;> rfl
  rw [mkTemplate, slotsTimeDependent, each]

/-- R107, R109, R123: the state `t` is what a taken WRITE leaves of `s`, with slots in a grid stored. -/
structure State.TemplateStored (s t : State) (i : Nat) (g : Grid) (ys : List Slot) : Prop where
  table : ∀ j, Tab.fetch t.templates j =
    if j = i then some { grid := g, slots := ys, timeDependent := ys.any fun y => timeSources.contains y.source }
    else Tab.fetch s.templates j
  marks : s.Marks t fun _ y u =>
    (s.templateInUse y.cfg.cls (s.screenMode y.cfg) = i ∨ t.templateInUse y.cfg.cls (t.screenMode y.cfg) = i) ∧
      u = emergencyUrgency s.ship.phase
  rest : { t with templates := s.templates, displays := s.displays, strings := s.strings } = s

theorem storeTemplate_stored {s : State} (rising : Tab.Rising s.displays) (i : Nat) (g : Grid) (ys : List Slot) :
    s.TemplateStored (s.storeTemplate i (mkTemplate g ys)) i g ys := by
  have screens := storeTemplate_screens s i (mkTemplate g ys)
  refine ⟨fun j => ?_, storeTemplate_marked rising i _, by rw [screens]⟩
  rw [screens.templates_eq, ← mkTemplate_eq]
  exact Tab.fetch_store s.templates i j _

/-- R107: a grid code above 1. -/
theorem writeTemplate_badGrid (s : State) (i v : Nat) (xs : Option (List RawSlot)) (h : 1 < v) {fs : FieldList}
    (perm : fs.Perm (templatePairs (some v) xs)) : s.writeTemplate i fs = .error .badField := by
  have breaks : numberBreaks fs 1 (fun v => decide (v ≤ 1)) = true := by
    rw [numberBreaks, (template_supplied perm).1]
    simp [h]
  rw [State.writeTemplate, breaks, Bool.or_true, if_pos rfl]

/-- R107, steps 1 to 3. -/
theorem readSlotField_bad {code : Option Nat} {l : List RawSlot} {fs : FieldList} (perm : fs.Perm (templatePairs code (some l)))
    (h : l = [] ∨ 12 < l.length ∨ ∃ x ∈ l, SlotRefused x) : readSlotField fs = .error .badField := by
  rw [readSlotField, (template_supplied perm).2]
  by_cases count : l.length = 0 ∨ 12 < l.length
  · exact if_pos count
  · have refused : ∃ x ∈ l, SlotRefused x := by
      rcases h with rfl | many | refused
      · exact absurd (Or.inl rfl) count
      · exact absurd (Or.inr many) count
      · exact refused
    refine (if_neg count).trans ?_
    rw [slots_unread refused]

theorem readSlotField_good {code : Option Nat} {l : List RawSlot} {fs : FieldList} (perm : fs.Perm (templatePairs code (some l)))
    (h : 1 ≤ l.length ∧ l.length ≤ 12 ∧ ∀ x ∈ l, ¬SlotRefused x) :
    ∃ ys, SlotsRead l ys ∧ readSlotField fs = .ok (some (l, ys)) := by
  obtain ⟨least, most, good⟩ := h
  obtain ⟨ys, all, read⟩ := slots_read good
  refine ⟨ys, read, ?_⟩
  rw [readSlotField, (template_supplied perm).2]
  refine (if_neg (by omega)).trans ?_
  rw [all]

/-! ### The template before and after (R105, R107) -/

/-- R105, R107: a WRITE that creates a template, with a grid and slots, or changes one, `g` being the grid after it and `old` the slots
that a present one has. -/
structure State.TemplateGiven (s : State) (i : Nat) (grid : Option Grid) (xs : Option (List RawSlot)) (g : Grid) (old : List Slot) :
    Prop where
  created : Tab.fetch s.templates i = none → grid = some g ∧ xs.isSome = true
  changed : ∀ t, Tab.fetch s.templates i = some t → g = grid.getD t.grid ∧ old = t.slots ∧ (grid.isSome = true ∨ xs.isSome = true)

section Given

variable {s : State} {i : Nat} {grid : Option Grid} {xs : Option (List RawSlot)} {g : Grid} {old : List Slot} {fs : FieldList}
  (given : s.TemplateGiven i grid xs g old) (perm : fs.Perm (templatePairs (grid.map Grid.code) xs))

include given

theorem template_supplies : grid.isSome = true ∨ xs.isSome = true := by
  cases here : Tab.fetch s.templates i with
  | none => exact Or.inr (given.created here).2
  | some t => exact (given.changed t here).2.2

include perm

theorem template_nonempty : fs ≠ [] := by
  rintro rfl
  obtain ⟨one, two⟩ := template_supplied perm
  rcases template_supplies given with h | h
  · obtain ⟨c, rfl⟩ := Option.isSome_iff_exists.1 h
    cases one
  · obtain ⟨l, rfl⟩ := Option.isSome_iff_exists.1 h
    cases two

theorem template_grid :
    templateGrid ((Tab.fetch s.templates i).getD { grid := .large, slots := [], timeDependent := false }) fs = g := by
  rw [templateGrid_eq perm]
  cases here : Tab.fetch s.templates i with
  | none => rw [(given.created here).1, Option.getD_some]
  | some t => exact (given.changed t here).1.symm

/-- R105, R165: a WRITE that creates a template supplies both its fields. -/
theorem template_required (loaded : 16 ≤ i) (missing : (alwaysRequires 11 || !s.entryExists 11 i) = true) :
    (requiredFields 11).all (supplies fs) = true := by
  cases here : Tab.fetch s.templates i with
  | none =>
    obtain ⟨rfl, slots⟩ := given.created here
    obtain ⟨l, rfl⟩ := Option.isSome_iff_exists.1 slots
    exact template_both perm
  | some t =>
    rw [State.entryExists, (template_spec s i).2.2.2 loaded, here] at missing
    cases missing

end Given

/-! ### What the WRITE comes to (R107) -/

theorem writeTemplate_badSlots (s : State) (i : Nat) {code : Option Nat} {l : List RawSlot} {fs : FieldList}
    (perm : fs.Perm (templatePairs code (some l))) (h : l = [] ∨ 12 < l.length ∨ ∃ x ∈ l, SlotRefused x) :
    s.writeTemplate i fs = .error .badField := by
  unfold State.writeTemplate
  split
  · rfl
  · rw [readSlotField_bad perm h]

/-- R107: the field numbers and the grid code of a WRITE that gives a grid are in order. -/
theorem template_checked {grid : Option Grid} {xs : Option (List RawSlot)} {fs : FieldList}
    (perm : fs.Perm (templatePairs (grid.map Grid.code) xs)) :
    (unknownField 11 fs || numberBreaks fs 1 fun v => decide (v ≤ 1)) = false := by
  rw [template_known perm, numberBreaks, (template_supplied perm).1]
  cases grid with
  | none => rfl
  | some c => cases c <;> rfl

section Written

variable {s : State} {i : Nat} {grid : Option Grid} {g : Grid} {old : List Slot} {fs : FieldList}

theorem writeTemplate_slots {l : List RawSlot} (given : s.TemplateGiven i grid (some l) g old)
    (perm : fs.Perm (templatePairs (grid.map Grid.code) (some l))) {ys : List Slot} (read : readSlotField fs = .ok (some (l, ys))) :
    s.writeTemplate i fs =
      .ok (s.storeTemplate i (mkTemplate g (ys.map fun y => y.clip g)), slotsClamped l ys || ys != ys.map fun y => y.clip g) := by
  rw [State.writeTemplate, template_checked perm, if_neg Bool.false_ne_true, read, ← template_grid given perm]
  rfl

theorem writeTemplate_grid (given : s.TemplateGiven i grid none g old)
    (perm : fs.Perm (templatePairs (grid.map Grid.code) none)) :
    s.writeTemplate i fs =
      .ok (s.storeTemplate i (mkTemplate g (old.map fun y => y.clip g)), old != old.map fun y => y.clip g) := by
  have kept : oldSlots (Tab.fetch s.templates i) = old := by
    cases here : Tab.fetch s.templates i with
    | none => cases (given.created here).2
    | some t => exact (given.changed t here).2.1.symm
  have read : readSlotField fs = .ok none := by rw [readSlotField, (template_supplied perm).2]; rfl
  rw [State.writeTemplate, template_checked perm, if_neg Bool.false_ne_true, read, ← kept, ← template_grid given perm]
  rfl

end Written

theorem writeTable_template {s : State} {o i : Nat} {fs : FieldList} (h : fs ≠ []) : s.writeTable o 11 i fs = s.writeTemplate i fs := by
  cases fs with
  | nil => exact absurd rfl h
  | cons p fs => rfl

/-- R107, R109, R123: what a taken WRITE leaves, and where it is ADJUSTED. -/
theorem writeTemplate_taken {s : State} {i : Nat} {grid : Option Grid} {xs : Option (List RawSlot)} {g : Grid} {old : List Slot}
    {fs : FieldList} (given : s.TemplateGiven i grid xs g old) (perm : fs.Perm (templatePairs (grid.map Grid.code) xs))
    (rising : Tab.Rising s.displays) (good : ∀ l, xs = some l → 1 ≤ l.length ∧ l.length ≤ 12 ∧ ∀ x ∈ l, ¬SlotRefused x) :
    ∃ (t : State) (ys : List Slot) (adjusted : Bool), s.writeTemplate i fs = .ok (t, adjusted) ∧
      (∀ l, xs = some l → SlotsTaken g l ys ∧
        (adjusted = true ↔ ∃ (k : Nat) (x : RawSlot) (y : Slot), l[k]? = some x ∧ ys[k]? = some y ∧ SlotAdjusted x y)) ∧
      (xs = none → ys = old.map (fun y => { y with box := y.box.fit g }) ∧
        (adjusted = true ↔ ∃ y ∈ old, y.box.fit g ≠ y.box)) ∧
      s.TemplateStored t i g ys := by
  cases xs with
  | none =>
    have boxes : (old.map fun y => y.clip g) = old.map fun y => { y with box := y.box.fit g } := by
      simp only [Slot.clip, Box.clip_eq_fit]
    exact ⟨_, _, _, writeTemplate_grid given perm, nofun, fun _ => ⟨boxes, slots_clipped old g⟩, storeTemplate_stored rising i g _⟩
  | some l =>
    obtain ⟨ys, each, read⟩ := readSlotField_good perm (good l rfl)
    refine ⟨_, _, _, writeTemplate_slots given perm read, ?_, nofun, storeTemplate_stored rising i g _⟩
    rintro _ ⟨⟩
    exact ⟨each.taken g, each.adjusted g⟩

/-! ### The statement -/

/-- R110: the fixed templates are barred to every origin. -/
theorem mayWrite_fixed (s : State) (o : Nat) {i : Nat} (fixed : i < 16) : s.mayWrite o 11 i = false := by
  simp [State.mayWrite, State.writeBarred, tblTemplates, Config.fixedTemplateCount, fixed]

/-- Settles O26: WRITE of TEXTS, SELECTION and TEMPLATES, and the fixed templates. -/
theorem composerStores : Obligations.ComposerStores := by
  intro a s asked
  refine ⟨fun i cs range access few => text_written asked range access few,
    fun i v tables range may => selection_written asked v tables range may, ?_, ?_, ?_⟩
  · intro i grid xs g old fs tables range may created changed perm few
    have given : s.TemplateGiven i grid xs g old := ⟨created, changed⟩
    rw [templatePairs_eq] at perm
    obtain ⟨access, phase, -⟩ := mayChange_passes (t := 11) range rfl may
    obtain ⟨⟨-, notFixed, -⟩, -⟩ := may
    have loaded : 16 ≤ i := notFixed rfl
    have inForm := template_inForm perm asked range few (template_required given perm loaded)
    have table := writeTable_template (s := s) (o := a.origin) (i := i) (template_nonempty given perm)
    constructor
    · rintro ⟨l, rfl, bad⟩
      exact inForm.refused access (phase fs) (table.trans (writeTemplate_badSlots s i perm bad))
    · intro good
      obtain ⟨t, ys, adjusted, ok, slots, boxes, stored⟩ := writeTemplate_taken given perm tables.displays.1 good
      exact ⟨t, ys, adjusted, inForm.taken access (phase fs) (table.trans ok), slots, boxes, stored.table, stored.marks, stored.rest⟩
  · intro i v l range may above few
    have perm : List.Perm [(1, .number v), (2, .slots l)] (templatePairs (some v) (some l)) := .refl _
    obtain ⟨access, phase, -⟩ := mayChange_passes (t := 11) range rfl may
    have inForm : s.WriteInForm a 11 i [(1, .number v), (2, .slots l)] :=
      template_inForm perm asked range (fun _ h => Option.some.inj h ▸ few) fun _ => template_both perm
    exact inForm.refused access (phase _) ((writeTable_template (List.cons_ne_nil _ _)).trans (writeTemplate_badGrid s i v _ above perm))
  · intro i g x fixed
    have perm : List.Perm [(1, .number g.code), (2, .slots [x])] (templatePairs (some g.code) (some [x])) := .refl _
    have range : i < 64 := by omega
    have inForm : s.WriteInForm a 11 i [(1, .number g.code), (2, .slots [x])] :=
      template_inForm perm asked range (fun _ h => Option.some.inj h ▸ (by decide : 1 ≤ 80)) fun _ => template_both perm
    have index := inForm.index
    exact ⟨inForm.denied (mayWrite_fixed s _ fixed), clear_denied asked rfl index (mayWrite_fixed s _ fixed)⟩

end Sys2Proof.Machine
end

section
/-! SUPPORT. The statements about the times that make work takeable and about the replies that are discarded (R133, R135 to R137, R140,
R181). -/

namespace Sys2Proof.Machine

/-! ### The times that make work takeable (R133, R135 to R137) -/

/-- Settles O50: each command's deadline is the time that its rule gives, and nothing follows it. -/
theorem deadlines : Obligations.Deadlines := by
  intro s d x here
  have reached : ∀ {deadline : Option Nat} {n : Nat}, deadline = some n →
      Host.Outcome.next (s.expire deadline id) = (.next { s with now := max s.now n } : Result) := fun h =>
    congrArg Host.Outcome.next (s.expire_some h id)
  refine ⟨reached ?_, fun c commit => reached ?_, fun p poll cls state fault => reached ?_, fun f fail state => reached ?_⟩
  · rw [State.busyAt, here]
    rfl
  · rw [State.intervalAt, here]
    simp only [commit, Option.map_some, NodeParams.minRefreshMs, Nat.mul_comm]
  · have ring : x.inRing = true := by simp [Display.inRing, cls, state, fault]
    rw [State.pollAt, here]
    simp only [ring, if_true, poll, Option.map_some]
  · rw [State.probeAt, here]
    simp only [state, if_true, fail, Option.map_some, Config.probeIntervalMs]

/-! ### Replies under a tag that is not awaited (R140) -/

theorem stringReply_unawaited {s : State} {k : StringNo} {tag : Nat} (h : ∀ t, (s.str k).txn = some t → t.tag ≠ tag) (r : StringReply) :
    s.stringReply k tag r = s := by
  unfold State.stringReply
  split
  · rfl
  · exact if_neg (h _ ‹_›)

theorem eventsReply_unawaited {s : State} {k : StringNo} {tag : Nat} (h : ∀ t, (s.str k).txn = some t → t.tag ≠ tag) (codes : List Nat) :
    s.eventsReply k tag codes = s := by
  unfold State.eventsReply
  split
  · exact stringReply_unawaited h _
  · rfl

/-- R140: whatever the kind of the reply. -/
theorem exec_unawaited {s : State} {k : StringNo} {tag : Nat} (h : ∀ t, (s.str k).txn = some t → t.tag ≠ tag) {r : StringReply} {i : Instr}
    (command : r.command k tag = some i) : exec i s = .next s := by
  cases r <;> cases command
  case events codes => exact congrArg Host.Outcome.next (eventsReply_unawaited h codes)
  all_goals exact congrArg Host.Outcome.next (stringReply_unawaited h _)

/-! ### Bytes that fail their check (R181) -/

/-- R181: a wrong check value fails the check. -/
theorem parseStringReply_badCheck {bs : List Byte} (h : crcBytes (bs.take (bs.length - 2)) ≠ bs.drop (bs.length - 2)) :
    parseStringReply bs = none := by
  unfold parseStringReply
  split
  · rw [if_neg]
    rintro ⟨-, good⟩
    exact h good
  · rfl

/-- R181: the codes that give a length, each with its own. -/
theorem payloadLength_some {code m : Nat} (h : payloadLength code = some m) :
    (code, m) ∈ [(3, 0), (4, 0), (131, 0), (132, 0), (1, 1), (5, 1), (129, 1), (130, 2), (133, 2)] := by
  unfold payloadLength at h
  split at h
  all_goals cases h
  all_goals decide

/-- R181: a payload of another length than its code gives is none of its replies. -/
theorem parseReply_badLength {code m : Nat} {payload : List Byte} (gives : payloadLength code = some m) (other : payload.length ≠ m) :
    StringReply.parse code payload = none := by
  have listed := payloadLength_some gives
  simp only [List.mem_cons, Prod.mk.injEq, List.not_mem_nil, or_false] at listed
  rcases listed with ⟨rfl, rfl⟩ | ⟨rfl, rfl⟩ | ⟨rfl, rfl⟩ | ⟨rfl, rfl⟩ | ⟨rfl, rfl⟩ | ⟨rfl, rfl⟩ | ⟨rfl, rfl⟩ | ⟨rfl, rfl⟩ | ⟨rfl, rfl⟩
  iterate 4
    match payload, other with
    | [], other => exact absurd rfl other
    | _ :: _, _ => rfl
  iterate 3
    match payload, other with
    | [_], other => exact absurd rfl other
    | [], _ => rfl
    | _ :: _ :: _, _ => rfl
  iterate 2
    match payload, other with
    | [_, _], other => exact absurd rfl other
    | [], _ => rfl
    | [_], _ => rfl
    | _ :: _ :: _ :: _, _ => rfl

theorem parseReply_badCount {payload : List Byte}
    (bad : ∀ (e : Byte) (es : List Byte), payload = e :: es → ¬(e.toNat = es.length ∧ es.length ≤ 4)) :
    StringReply.parse 134 payload = none := by
  cases payload with
  | nil => rfl
  | cons e es =>
    rw [parseReply_events, if_neg]
    rintro ⟨count, few⟩
    exact bad e es rfl ⟨count, count ▸ few⟩

/-- R181: bytes whose payload its code does not fit fail the check, whatever their tag. -/
theorem parseStringReply_unfit {code : Nat} {payload : List Byte} (hc : code < 256) (size : payload.length < 65536)
    (unfit : StringReply.parse code payload = none) (tag : Nat) : parseStringReply (stringBytes tag code payload) = none := by
  rw [stringBytes_layout]
  refine (parseStringReply_checked _ _ _ _ (num16_be16 size)).trans ?_
  rw [byteOf_toNat_of_lt hc, unfit]
  rfl

theorem exec_discarded {s : State} {k : StringNo} {bs : List Byte} (h : parseStringReply bs = none) :
    exec (.stringReplyDiscard k bs) s = .next s := by
  refine congrArg Host.Outcome.next ?_
  rw [State.replyBytes, h]

/-- Settles O49: a reply is dropped by its tag, by its check, or with no transaction to time out. -/
theorem replyNotAwaited : Obligations.ReplyNotAwaited := by
  intro s k tag
  refine ⟨fun unawaited => ⟨fun r i command => exec_unawaited unawaited command, fun ht code payload hc size => ?_⟩,
    fun bs bad => exec_discarded (parseStringReply_badCheck bad),
    fun code payload hc size bad => exec_discarded (parseStringReply_unfit hc size ?_ tag), fun codes many => ?_, fun idle => ?_⟩
  · refine congrArg Host.Outcome.next ?_
    rw [State.replyBytes, stringBytes_layout, parseStringReply_layout ht hc size]
    cases StringReply.parse code payload with
    | none => rfl
    | some r => exact stringReply_unawaited unawaited r
  · rcases bad with ⟨m, gives, other⟩ | ⟨rfl, count⟩
    · exact parseReply_badLength gives other
    · exact parseReply_badCount count
  · exact congrArg Host.Outcome.next (if_neg (Nat.not_le.2 many))
  · refine congrArg Host.Outcome.next (s.expire_none ?_ _)
    rw [State.timeoutAt, idle]

end Sys2Proof.Machine
end

section
/-! SUPPORT. What selection offers (R133 to R137), and the statement. -/

namespace Sys2Proof.Machine

/-! ### What can be taken, and what is due -/

theorem eligible_iff (s : State) (d : Nat) : s.eligible d = true ↔ s.Takeable .safety d := by
  unfold State.eligible State.Takeable
  cases s.display d <;> simp

/-- R135: outside SAFETY the minimum refresh interval has passed too. -/
theorem intervalPassed_iff {s : State} {d : Nat} {u : Urgency} (h : u ≠ .safety) :
    (s.eligible d && s.intervalPassed d) = true ↔ s.Takeable u d := by
  unfold State.eligible State.intervalPassed State.Takeable
  cases s.display d with
  | none => simp
  | some x => cases hc : x.rt.lastCommit <;> simp [h, hc, NodeParams.minRefreshMs, Nat.mul_comm]

theorem pollDueOn_iff (s : State) (k : StringNo) (x : Display) : s.pollDueOn k x = true ↔ s.PollDue k x := by
  unfold State.pollDueOn State.PollDue Display.inRing
  cases hp : x.rt.lastPoll <;> simp [and_assoc]

theorem probeDueOn_iff (s : State) (k : StringNo) (x : Display) : s.probeDueOn k x = true ↔ s.ProbeDue k x := by
  unfold State.probeDueOn State.ProbeDue
  cases hp : x.rt.lastFail <;> simp [and_assoc, Config.probeIntervalMs]

/-! ### The display at the lowest position -/

/-- What a search for the lowest position comes to: one of those searched, with none of them below it. -/
theorem foldl_lowerPosition (es : List (Nat × Display)) (b : Nat × Display) :
    ∃ m, es.foldl lowerPosition (some b) = some m ∧ (m = b ∨ m ∈ es) ∧ m.2.cfg.position ≤ b.2.cfg.position ∧
      ∀ e ∈ es, m.2.cfg.position ≤ e.2.cfg.position := by
  induction es generalizing b with
  | nil => exact ⟨b, rfl, Or.inl rfl, Nat.le_refl _, List.forall_mem_nil _⟩
  | cons e es ih =>
    rw [List.foldl_cons, lowerPosition]
    split
    · rename_i below
      obtain ⟨m, found, among, least, rest⟩ := ih e
      refine ⟨m, found, Or.inr (List.mem_cons.2 among), least.trans below.le, List.forall_mem_cons.2 ⟨least, rest⟩⟩
    · rename_i above
      obtain ⟨m, found, among, least, rest⟩ := ih b
      refine ⟨m, found, among.imp_right (List.mem_cons_of_mem _), least,
        List.forall_mem_cons.2 ⟨least.trans (Nat.not_lt.1 above), rest⟩⟩

theorem lowest_some {es : List (Nat × Display)} {d : Nat} (h : lowest es = some d) :
    ∃ x, (d, x) ∈ es ∧ ∀ e ∈ es, x.cfg.position ≤ e.2.cfg.position := by
  cases es with
  | nil => cases h
  | cons e es =>
    obtain ⟨m, found, among, least, rest⟩ := foldl_lowerPosition es e
    have here : (some m).map (·.1) = some d := by rw [← found]; exact h
    cases here
    exact ⟨m.2, List.mem_cons.2 among, List.forall_mem_cons.2 ⟨least, rest⟩⟩

theorem lowest_none {es : List (Nat × Display)} (h : lowest es = none) : es = [] := by
  cases es with
  | nil => rfl
  | cons e es =>
    obtain ⟨m, found, -⟩ := foldl_lowerPosition es e
    have none : (some m).map (·.1) = none := by rw [← found]; exact h
    cases none

/-- R21: among the displays of a canonical table that meet a condition. -/
theorem mem_filter_displays {s : State} (hr : Tab.Rising s.displays) {p : Nat × Display → Bool} {j : Nat} {y : Display} :
    (j, y) ∈ s.displays.filter p ↔ s.display j = some y ∧ p (j, y) = true := by
  rw [List.mem_filter]
  exact and_congr_left' ⟨Tab.fetch_of_mem hr, Tab.mem_of_fetch⟩

/-! ### The poll and the probe that are offered (R136, R137) -/

/-- R136: a poll is due, and none that is due comes before it from past the cursor on, round the ring. -/
def State.PollOffered (s : State) (k : StringNo) (d : Nat) : Prop :=
  ∃ x, s.display d = some x ∧ s.PollDue k x ∧
    ∀ j y, s.display j = some y → s.PollDue k y →
      if (s.str k).cursor < x.cfg.position then y.cfg.position ≤ (s.str k).cursor ∨ x.cfg.position ≤ y.cfg.position
      else y.cfg.position ≤ (s.str k).cursor ∧ x.cfg.position ≤ y.cfg.position

def State.ProbeOffered (s : State) (k : StringNo) (d : Nat) : Prop :=
  ∃ x, s.display d = some x ∧ s.ProbeDue k x ∧ ∀ j y, s.display j = some y → s.ProbeDue k y → x.cfg.position ≤ y.cfg.position

def State.NoPollDue (s : State) (k : StringNo) : Prop := ∀ j y, s.display j = some y → ¬s.PollDue k y

def State.NoProbeDue (s : State) (k : StringNo) : Prop := ∀ j y, s.display j = some y → ¬s.ProbeDue k y

section Due

variable {s : State} (hr : Tab.Rising s.displays) {k : StringNo}

include hr

theorem duePoll_some {d : Nat} (h : s.duePoll k = some d) : s.PollOffered k d := by
  have due : ∀ {j : Nat} {y : Display}, (j, y) ∈ (s.displays.filter fun e => s.pollDueOn k e.2) ↔ s.display j = some y ∧ s.PollDue k y :=
    (mem_filter_displays hr).trans (and_congr_right' (pollDueOn_iff s k _))
  unfold State.duePoll at h
  dsimp only at h
  cases past : lowest ((s.displays.filter fun e => s.pollDueOn k e.2).filter fun e => decide ((s.str k).cursor < e.2.cfg.position)) with
  | some m =>
    rw [past] at h
    cases h
    obtain ⟨x, among, least⟩ := lowest_some past
    obtain ⟨here, beyond⟩ := List.mem_filter.1 among
    obtain ⟨here, poll⟩ := due.1 here
    refine ⟨x, here, poll, fun j y hy hp => ?_⟩
    rw [if_pos (of_decide_eq_true beyond)]
    by_cases hc : (s.str k).cursor < y.cfg.position
    · exact Or.inr (least (j, y) (List.mem_filter.2 ⟨due.2 ⟨hy, hp⟩, decide_eq_true hc⟩))
    · exact Or.inl (Nat.not_lt.1 hc)
  | none =>
    rw [past] at h
    have none := List.filter_eq_nil_iff.1 (lowest_none past)
    have before : ∀ {j : Nat} {y : Display}, s.display j = some y → s.PollDue k y → ¬(s.str k).cursor < y.cfg.position := fun hy hp hc =>
      none _ (due.2 ⟨hy, hp⟩) (decide_eq_true hc)
    obtain ⟨x, among, least⟩ := lowest_some (h : lowest _ = some d)
    obtain ⟨here, poll⟩ := due.1 among
    refine ⟨x, here, poll, fun j y hy hp => ?_⟩
    rw [if_neg (before here poll)]
    exact ⟨Nat.not_lt.1 (before hy hp), least (j, y) (due.2 ⟨hy, hp⟩)⟩

theorem duePoll_none (h : s.duePoll k = none) : s.NoPollDue k := by
  intro j y hy hp
  have empty := lowest_none ((Option.orElse_eq_none _ _).1 h).2
  have among := (mem_filter_displays hr (p := fun e => s.pollDueOn k e.2)).2 ⟨hy, (pollDueOn_iff s k y).2 hp⟩
  rw [empty] at among
  cases among

theorem dueProbe_some {d : Nat} (h : s.dueProbe k = some d) : s.ProbeOffered k d := by
  have due : ∀ {j : Nat} {y : Display}, (j, y) ∈ (s.displays.filter fun e => s.probeDueOn k e.2) ↔ s.display j = some y ∧ s.ProbeDue k y :=
    (mem_filter_displays hr).trans (and_congr_right' (probeDueOn_iff s k _))
  obtain ⟨x, among, least⟩ := lowest_some h
  obtain ⟨here, probe⟩ := due.1 among
  exact ⟨x, here, probe, fun j y hy hp => least (j, y) (due.2 ⟨hy, hp⟩)⟩

theorem dueProbe_none (h : s.dueProbe k = none) : s.NoProbeDue k := by
  intro j y hy hp
  have among := (mem_filter_displays hr (p := fun e => s.probeDueOn k e.2)).2 ⟨hy, (probeDueOn_iff s k y).2 hp⟩
  rw [lowest_none h] at among
  cases among

/-- R136, R137: a poll is offered ahead of a probe. -/
theorem dueOffer_some {o : Offer} (h : s.dueOffer k = some o) :
    (∃ d, o = .poll d ∧ s.PollOffered k d) ∨ ∃ d, o = .probe d ∧ s.ProbeOffered k d ∧ s.NoPollDue k := by
  unfold State.dueOffer at h
  cases poll : s.duePoll k with
  | some d =>
    rw [poll] at h
    cases h
    exact Or.inl ⟨d, rfl, duePoll_some hr poll⟩
  | none =>
    rw [poll] at h
    obtain ⟨d, probe, rfl⟩ := Option.map_eq_some_iff.1 (h : (s.dueProbe k).map Offer.probe = some o)
    exact Or.inr ⟨d, rfl, dueProbe_some hr probe, duePoll_none hr poll⟩

theorem dueOffer_none (h : s.dueOffer k = none) : s.NoPollDue k ∧ s.NoProbeDue k := by
  obtain ⟨poll, probe⟩ := (Option.orElse_eq_none _ _).1 h
  exact ⟨duePoll_none hr (Option.map_eq_none_iff.1 poll), dueProbe_none hr (Option.map_eq_none_iff.1 probe)⟩

end Due

/-! ### The dispatch that is offered (R134, R135) -/

/-- R131, R134: a display is the first of a queue, in queue order, that can be taken. -/
def State.FirstTakeable (s : State) (k : StringNo) (u : Urgency) (d stamp : Nat) : Prop :=
  ∃ pre post, (s.str k).queue u = pre ++ { display := d, stamp := stamp } :: post ∧ s.Takeable u d ∧ ∀ e ∈ pre, ¬s.Takeable u e.display

def State.NoneTakeable (s : State) (k : StringNo) (u : Urgency) : Prop := ∀ e ∈ (s.str k).queue u, ¬s.Takeable u e.display

section Queues

variable {s : State} {k : StringNo} {u : Urgency} {p : Nat → Bool} (hp : ∀ d, p d = true ↔ s.Takeable u d)

include hp

theorem queueOffer_some {o : Offer} (h : s.queueOffer k u p = some o) : ∃ d stamp, o = .dispatch d u stamp ∧ s.FirstTakeable k u d stamp := by
  obtain ⟨e, found, rfl⟩ := Option.map_eq_some_iff.1 h
  obtain ⟨takes, pre, post, split, before⟩ := List.find?_eq_some_iff_append.1 found
  exact ⟨e.display, e.stamp, rfl, pre, post, split, (hp _).1 takes, fun f hf ht => by simpa [(hp _).2 ht] using before f hf⟩

theorem queueOffer_none (h : s.queueOffer k u p = none) : s.NoneTakeable k u := fun e he ht =>
  List.find?_eq_none.1 (Option.map_eq_none_iff.1 h) e he ((hp _).2 ht)

end Queues

/-! ### The five steps of selection (R134) -/

theorem routineOpen_iff (s : State) (k : StringNo) :
    s.routineOpen k = true ↔ s.quietCopy = false ∨ s.node.quietMask.getLsbD k.val = true := by
  unfold State.routineOpen
  cases s.quietCopy <;> simp

/-- R134: what the five steps offer, each with what the steps before it have not found. -/
inductive State.Selects (s : State) (k : StringNo) : Offer → Prop where
  | safety {d stamp : Nat} (first : s.FirstTakeable k .safety d stamp)
      (due : Config.safetyRunLimit ≤ (s.str k).run → s.NoPollDue k ∧ s.NoProbeDue k) : s.Selects k (.dispatch d .safety stamp)
  | poll {d : Nat} (offered : s.PollOffered k d) (safety : (s.str k).run < Config.safetyRunLimit → s.NoneTakeable k .safety) :
      s.Selects k (.poll d)
  | probe {d : Nat} (offered : s.ProbeOffered k d) (polls : s.NoPollDue k)
      (safety : (s.str k).run < Config.safetyRunLimit → s.NoneTakeable k .safety) : s.Selects k (.probe d)
  | service {d stamp : Nat} (first : s.FirstTakeable k .service d stamp) (due : s.NoPollDue k ∧ s.NoProbeDue k)
      (safety : s.NoneTakeable k .safety) : s.Selects k (.dispatch d .service stamp)
  | routine {d stamp : Nat} (first : s.FirstTakeable k .routine d stamp) (due : s.NoPollDue k ∧ s.NoProbeDue k)
      (safety : s.NoneTakeable k .safety) (service : s.NoneTakeable k .service) (isOpen : s.routineOpen k = true) :
      s.Selects k (.dispatch d .routine stamp)

/-- The first of two that gives something. -/
theorem orElse_some {α : Type} {a b : Option α} {x : α} (h : (a <|> b) = some x) : a = some x ∨ (a = none ∧ b = some x) := by
  cases a with
  | none => exact Or.inr ⟨rfl, h⟩
  | some y => exact Or.inl h

section Selection

variable {s : State} (hr : Tab.Rising s.displays) {k : StringNo}

include hr

/-- R136, R137: a due poll or probe, at either of the two steps that look for one. -/
theorem selects_due {o : Offer} (h : s.dueOffer k = some o)
    (safety : (s.str k).run < Config.safetyRunLimit → s.NoneTakeable k .safety) : s.Selects k o := by
  rcases dueOffer_some hr h with ⟨d, rfl, poll⟩ | ⟨d, rfl, probe, polls⟩
  · exact .poll poll safety
  · exact .probe probe polls safety

/-- R134: the steps in their order, up to the first that offers something. -/
theorem selectionOffer_some {o : Offer} (h : s.selectionOffer k = some o) : s.Selects k o := by
  have waits : ∀ {u : Urgency}, u ≠ .safety → ∀ d, (s.eligible d && s.intervalPassed d) = true ↔ s.Takeable u d := fun hu _ =>
    intervalPassed_iff hu
  unfold State.selectionOffer at h
  rcases orElse_some h with first | ⟨unlimited, h⟩
  · split at first
    · exact selects_due hr first fun below => absurd below (Nat.not_lt.2 ‹_›)
    · cases first
  rcases orElse_some h with safety | ⟨noSafety, h⟩
  · obtain ⟨d, stamp, rfl, first⟩ := queueOffer_some (eligible_iff s) safety
    exact .safety first fun limit => dueOffer_none hr (by rwa [if_pos limit] at unlimited)
  have safety := queueOffer_none (eligible_iff s) noSafety
  rcases orElse_some h with due | ⟨noDue, h⟩
  · exact selects_due hr due fun _ => safety
  have due := dueOffer_none hr noDue
  rcases orElse_some h with service | ⟨noService, h⟩
  · obtain ⟨d, stamp, rfl, first⟩ := queueOffer_some (u := .service) (waits (by decide)) service
    exact .service first due safety
  split at h
  · obtain ⟨d, stamp, rfl, first⟩ := queueOffer_some (u := .routine) (waits (by decide)) h
    exact .routine first due safety (queueOffer_none (waits (by decide)) noService) ‹_›
  · cases h

theorem selectionOffer_none (h : s.selectionOffer k = none) :
    (s.NoPollDue k ∧ s.NoProbeDue k) ∧ (∀ u, u ≠ .routine → s.NoneTakeable k u) ∧
      (s.routineOpen k = true → s.NoneTakeable k .routine) := by
  have waits : ∀ {u : Urgency}, u ≠ .safety → ∀ d, (s.eligible d && s.intervalPassed d) = true ↔ s.Takeable u d := fun hu _ =>
    intervalPassed_iff hu
  unfold State.selectionOffer at h
  obtain ⟨-, h⟩ := (Option.orElse_eq_none _ _).1 h
  obtain ⟨safety, h⟩ := (Option.orElse_eq_none _ _).1 h
  obtain ⟨due, h⟩ := (Option.orElse_eq_none _ _).1 h
  obtain ⟨service, routine⟩ := (Option.orElse_eq_none _ _).1 h
  refine ⟨dueOffer_none hr due, fun u hu => ?_, fun isOpen => queueOffer_none (waits (by decide)) (by rwa [if_pos isOpen] at routine)⟩
  cases u with
  | safety => exact queueOffer_none (eligible_iff s) safety
  | service => exact queueOffer_none (waits (by decide)) service
  | routine => exact absurd rfl hu

end Selection

/-- Settles O42: each step of selection with what the steps before it have not found. -/
theorem selectionOrder : Obligations.SelectionOrder := by
  intro s k ok
  have hr := ok.displays.1
  have all : s.NoPollDue k ∧ s.NoProbeDue k → ∀ j x, s.display j = some x → ¬s.PollDue k x ∧ ¬s.ProbeDue k x :=
    fun due j x hx => ⟨due.1 j x hx, due.2 j x hx⟩
  refine ⟨fun o ho => ?_, fun idle enabled none => ?_⟩
  · unfold State.offer at ho
    split at ho
    · rename_i ready
      refine ⟨ready.1, ready.2, ?_⟩
      cases selectionOffer_some hr ho with
      | safety first due => exact ⟨first, fun limit => all (due (limit.resolve_right (not_not.2 rfl))), fun no => absurd rfl no, nofun⟩
      | poll offered safety => exact ⟨offered, safety⟩
      | probe offered polls safety => exact ⟨offered, polls, safety⟩
      | service first due safety => exact ⟨first, fun _ => all due, fun _ => safety, nofun⟩
      | routine first due safety service isOpen =>
        exact ⟨first, fun _ => all due, fun _ => safety, fun _ => ⟨(routineOpen_iff s k).1 isOpen, service⟩⟩
    · cases ho
  · obtain ⟨due, queues, routine⟩ := selectionOffer_none hr (by rwa [State.offer, if_pos ⟨idle, enabled⟩] at none)
    exact ⟨all due, queues, fun isOpen => routine ((routineOpen_iff s k).2 isOpen)⟩

end Sys2Proof.Machine
end

section
/-! SUPPORT. How a transaction on a string ends (R129, R140 to R145): the message it sends, the display it puts back or faults. -/

namespace Sys2Proof.Machine

/-! ### Messages and tries (R140) -/

/-- R140: a reply under the awaited tag is judged by the step that awaits it. -/
theorem stringReply_awaited {s : State} {k : StringNo} {t : Txn} (txn : (s.str k).txn = some t) (r : StringReply) :
    s.stringReply k t.tag r = s.answer k t r := by
  unfold State.stringReply
  rw [txn]
  exact if_pos rfl

theorem next_answer {s u : State} {k : StringNo} {t : Txn} (txn : (s.str k).txn = some t) {r : StringReply} (h : s.answer k t r = u) :
    Host.Outcome.next (s.stringReply k t.tag r) = (.next u : Result) :=
  congrArg Host.Outcome.next ((stringReply_awaited txn r).trans h)

/-- R140: a try sends the message of its step under the tag as it stands, which goes up after it. -/
theorem sendTry_eq (s : State) (k : StringNo) (t : Txn) :
    s.sendTry k t =
      s.setStr k { s.str k with
        txn := some { t with tag := (s.str k).tag, sentAt := s.now }
        tag := ((s.str k).tag + 1) % 256
        lineOut := stringBytes (s.str k).tag (s.message t).1 (s.message t).2 } := rfl

/-- R141, R144, R145: the message of a step as its rules give it. -/
theorem message_of_rules {s : State} {t : Txn} {code : Nat} {payload : List Byte} (h : s.Message t code payload) :
    s.message t = (code, payload) := by
  have position : ∀ {x : Display}, s.display t.display = some x → s.positionByte t.display = byteOf x.cfg.position := fun hx => by
    rw [State.positionByte, hx]
  unfold State.message
  rcases h with ⟨step, rfl, x, here, rfl⟩ | ⟨step, rfl, dg, kind⟩ | ⟨step, rfl, rfl⟩ | ⟨step, rfl, x, here, rfl⟩
  · rw [step, position here]
    rfl
  · rw [step, kind]
    rfl
  · rw [step]
    rfl
  · rw [step, position here]
    rfl

/-! ### The end of a transaction (R129, R140) -/

theorem endTxn_over (s : State) (k : StringNo) : s.endTxn k = s.setStr k ((s.str k).over false) := rfl

/-- R140: RELEASE is sent with the end of the transaction. -/
theorem releaseEnd_over (s : State) (k : StringNo) : (s.release k).endTxn k = s.setStr k ((s.str k).over true) := by
  rw [State.endTxn, State.release, setStr_setStr, str_setStr_same]
  rfl

theorem over_counter (c : StringCtl) (b : Bool) : (c.over b).counter = c.counter := rfl

/-- R129: the display of a transaction that has ended has not come to or left a place. -/
theorem State.TxnOver.ends {s t : State} {k : StringNo} {c : StringCtl} {d : Nat} {x : Display} (h : s.TxnOver t k c d x) (home : StringNo) :
    s.EndsTxn t k c d home := by
  refine ⟨h.displays, fun j _ => h.strings j, ?_⟩
  rw [h.strings home]
  exact .refl _ _

/-- Parts other than the displays and the strings have no say. -/
theorem State.TxnOver.congr {s t u : State} {k : StringNo} {c : StringCtl} {d : Nat} {x : Display} (h : s.TxnOver t k c d x)
    (displays : u.displays = t.displays) (strings : u.strings = t.strings) : s.TxnOver u k c d x := by
  have display : u.display = t.display := funext fun j => congrArg (Tab.fetch · j) displays
  have str : u.str = t.str := funext fun j => congrArg (·[j]) strings
  obtain ⟨here, others, strs, counter⟩ := h
  exact ⟨by rwa [display], by rwa [display], by rwa [str], by rwa [str]⟩

/-- R132: a CLEAN display without a return place stands where it is. -/
theorem State.TxnOver.standsClean {s t : State} {k : StringNo} {c : StringCtl} {d : Nat} {x : Display} (h : s.TxnOver t k c d x)
    (clean : x.rt.state = .clean) : s.StandsBack t k c d none x := by
  refine ⟨h.display, h.ends _, ?_, (h.counter _).ge, nofun⟩
  rw [clean]
  nofun

/-! ### The parts of State that the end of a transaction can change -/

/-- The displays, the strings and the Report Queue. -/
abbrev faultParts : List Part := screenParts ++ reportParts

theorem screens_faultParts {s t : State} (h : s.ScreensOnly t) : s.Only t faultParts := h.only.mono _ (by decide)

theorem report_faultParts (s : State) (k : ReportKind) (a b : Nat) : s.Only (s.queueReport k a b) faultParts :=
  (queueReport_only s k a b).mono _ (by decide)

/-- What only the displays and the strings have changed of, put back. -/
theorem State.ScreensOnly.frame {s t : State} (h : s.ScreensOnly t) : { t with displays := s.displays, strings := s.strings } = s := by
  rw [h]

theorem faultParts_frame {s t : State} (h : s.Only t faultParts) :
    { t with displays := s.displays, strings := s.strings, reports := s.reports, reportArrival := s.reportArrival } = s := by
  refine State.eq_of_agree fun p => ?_
  have agree := h p
  cases p
  case displays | strings | reports | reportArrival => rfl
  all_goals exact agree (by decide)

theorem returnToPlace_screens (s : State) (d : Nat) (place : Option (Urgency × Nat)) : s.ScreensOnly (s.returnToPlace d place) := by
  unfold State.returnToPlace
  split
  · exact enterAt_screens _ _ _ _
  · exact onRuntime_screens _ _ _

theorem applyStale_screens (s : State) (d : Nat) : s.ScreensOnly (s.applyStale d) := by
  unfold State.applyStale
  split
  · exact .refl s
  · split
    · exact (setDisplay_screens _ _ _).trans (mark_screens _ _ _)
    · exact .refl s

/-! ### A display put back (R132) -/

/-- R132, R142, R144: a transaction over, the record of its display changed, and the display put back, with its stale mark. -/
def State.returned (s : State) (k : StringNo) (c : StringCtl) (d : Nat) (f : DisplayRuntime → DisplayRuntime)
    (place : Option (Urgency × Nat)) : State := (((s.setStr k c).onRuntime d f).returnToPlace d place).applyStale d

theorem returned_standsBack {s : State} {k : StringNo} {c : StringCtl} {d : Nat} {x : Display} (here : s.display d = some x)
    (counter : c.counter = (s.str k).counter) (f : DisplayRuntime → DisplayRuntime) (place : Option (Urgency × Nat)) :
    s.StandsBack (s.returned k c d f place) k c d place (({ x with rt := f x.rt } : Display).putBack place) :=
  ((setStr_onRuntime_over here counter f).standsBack place).applyStale

theorem returned_screens (s : State) (k : StringNo) (c : StringCtl) (d : Nat) (f : DisplayRuntime → DisplayRuntime)
    (place : Option (Urgency × Nat)) : s.ScreensOnly (s.returned k c d f place) :=
  (((setStr_screens _ _ _).trans (onRuntime_screens _ _ _)).trans (returnToPlace_screens _ _ _)).trans (applyStale_screens _ _)

/-! ### A display faulted (R143) -/

/-- R143: a display faulted at a time. -/
def Display.faultedAt (x : Display) (cause : FaultCause) (now : Nat) : Display :=
  { x with rt := { x.rt with state := .faulted, fault := some cause, failures := 3, stale := none, lastFail := some now } }

/-- R143, R145: with no report. -/
theorem faultDisplay_over {s : State} {k : StringNo} {c : StringCtl} {d : Nat} {x : Display} (here : s.display d = some x)
    (counter : c.counter = (s.str k).counter) (cause : FaultCause) :
    s.TxnOver ((s.setStr k c).faultDisplay d cause) k c d (x.faultedAt cause s.now) := setStr_onRuntime_over here counter _

theorem faultDisplay_screens (s : State) (k : StringNo) (c : StringCtl) (d : Nat) (cause : FaultCause) :
    s.ScreensOnly ((s.setStr k c).faultDisplay d cause) := (setStr_screens _ _ _).trans (onRuntime_screens _ _ _)

/-- R143: with its report. -/
theorem faultReported_over {s : State} {k : StringNo} {c : StringCtl} {d : Nat} {x : Display} (here : s.display d = some x)
    (counter : c.counter = (s.str k).counter) (cause : FaultCause) :
    s.TxnOver ((s.setStr k c).faultReported d cause) k c d (x.faultedAt cause s.now) := by
  have reported := report_faultParts ((s.setStr k c).faultDisplay d cause) .displayFault d cause.code
  exact (faultDisplay_over here counter cause).congr
    (queueReport_only _ _ _ _ .displays (by decide)) (queueReport_only _ _ _ _ .strings (by decide))

theorem faultReported_reports (s : State) (k : StringNo) (c : StringCtl) (d : Nat) (cause : FaultCause) :
    Reported s.stamp .displayFault d cause.code s.reporting ((s.setStr k c).faultReported d cause).reporting :=
  queueReport_reported ((s.setStr k c).faultDisplay d cause) .displayFault d cause.code

theorem faultReported_parts (s : State) (k : StringNo) (c : StringCtl) (d : Nat) (cause : FaultCause) :
    s.Only ((s.setStr k c).faultReported d cause) faultParts :=
  (screens_faultParts (faultDisplay_screens s k c d cause)).trans (report_faultParts _ _ _ _)

/-! ### The third failed try of a step (R142, R144) -/

/-- R142, R144: the third failed try of a dispatch, with RELEASE, or of a poll, without one, counts. -/
theorem failTransaction_counts {s : State} {t : Txn} (kind : t.kind ≠ .probe) (k : StringNo) (cause : FaultCause) :
    s.failTransaction k t cause = (s.setStr k ((s.str k).over (t.kind ≠ .poll))).countFailure t cause := by
  unfold State.failTransaction
  cases hk : t.kind with
  | dispatch record dg => rw [releaseEnd_over]; rfl
  | poll => rfl
  | probe => exact absurd hk kind

/-- R142, R144: what the failure counted makes of the record, before the display's return. -/
def State.failureCounted (s : State) (r : DisplayRuntime) : DisplayRuntime :=
  { r with failures := r.failures + 1, lastFail := some s.now }

/-- R142, R144: below the third failure the display returns to its place. -/
theorem failTransaction_returns {s : State} {t : Txn} {x : Display} (kind : t.kind ≠ .probe) (here : s.display t.display = some x)
    (few : x.rt.failures < 2) (k : StringNo) (cause : FaultCause) :
    s.failTransaction k t cause = s.returned k ((s.str k).over (t.kind ≠ .poll)) t.display s.failureCounted t.place := by
  rw [failTransaction_counts kind]
  unfold State.countFailure
  rw [display_setStr, here]
  exact if_neg (by omega)

theorem failTransaction_faults {s : State} {t : Txn} {x : Display} (kind : t.kind ≠ .probe) (here : s.display t.display = some x)
    (many : 2 ≤ x.rt.failures) (k : StringNo) (cause : FaultCause) :
    s.failTransaction k t cause = (s.setStr k ((s.str k).over (t.kind ≠ .poll))).faultReported t.display cause := by
  rw [failTransaction_counts kind]
  unfold State.countFailure
  rw [display_setStr, here]
  exact if_pos (by omega)

/-- R145: the third failed try of a probe faults its display again, without a report. -/
theorem failTransaction_probe {s : State} {t : Txn} (kind : t.kind = .probe) (k : StringNo) (cause : FaultCause) :
    s.failTransaction k t cause = (s.setStr k ((s.str k).over true)).faultDisplay t.display cause := by
  unfold State.failTransaction
  rw [kind, ← releaseEnd_over]

end Sys2Proof.Machine
end
section
/-! SUPPORT. The statements about the replies to a dispatch, the tries that fail and the outcomes of a probe (R140 to R145). -/

namespace Sys2Proof.Machine

/-! ### The replies to a dispatch (R141) -/

/-- R141, R145: READY with another class than the display's. -/
theorem onReady_mismatch {s : State} {k : StringNo} {t : Txn} {x : Display} (here : s.display t.display = some x) {cls : Nat}
    (other : cls ≠ x.cfg.cls.code) : s.onReady k t cls = s.mismatch k t := by
  unfold State.onReady
  rw [here]
  exact if_neg other

theorem answer_ready {s : State} {t : Txn} (step : t.step = .select) (k : StringNo) (cls : Nat) :
    s.answer k t (.ready cls) = s.onReady k t cls := by
  unfold State.answer
  rw [step]

theorem answer_busy {s : State} {t : Txn} (step : t.step = .select) (k : StringNo) (ms : Nat) :
    s.answer k t (.busy ms) = s.onBusy k t ms := by
  unfold State.answer
  rw [step]

theorem answer_ack {s : State} {t : Txn} (step : t.step = .screen) (k : StringNo) :
    s.answer k t .ack = s.sendTry k { t with step := .commit, tries := 1 } := by
  unfold State.answer
  rw [step]

theorem answer_refresh {s : State} {t : Txn} (step : t.step = .commit) {record : List Byte} {dg : Word16}
    (kind : t.kind = .dispatch record dg) (k : StringNo) (ms : Nat) : s.answer k t (.refresh ms) = s.onRefresh k t dg ms := by
  unfold State.answer
  rw [step, kind]

/-- R132: without a stale mark nothing is applied. -/
theorem applyStale_fresh {s : State} {d : Nat} {x : Display} (here : s.display d = some x) (fresh : x.rt.stale = none) :
    s.applyStale d = s := by
  unfold State.applyStale
  rw [here]
  dsimp only
  rw [fresh]

section Dispatch

variable {s : State} {k : StringNo} {t : Txn} {record : List Byte} {dg : Word16} {x : Display}

/-- R141: READY with the display's class carries a dispatch on to SCREEN. -/
theorem onReady_dispatch (kind : t.kind = .dispatch record dg) (here : s.display t.display = some x) :
    s.onReady k t x.cfg.cls.code =
      s.setStr k { s.str k with
        txn := some { t with step := .screen, tries := 1, tag := (s.str k).tag, sentAt := s.now }
        tag := ((s.str k).tag + 1) % 256
        lineOut := stringBytes (s.str k).tag 2 record } := by
  have message : s.message { t with step := .screen, tries := 1 } = (2, record) :=
    message_of_rules (Or.inr (Or.inl ⟨rfl, rfl, dg, kind⟩))
  have screen : s.onReady k t x.cfg.cls.code = s.sendTry k { t with step := .screen, tries := 1 } := by
    unfold State.onReady
    rw [here]
    dsimp only
    rw [if_pos rfl, kind]
  rw [screen, sendTry_eq, message]

/-- R141: ACK carries it on to COMMIT. -/
theorem sendTry_commit :
    s.sendTry k { t with step := .commit, tries := 1 } =
      s.setStr k { s.str k with
        txn := some { t with step := .commit, tries := 1, tag := (s.str k).tag, sentAt := s.now }
        tag := ((s.str k).tag + 1) % 256
        lineOut := stringBytes (s.str k).tag 3 [] } := by
  rw [sendTry_eq, message_of_rules (t := { t with step := .commit, tries := 1 }) (Or.inr (Or.inr (Or.inl ⟨rfl, rfl, rfl⟩)))]

/-- R143: READY with another class faults the display of a dispatch. -/
theorem mismatch_dispatch (kind : t.kind = .dispatch record dg) :
    s.mismatch k t = (s.setStr k ((s.str k).over true)).faultReported t.display .mismatch := by
  unfold State.mismatch
  rw [kind, ← releaseEnd_over]

/-- R141: BUSY puts the display of a dispatch back. -/
theorem onBusy_dispatch (kind : t.kind = .dispatch record dg) (ms : Nat) :
    s.onBusy k t ms =
      s.returned k ((s.str k).over false) t.display (fun r => { r with busyUntil := s.now + min ms 10000 }) t.place := by
  unfold State.onBusy
  rw [kind]
  rfl

/-- R141: the record of a display delivered, before its stale mark is applied. -/
def State.delivered (s : State) (dg : Word16) (ms : Nat) (r : DisplayRuntime) : DisplayRuntime :=
  { r with digest := some dg, lastCommit := some s.now, busyUntil := s.now + min ms 10000, failures := 0, state := .clean }

theorem onRefresh_eq (s : State) (k : StringNo) (t : Txn) (dg : Word16) (ms : Nat) :
    s.onRefresh k t dg ms = ((s.setStr k ((s.str k).over true)).onRuntime t.display (s.delivered dg ms)).applyStale t.display := by
  unfold State.onRefresh
  rw [releaseEnd_over]
  rfl

/-- R141: REFRESH completes the delivery, and the display has no place to return to. -/
theorem onRefresh_standsBack (here : s.display t.display = some x) (dg : Word16) (ms : Nat) :
    s.StandsBack (s.onRefresh k t dg ms) k ((s.str k).over true) t.display none
      (({ x with rt := s.delivered dg ms x.rt } : Display).putBack none) := by
  rw [onRefresh_eq]
  exact State.StandsBack.applyStale ((setStr_onRuntime_over here (over_counter _ _) _).standsClean rfl)

theorem onRefresh_screens (s : State) (k : StringNo) (t : Txn) (dg : Word16) (ms : Nat) : s.ScreensOnly (s.onRefresh k t dg ms) := by
  rw [onRefresh_eq]
  exact ((setStr_screens _ _ _).trans (onRuntime_screens _ _ _)).trans (applyStale_screens _ _)

/-- R141: with no stale mark the delivery moves no place on any string. -/
theorem onRefresh_fresh (here : s.display t.display = some x) (fresh : x.rt.stale = none) (dg : Word16) (ms : Nat) :
    (s.onRefresh k t dg ms).str k = (s.str k).over true := by
  have ended := setStr_onRuntime_over (k := k) here (over_counter (s.str k) true) (s.delivered dg ms)
  rw [onRefresh_eq, applyStale_fresh ended.display fresh, ended.strings, if_pos rfl]

end Dispatch

/-- Settles O45: each reply by the step that awaits it. -/
theorem dispatchReplies : Obligations.DispatchReplies := by
  intro s k t record dg x txn kind here
  refine ⟨fun step => next_answer txn ?_, fun step => next_answer txn ?_, fun step cls other => ?_, fun ms step => ?_, fun ms step => ?_⟩
  · rw [answer_ready step, onReady_dispatch kind here]
  · rw [answer_ack step, sendTry_commit]
  · have faulted := faultReported_over (k := k) here (over_counter (s.str k) true) .mismatch
    refine ⟨_, next_answer txn ?_, faulted.display, faulted.displays, faulted.strings, faultReported_reports _ _ _ _ _,
      faultParts_frame (faultReported_parts _ _ _ _ _)⟩
    rw [answer_ready step, onReady_mismatch here other, mismatch_dispatch kind]
  · have back := onRefresh_standsBack (k := k) here dg ms
    exact ⟨_, next_answer txn (answer_refresh step kind k ms), back.display, back.ends, fun fresh => onRefresh_fresh here fresh dg ms, back.back,
      (onRefresh_screens s k t dg ms).frame⟩
  · have back := returned_standsBack (k := k) here (over_counter (s.str k) false)
      (fun r => { r with busyUntil := s.now + min ms 10000 }) t.place
    refine ⟨_, next_answer txn ?_, back.display, back.ends, back.back, (returned_screens _ _ _ _ _ _).frame⟩
    rw [answer_busy step, onBusy_dispatch kind]

/-! ### Tries that fail (R140, R142 to R144) -/

/-- R140: a reply that the message of the step does not expect is a failed try. -/
theorem answer_unexpected {s : State} {k : StringNo} {t : Txn} {r : StringReply} (h : ¬t.step.Expects r) :
    s.answer k t r = s.failTry k t .rejected := by
  unfold State.answer
  split
  case h_1 step | h_2 step | h_3 step | h_5 step => exact absurd (by rw [step]; trivial) h
  case h_4 step _ => exact absurd (by rw [step]; trivial) h
  case h_6 => rfl

/-- R181: a reply's command, with at most four events, is the reply on its string. -/
theorem exec_reply {k : StringNo} {tag : Nat} {r : StringReply} {i : Instr} (command : r.command k tag = some i)
    (few : ∀ cs, r = .events cs → cs.length ≤ 4) (s : State) : exec i s = .next (s.stringReply k tag r) := by
  cases r <;> cases command
  case events cs => exact congrArg Host.Outcome.next (if_pos (few cs rfl))
  all_goals rfl

/-- R181: a code that is none of the six is judged by the length of its payload. The model's match is opened down to its tests of the
code, for its case principle costs more than the rest of this file. -/
theorem parseReply_other {code : Nat} (other : code ∉ replyCodes) (payload : List Byte) :
    StringReply.parse code payload = if payloadFits code payload.length then some (.unknown code) else none := by
  simp only [replyCodes, List.mem_cons, List.not_mem_nil, or_false, not_or] at other
  obtain ⟨ready, busy, ack, nak, refresh, events⟩ := other
  delta StringReply.parse StringReply.parse.match_1
  simp only [dif_neg ready, dif_neg busy, dif_neg ack, dif_neg nak, dif_neg refresh, dif_neg events]

theorem payloadFits_of_length {code n : Nat} (other : code ∉ replyCodes) (fits : ∀ m, payloadLength code = some m → n = m) :
    payloadFits code n = true := by
  unfold payloadFits
  split
  case h_5 =>
    simp only [replyCodes, List.mem_cons, List.not_mem_nil, or_false, not_or] at other
    simp only [Bool.not_eq_true', Bool.and_eq_false_iff, decide_eq_false_iff_not]
    omega
  all_goals exact beq_iff_eq.2 (fits _ rfl)

/-- R140: a reply that the awaiting step rejects is a failed try. -/
theorem exec_rejects {s : State} {k : StringNo} {t : Txn} {i : Instr} (txn : (s.str k).txn = some t) (h : t.Rejects k i) :
    exec i s = .next (s.failTry k t .rejected) := by
  rcases h with ⟨r, command, unexpected, few⟩ | ⟨code, payload, ht, hc, other, size, fits, rfl⟩
  · rw [exec_reply command few, stringReply_awaited txn, answer_unexpected unexpected]
  · refine congrArg Host.Outcome.next ?_
    rw [State.replyBytes, stringBytes_layout, parseStringReply_layout ht hc size, parseReply_other other,
      if_pos (payloadFits_of_length other fits)]
    refine (stringReply_awaited txn _).trans (answer_unexpected ?_)
    cases t.step
    all_goals exact id

/-- R140: a try fails by a rejection, or unanswered, with the cause and the time that this gives. -/
def State.TryFails (s : State) (k : StringNo) (t : Txn) (i : Instr) (cause : FaultCause) (n : Nat) : Prop :=
  (t.Rejects k i ∧ cause = .rejected ∧ n = s.now) ∨
    (i = .replyTimeout k ∧ cause = .noReply ∧ n = max s.now (t.sentAt + (s.str k).timeout))

/-- The state with its time base at an instant. -/
def State.atTime (s : State) (n : Nat) : State := { s with now := n }

theorem exec_tryFails {s : State} {k : StringNo} {t : Txn} {i : Instr} {cause : FaultCause} {n : Nat} (txn : (s.str k).txn = some t)
    (h : s.TryFails k t i cause n) : exec i s = .next ((s.atTime n).failTry k t cause) := by
  rcases h with ⟨rejects, rfl, rfl⟩ | ⟨rfl, rfl, rfl⟩
  · exact exec_rejects txn rejects
  · have due : s.timeoutAt k = some (t.sentAt + (s.str k).timeout) := by rw [State.timeoutAt, txn]
    refine congrArg Host.Outcome.next ((s.expire_some due _).trans ?_)
    unfold State.unanswered
    rw [show (({ s with now := max s.now (t.sentAt + (s.str k).timeout) } : State).str k).txn = some t from txn]
    rfl

theorem failTry_third {s : State} {t : Txn} (third : t.tries = 3) (k : StringNo) (cause : FaultCause) :
    s.failTry k t cause = s.failTransaction k t cause := if_neg (by rw [third]; decide)

/-- R140: below the third try the message of the step is sent again. -/
theorem failTry_repeats {s : State} {t : Txn} (few : t.tries < 3) (k : StringNo) (cause : FaultCause) :
    s.failTry k t cause =
      s.setStr k { s.str k with
        txn := some { t with tries := t.tries + 1, tag := (s.str k).tag, sentAt := s.now }
        tag := ((s.str k).tag + 1) % 256
        lineOut := stringBytes (s.str k).tag (s.message t).1 (s.message t).2 } := if_pos few

theorem State.EndsTxn.of_atTime {s u : State} {n d : Nat} {k home : StringNo} {c : StringCtl}
    (h : (s.atTime n).EndsTxn u k c d home) : s.EndsTxn u k c d home := ⟨h.displays, h.strings, h.places⟩

/-- The time, and what a fault can change, put back. -/
theorem faultParts_frame_atTime {s u : State} {n : Nat} (h : (s.atTime n).Only u faultParts) :
    { u with now := s.now, displays := s.displays, strings := s.strings, reports := s.reports, reportArrival := s.reportArrival } = s :=
  congrArg (fun v : State => { v with now := s.now }) (faultParts_frame h)

/-- Settles O46: a failed try is repeated, counted, or the fault. -/
theorem triesFail : Obligations.TriesFail := by
  intro s k t i cause n txn fails
  have failed := exec_tryFails txn fails
  refine ⟨fun code payload => message_of_rules, fun few => ?_, fun x third kind here => ?_⟩
  · rw [failed, failTry_repeats few]
    rfl
  have now : (s.atTime n).display t.display = some x := here
  rw [failTry_third third] at failed
  by_cases few : x.rt.failures < 2
  · rw [failTransaction_returns kind now few] at failed
    have back := returned_standsBack (k := k) now (over_counter _ (t.kind ≠ .poll)) (s.atTime n).failureCounted t.place
    have screens := returned_screens (s.atTime n) k (((s.atTime n).str k).over (t.kind ≠ .poll)) t.display
      (s.atTime n).failureCounted t.place
    exact ⟨_, failed, screens.now_eq, back.ends.of_atTime,
      fun _ => ⟨back.display, back.back, Prod.ext screens.reports_eq screens.reportArrival_eq⟩, fun many => absurd few (Nat.not_lt.2 many),
      faultParts_frame_atTime (screens_faultParts screens)⟩
  · rw [failTransaction_faults kind now (Nat.not_lt.1 few)] at failed
    have faulted := faultReported_over (k := k) now (over_counter _ (t.kind ≠ .poll)) cause
    have parts := faultReported_parts (s.atTime n) k (((s.atTime n).str k).over (t.kind ≠ .poll)) t.display cause
    exact ⟨_, failed, parts .now (by decide), (faulted.ends _).of_atTime, fun less => absurd less few,
      fun _ => ⟨faulted.display, (faulted.strings k).trans (if_pos rfl), faultReported_reports (s.atTime n) _ _ _ _⟩, faultParts_frame_atTime parts⟩

/-! ### The outcomes of a probe (R145) -/

/-- R145: the record of a display that has recovered, before its mark. -/
def DisplayRuntime.recovered (r : DisplayRuntime) : DisplayRuntime :=
  { r with state := .clean, stale := none, digest := none, failures := 0, fault := none }

/-- R145: the urgency of its mark. -/
def State.recoveryUrgency (s : State) (x : Display) : Urgency :=
  match x.rt.stale with
  | some v => s.writeUrgency.max v
  | none => s.writeUrgency

/-- R145: the state that a recovery leaves before its mark. -/
def State.recovered (s : State) (k : StringNo) (d : Nat) (x : Display) : State :=
  ((s.setStr k ((s.str k).over true)).onRuntime d DisplayRuntime.recovered).queueReport .displayRecovered d x.cfg.cls.code

section Probe

variable {s : State} {k : StringNo} {t : Txn} {x : Display}

theorem probeSuccess_eq (s : State) (k : StringNo) (d : Nat) (x : Display) :
    s.probeSuccess k d x = (s.recovered k d x).mark d (s.recoveryUrgency x) := by
  unfold State.probeSuccess
  rw [releaseEnd_over]
  rfl

/-- R145: the recovered display waits at the higher of the write urgency and its stale urgency. -/
theorem recovered_marked (s : State) (x : Display) :
    ({ x with rt := x.rt.recovered } : Display).markedAt (s.recoveryUrgency x) =
      { x with
        rt := { x.rt with
          digest := none, failures := 0, fault := none, stale := none
          state := stateBack (some (emergencyUrgency s.ship.phase, 0)) x.rt.stale } } := by
  unfold State.recoveryUrgency
  rw [s.writeUrgency_eq]
  cases x.rt.stale
  all_goals rfl

theorem probeSuccess_standsBack (here : s.display t.display = some x) :
    s.StandsBack (s.probeSuccess k t.display x) k ((s.str k).over true) t.display none
      (({ x with rt := x.rt.recovered } : Display).markedAt (s.recoveryUrgency x)) := by
  have ended := setStr_onRuntime_over (k := k) here (over_counter (s.str k) true) DisplayRuntime.recovered
  rw [probeSuccess_eq]
  exact ((ended.standsClean rfl).congr (queueReport_only _ _ _ _ .displays (by decide))
    (queueReport_only _ _ _ _ .strings (by decide))).mark _

theorem probeSuccess_reports (s : State) (k : StringNo) (d : Nat) (x : Display) :
    Reported s.stamp .displayRecovered d x.cfg.cls.code s.reporting (s.probeSuccess k d x).reporting := by
  have marked := mark_screens (s.recovered k d x) d (s.recoveryUrgency x)
  rw [probeSuccess_eq, show ((s.recovered k d x).mark d (s.recoveryUrgency x)).reporting = (s.recovered k d x).reporting from
    Prod.ext marked.reports_eq marked.reportArrival_eq]
  exact queueReport_reported ((s.setStr k ((s.str k).over true)).onRuntime d DisplayRuntime.recovered) _ _ _

theorem probeSuccess_parts (s : State) (k : StringNo) (d : Nat) (x : Display) : s.Only (s.probeSuccess k d x) faultParts := by
  rw [probeSuccess_eq]
  exact ((screens_faultParts ((setStr_screens _ _ _).trans (onRuntime_screens _ _ _))).trans (report_faultParts _ _ _ _)).trans
    (screens_faultParts (mark_screens _ _ _))

/-- R145: READY with the display's class ends a probe well. -/
theorem onReady_probe (kind : t.kind = .probe) (here : s.display t.display = some x) :
    s.onReady k t x.cfg.cls.code = s.probeSuccess k t.display x := by
  unfold State.onReady
  rw [here]
  dsimp only
  rw [if_pos rfl, kind]

theorem mismatch_probe (kind : t.kind = .probe) :
    s.mismatch k t = (s.setStr k ((s.str k).over true)).faultDisplay t.display .mismatch := by
  unfold State.mismatch
  rw [kind, ← releaseEnd_over]

/-- R145: what BUSY makes of the record of a display that is probed; its cause stays. -/
def State.probedBusy (s : State) (ms : Nat) (r : DisplayRuntime) : DisplayRuntime :=
  { r with state := .faulted, stale := none, busyUntil := s.now + min ms 10000, lastFail := some s.now }

theorem onBusy_probe_over (kind : t.kind = .probe) (here : s.display t.display = some x) (ms : Nat) :
    s.TxnOver (s.onBusy k t ms) k ((s.str k).over false) t.display { x with rt := s.probedBusy ms x.rt } := by
  have ended := setStr_onRuntime_over (k := k) here (over_counter (s.str k) false) fun r =>
    { r with busyUntil := s.now + min ms 10000 }
  have busy : s.onBusy k t ms =
      ((s.setStr k ((s.str k).over false)).onRuntime t.display fun r => { r with busyUntil := s.now + min ms 10000 }).onRuntime t.display
        fun r => { r with state := .faulted, stale := none, lastFail := some s.now } := by
    unfold State.onBusy
    rw [kind]
    rfl
  rw [busy]
  refine ⟨?_, fun j hj => ?_, ended.strings, ended.counter⟩
  · rw [display_onRuntime, if_pos rfl, ended.display]
    rfl
  · rw [display_onRuntime, if_neg hj, ended.displays j hj]

theorem onBusy_probe_screens (kind : t.kind = .probe) (ms : Nat) : s.ScreensOnly (s.onBusy k t ms) := by
  unfold State.onBusy
  rw [kind]
  exact ((setStr_screens _ _ _).trans (onRuntime_screens _ _ _)).trans (onRuntime_screens _ _ _)

end Probe

/-- Settles O47: recovery, and the three ways to stay FAULTED. -/
theorem probeOutcomes : Obligations.ProbeOutcomes := by
  intro s k t x txn kind step here _
  refine ⟨?_, fun cls other => ?_, fun ms => ?_, fun i cause n third fails => ?_⟩
  · have back := probeSuccess_standsBack (k := k) here
    rw [recovered_marked] at back
    exact ⟨_, next_answer txn ((answer_ready step k _).trans (onReady_probe kind here)), back.display, back.ends, back.back,
      probeSuccess_reports _ _ _ _, faultParts_frame (probeSuccess_parts _ _ _ _)⟩
  · have faulted := faultDisplay_over (k := k) here (over_counter (s.str k) true) .mismatch
    refine ⟨_, next_answer txn ?_, faulted.display, faulted.displays, faulted.strings, (faultDisplay_screens _ _ _ _ _).frame⟩
    rw [answer_ready step, onReady_mismatch here other, mismatch_probe kind]
  · have busy := onBusy_probe_over (k := k) kind here ms
    exact ⟨_, next_answer txn (answer_busy step k ms), busy.display, busy.displays, busy.strings, (onBusy_probe_screens kind ms).frame⟩
  · have failed := exec_tryFails txn fails
    rw [failTry_third third, failTransaction_probe kind] at failed
    have faulted := faultDisplay_over (s := s.atTime n) (k := k) here (over_counter _ true) cause
    have screens := faultDisplay_screens (s.atTime n) k (((s.atTime n).str k).over true) t.display cause
    exact ⟨_, failed, screens.now_eq, faulted.display, faulted.displays, faulted.strings,
      congrArg (fun v : State => { v with now := s.now }) screens.frame⟩

end Sys2Proof.Machine
end

section
/-! SUPPORT. HOLD_STRING and FREE_STRING under access (R129, R130). -/

namespace Sys2Proof.Machine

/-- R129, R130: the state of a string once a hold is asked for. -/
def heldState : StringState → StringState
  | .idle => .held
  | .opened => .holding
  | .holding => .holding
  | .held => .held

/-- R130: a hold changes a controller's state alone. -/
theorem StringCtl.hold_eq (c : StringCtl) : c.hold = { c with state := heldState c.state } := by
  obtain ⟨_, _, _, state⟩ := c
  cases state <;> rfl

/-- R130: so does its end. -/
theorem StringCtl.free_eq (c : StringCtl) : c.free = { c with state := freedState c.state } := by
  obtain ⟨_, _, _, state⟩ := c
  cases state <;> rfl

/-- R164, R172: a string's number that access lets the origin write. -/
theorem mayWrite_string {s : State} {o : Nat} {k : StringNo} (access : s.WriteAccess o 2 k.val) :
    s.mayWrite o tblStrings k.val = true := (s.mayWrite_iff o 2 k.val k.isLt).2 access

/-- R130: HOLD_STRING, with its refusal in ALERT and MUSTER. -/
theorem answerHold_written {s : State} {o : Nat} {k : StringNo} (access : s.WriteAccess o 2 k.val) :
    s.answerHold o k.val =
      if s.ship.phase = .alert ∨ s.ship.phase = .muster then s.refuse .phase
      else (s.setStr k { s.str k with state := heldState (s.str k).state }).done := by
  have index : decide (k.val ≤ 7) = true := decide_eq_true (Nat.le_of_lt_succ k.isLt)
  simp only [State.answerHold, State.checked, firstRefusal, index, mayWrite_string access, stringNo_val, StringCtl.hold_eq,
    ← Phase.emergency_iff]
  cases s.ship.phase.emergency <;> rfl

/-- R130: FREE_STRING, which no phase refuses. -/
theorem answerFree_written {s : State} {o : Nat} {k : StringNo} (access : s.WriteAccess o 2 k.val) :
    s.answerFree o k.val = (s.setStr k { s.str k with state := freedState (s.str k).state }).done := by
  have index : decide (k.val ≤ 7) = true := decide_eq_true (Nat.le_of_lt_succ k.isLt)
  simp only [State.answerFree, State.checked, firstRefusal, index, mayWrite_string access, stringNo_val, StringCtl.free_eq]
  rfl

/-- R130: HOLD_STRING as a command. -/
theorem exec_holdString {a : Arrival} {k : StringNo} {s : State} (asked : s.Asked a) (access : s.WriteAccess a.origin 2 k.val) :
    exec (.holdString a k.val) s =
      .next (if s.ship.phase = .alert ∨ s.ship.phase = .muster then s.answered a 6 5 []
        else (s.setStr k { s.str k with state := heldState (s.str k).state }).answered a 0 5 []) := by
  refine congrArg Host.Outcome.next ((requestArrives_asked asked (r := .holdString k.val) (by decide : 2 ≤ 1024) rfl).trans ?_)
  rw [show s.respond a.origin (.holdString k.val) = s.answerHold a.origin k.val from rfl, answerHold_written access]
  split <;> rfl

/-- R130: FREE_STRING as a command. -/
theorem exec_freeString {a : Arrival} {k : StringNo} {s : State} (asked : s.Asked a) (access : s.WriteAccess a.origin 2 k.val) :
    exec (.freeString a k.val) s =
      .next ((s.setStr k { s.str k with state := freedState (s.str k).state }).answered a 0 6 []) := by
  refine congrArg Host.Outcome.next ((requestArrives_asked asked (r := .freeString k.val) (by decide : 2 ≤ 1024) rfl).trans ?_)
  rw [show s.respond a.origin (.freeString k.val) = s.answerFree a.origin k.val from rfl, answerFree_written access]
  rfl

end Sys2Proof.Machine
end

section
/-! SUPPORT. What a change of phase does to the strings (R130): the operations that leave the phase and the strings' states. -/

namespace Sys2Proof.Machine

/-- R130: from one state to another the phase stays, and so do the strings' states and transactions. -/
structure State.Still (s t : State) : Prop where
  phase : t.ship.phase = s.ship.phase
  txn : ∀ k, (t.str k).txn = (s.str k).txn
  state : ∀ k, (t.str k).state = (s.str k).state

theorem State.Still.refl (s : State) : s.Still s := ⟨rfl, fun _ => rfl, fun _ => rfl⟩

theorem State.Still.trans {s t u : State} (h : s.Still t) (g : t.Still u) : s.Still u :=
  ⟨g.phase.trans h.phase, fun k => (g.txn k).trans (h.txn k), fun k => (g.state k).trans (h.state k)⟩

theorem still_of {s t : State} (phase : t.ship.phase = s.ship.phase) (strings : t.strings = s.strings) : s.Still t := by
  have str : t.str = s.str := funext fun k => congrArg (·[k]) strings
  exact ⟨phase, fun k => by rw [str], fun k => by rw [str]⟩

/-- R132: a round of marks where the phase stays. -/
theorem still_of_marks {s t : State} {m : Nat → Display → Urgency → Prop} (h : s.Marks t m)
    (phase : t.ship.phase = s.ship.phase) : s.Still t :=
  ⟨phase, fun k => by rw [h.strings k], fun k => by rw [h.strings k]⟩

/-- R132: one mark, in a table of any form. -/
theorem mark_still (s : State) (d : Nat) (u : Urgency) : s.Still (s.mark d u) := by
  have phase : (s.mark d u).ship.phase = s.ship.phase := congrArg Ship.phase (mark_screens s d u).ship_eq
  by_cases h : ∀ x, s.display d = some x → (x.markedAt u).rt.state = x.rt.state
  · exact still_of phase (mark_strings_still h)
  · push Not at h
    obtain ⟨x, hx, moves⟩ := h
    obtain ⟨-, other, home, -⟩ := mark_str_moved hx moves
    have stands : ∀ k, (s.str k).PlacesOf d ((s.mark d u).str k) := fun k => by
      by_cases hk : k = x.cfg.string
      · rw [hk]
        exact home
      · rw [other k hk]
        exact .refl d _
    exact ⟨phase, fun k => by rw [(stands k).1], fun k => by rw [(stands k).1]⟩

theorem marks_still (ms : List (Nat × Urgency)) (s : State) : s.Still (s.marks ms) := by
  induction ms generalizing s with
  | nil => exact .refl s
  | cons m ms ih => exact (mark_still s m.1 m.2).trans (ih _)

/-- R132: several displays marked, each by what it shows. -/
theorem markBy_still {s t : State} (h : s.Still t) (f : Nat → Display → Option Urgency) : s.Still (t.markBy f) :=
  h.trans (marks_still _ t)

theorem markWhere_still {s t : State} (h : s.Still t) (p : Nat → Display → Bool) (u : Urgency) : s.Still (t.markWhere p u) :=
  markBy_still h _

theorem markAll_still {s t : State} (h : s.Still t) (u : Urgency) : s.Still (t.markAll u) := markBy_still h _

/-! ### The clock, the light and the closures -/

/-- R19: quiet hours judged anew. -/
theorem evaluateQuiet_still (s : State) : s.Still s.evaluateQuiet := by
  unfold State.evaluateQuiet
  split
  · exact .refl s
  · obtain ⟨t, ht⟩ : ∃ t : State, t = s.onShip fun h => { h with quiet := s.quietNow } := ⟨_, rfl⟩
    have judged : s.Still t := by rw [ht]; exact still_of rfl rfl
    have marked : t.Still (t.markLightQuiet s.ship.light s.ship.quiet) := markWhere_still (.refl t) _ _
    rw [← ht]
    exact (judged.trans marked).trans (still_of rfl rfl)

/-- R5: the clock's notification of a minute. -/
theorem clockNotify_still (s : State) (boundary first : Bool) : s.Still (s.clockNotify boundary first) := by
  have programme : ∀ now, s.Still (s.programmeEvaluation now first) := fun now =>
    markWhere_still (by exact still_of rfl rfl) _ _
  have notices : ∀ (t : State) (now : Nat), t.Still (t.noticeEvaluation now) := fun t now =>
    markBy_still (by exact still_of rfl rfl) _
  have minute : ∀ t : State, t.Still t.minuteMarks := fun t => markWhere_still (.refl t) _ _
  unfold State.clockNotify
  dsimp only
  split
  · exact (((programme _).trans (notices _ _)).trans (minute _)).trans (evaluateQuiet_still _)
  · exact (programme _).trans (evaluateQuiet_still _)

theorem Ship.tick_phase (h : Ship) : h.tick.phase = h.phase := by
  unfold Ship.tick
  dsimp only
  split
  · rfl
  · split <;> rfl

theorem advanceSecond_still (s : State) : s.Still s.advanceSecond := by
  have ticked : s.Still (s.onShip Ship.tick) := still_of (Ship.tick_phase _) rfl
  unfold State.advanceSecond
  dsimp only
  split
  · exact ticked
  · exact ticked.trans (clockNotify_still _ _ _)

theorem setClock_still (s : State) (day minute second : Nat) : s.Still (s.setClock day minute second) := by
  by_cases h : day ≤ 255 ∧ minute ≤ 1439 ∧ second ≤ 59
  · have set : s.Still (s.clockSet day minute second) := still_of rfl rfl
    rw [setClock_taken s h]
    exact set.trans (clockNotify_still _ _ _)
  · rw [setClock_dropped s h]
    exact .refl s

theorem takeClosures_still (s : State) (first : Nat) (states : List Nat) : s.Still (s.takeClosures first states) := by
  obtain ⟨-, -, -, frame⟩ := takeClosures_spec s first states
  rw [frame]
  exact still_of rfl rfl

theorem takeLight_still (s : State) (level : Nat) : s.Still (s.takeLight level) := by
  unfold State.takeLight
  split
  · exact .refl s
  · split
    · exact .refl s
    · exact markWhere_still (by exact still_of rfl rfl) _ _

theorem cabinMark_still (s : State) (ns : List Nat) : s.Still (s.cabinMark ns) := by
  unfold State.cabinMark
  split
  · exact markWhere_still (by exact still_of rfl rfl) _ _
  · exact .refl s

theorem assistClear_still (s : State) (ns : List Nat) : s.Still (s.assistClear ns) := by
  unfold State.assistClear
  split
  · exact markWhere_still (by exact still_of rfl rfl) _ _
  · exact .refl s

theorem setDrill_still (s : State) (b : Bool) : s.Still (s.setDrill b) := by
  unfold State.setDrill
  split
  · exact .refl s
  · exact markAll_still (by exact still_of rfl rfl) _

theorem lineHeld_still (s : State) (q : Phase) : s.Still (s.lineHeld q) :=
  still_of (congrArg Ship.phase (queueReport_only s _ _ _ .ship (by decide))) (queueReport_only s _ _ _ .strings (by decide))

theorem silenceExpires_still (s : State) : s.Still s.silenceExpires := markAll_still (by exact still_of rfl rfl) _

/-! ### The entry to a phase -/

/-- R130: a phase has been entered: in ALERT and MUSTER every string is freed, elsewhere each keeps its state, and no transaction is
cut short. -/
def State.Turned (s t : State) : Prop :=
  ∀ k, (t.str k).txn = (s.str k).txn ∧
    (t.str k).state =
      if t.ship.phase = .alert ∨ t.ship.phase = .muster then freedState (s.str k).state else (s.str k).state

/-- R130: what leaves the strings as they are, before and after an entry. -/
theorem State.Turned.between {s t u v : State} (before : s.Still t) (h : t.Turned u) (after : u.Still v) : s.Turned v := by
  intro k
  obtain ⟨txn, state⟩ := h k
  rw [after.txn, after.state, after.phase, ← before.txn, ← before.state]
  exact ⟨txn, state⟩

theorem State.Entered.turned {s t : State} {r : Phase} {d : Bool} (h : s.Entered t r d) : s.Turned t := by
  obtain ⟨m, freed, -, marks⟩ := h.marks
  have phase : t.ship.phase = r := by rw [h.ship]
  intro k
  rw [marks.strings k, freed k, phase]
  exact ⟨rfl, rfl⟩

theorem State.Entered.runOut {s t : State} {r : Phase} {d : Bool} (h : s.Entered t r d) : t.ship.holdRunOut = false := by
  rw [h.ship]

/-- R9: a PHASE bulletin keeps the phase, or enters one with no hold run out. -/
theorem takePhase_turns (s : State) (q : Phase) (d : Bool) :
    s.Still (s.takePhase q d) ∨ (s.Turned (s.takePhase q d) ∧ (s.takePhase q d).ship.holdRunOut = false) := by
  rw [takePhase_eq_cell]
  cases phaseCell s.ship.phase q s.ship.line with
  | keep => exact .inl (.refl s)
  | drill => exact .inl (setDrill_still s d)
  | enter r => exact .inr ⟨(changePhase_entered s r d).turned, (changePhase_entered s r d).runOut⟩
  | held => exact .inl (lineHeld_still s q)

theorem applyBulletin_turns (s : State) (b : Bulletin) :
    s.Still (s.applyBulletin b) ∨ (s.Turned (s.applyBulletin b) ∧ (s.applyBulletin b).ship.holdRunOut = false) := by
  unfold State.applyBulletin
  split
  · exact .inl (setClock_still _ _ _ _)
  · split
    · exact takePhase_turns _ _ _
    · exact .inl (.refl s)
  · exact .inl (takeClosures_still _ _ _)
  · exact .inl (takeLight_still _ _)
  · exact .inl (cabinMark_still _ _)
  · exact .inl (assistClear_still _ _)
  · exact .inl (.refl s)

/-- R16: the end of LINK_LOST enters a phase only by a hold that ran out. -/
theorem bridgeAlive_turns (s : State) : s.Still s.bridgeAlive ∨ (s.Turned s.bridgeAlive ∧ s.ship.holdRunOut = true) := by
  obtain ⟨m, hm⟩ : ∃ m : State, m =
    { s with ship := { s.ship with silence := some (s.now + s.node.silenceTime * 1000), linkLost := false } } := ⟨_, rfl⟩
  have heard : s.Still m := by rw [hm]; exact still_of rfl rfl
  have restored := bridgeAlive_restored s
  rw [← hm] at restored
  obtain ⟨kept, ended⟩ := restored
  cases hl : s.ship.linkLost with
  | false =>
    rw [kept hl]
    exact .inl heard
  | true =>
    obtain ⟨marked, entered⟩ := ended hl
    by_cases hy : m.ship.phase = .standDown ∧ m.ship.holdRunOut = true
    · have runOut : s.ship.holdRunOut = true := by
        rw [← hy.2, hm]
      exact .inr ⟨(entered hy).turned.between heard (.refl _), runOut⟩
    · obtain ⟨marks, frame⟩ := marked hy
      have ship : s.bridgeAlive.ship = m.ship := (congrArg State.ship frame :)
      exact .inl (heard.trans (still_of_marks marks (by rw [ship])))

/-- R1, R15, R155: a bulletin enters at most one phase. -/
theorem takeBulletin_phase (s : State) (seq : Nat) (b : Bulletin) :
    s.Still (s.takeBulletin seq b) ∨ s.Turned (s.takeBulletin seq b) := by
  unfold State.takeBulletin
  split
  · have moved : s.Still { s with watermark := some seq } := still_of rfl rfl
    rcases applyBulletin_turns { s with watermark := some seq } b with applied | ⟨applied, cleared⟩
    · rcases bridgeAlive_turns (({ s with watermark := some seq } : State).applyBulletin b) with alive | ⟨alive, -⟩
      · exact .inl ((moved.trans applied).trans alive)
      · exact .inr (alive.between (moved.trans applied) (.refl _))
    · rcases bridgeAlive_turns (({ s with watermark := some seq } : State).applyBulletin b) with alive | ⟨-, ran⟩
      · exact .inr (applied.between moved alive)
      · rw [cleared] at ran
        cases ran
  · exact (bridgeAlive_turns s).imp_right (·.1)

end Sys2Proof.Machine
end

section
/-! SUPPORT. A request leaves the phase. -/

namespace Sys2Proof.Machine

/-- From one state to another the phase stays. -/
abbrev State.PhaseStays (s t : State) : Prop := t.ship.phase = s.ship.phase

theorem State.Only.phaseStays {ps : List Part} {s t : State} (h : s.Only t ps) (ship : Part.ship ∉ ps := by decide) :
    s.PhaseStays t := congrArg Ship.phase (h .ship ship)

/-- What a WRITE leaves, where it is taken, has the phase. -/
def WritePhase (s : State) (w : WriteResult) : Prop := ∀ t b, w = .ok (t, b) → s.PhaseStays t

theorem WriteSteady.phase {s : State} {w : WriteResult} (h : WriteSteady s w) : WritePhase s w := fun t b e => (h t b e).phaseStays

theorem writePhase_ok {s t : State} {b : Bool} (h : s.PhaseStays t) : WritePhase s (.ok (t, b)) := by
  rintro _ _ ⟨⟩
  exact h

/-- R19, R167: new node parameters judge quiet hours anew and enter no phase. -/
theorem setNode_phase (s : State) (n : NodeParams) : s.PhaseStays (s.setNode n) :=
  (congrArg Ship.phase (setNode_taken s n).2.ship :)

theorem writeCabin_phase (s : State) (i : Nat) (fs : FieldList) : WritePhase s (s.writeCabin i fs) := by
  unfold State.writeCabin
  dsimp only
  split
  · exact (writeSteady_error _ _).phase
  split
  · exact (writeSteady_error _ _).phase
  split
  · exact (writeSteady_error _ _).phase
  · exact writePhase_ok (cabinChanged_calm _ _ _).phaseStays

theorem writeTable_phase (s : State) (o t i : Nat) (fs : FieldList) : WritePhase s (s.writeTable o t i fs) := by
  unfold State.writeTable
  split
  · exact (writeEmpty_steady _ _ _).phase
  split
  · unfold State.writeNode
    split
    · exact (writeSteady_error _ _).phase
    · exact writePhase_ok (setNode_phase _ _)
  · exact (writeDisplay_steady _ _ _).phase
  · exact (writeString_steady _ _ _).phase
  · exact (writeNodes_steady _ _ _).phase
  · exact (writeSegment_steady _ _ _).phase
  · exact (writeDest_steady _ _ _).phase
  · exact (writeList_steady _ _ _).phase
  · exact (writeProgramme_steady _ _ _).phase
  · exact writeCabin_phase _ _ _
  · exact (writeNotice_steady _ _ _ _).phase
  · exact (writeText_steady _ _ _ _).phase
  · exact (writeTemplate_steady _ _ _).phase
  · exact (writeSelection_steady _ _ _).phase
  · exact (writeRegion_steady _ _ _).phase
  · exact (writeSteady_error _ _).phase

/-- What a CLEAR leaves, where it is taken, has the phase. -/
def ClearPhase (s : State) (w : Except ResultCode State) : Prop := ∀ t, w = .ok t → s.PhaseStays t

theorem ClearSteady.phase {s : State} {w : Except ResultCode State} (h : ClearSteady s w) : ClearPhase s w :=
  fun t e => (h t e).phaseStays

theorem clearPhase_ok {s t : State} (h : s.PhaseStays t) : ClearPhase s (.ok t) := by
  rintro _ ⟨⟩
  exact h

theorem clearPhase_steady {s t : State} (h : s.Steady t) : ClearPhase s (.ok t) := clearPhase_ok h.phaseStays

theorem clearEntry_phase (s : State) (o t i : Nat) : ClearPhase s (s.clearEntry o t i) := by
  unfold State.clearEntry
  dsimp only
  split
  · exact clearPhase_ok (setNode_phase _ _)
  · exact (clearDisplays_steady _ _).phase
  · exact (clearString_steady _ _).phase
  · exact clearPhase_steady (clearNodes_steady _ _)
  · exact clearPhase_steady (clearSegments_steady _ _)
  · exact clearPhase_steady (clearDest_steady _ _)
  · exact clearPhase_steady (clearList_steady _ _)
  · exact clearPhase_steady (clearProgramme_steady _ _)
  · exact clearPhase_ok (clearCabin_calm _ _).phaseStays
  · exact clearPhase_steady (clearNotice_steady _ _)
  · exact clearPhase_steady (clearTexts_steady _ _ _)
  · exact clearPhase_steady (clearTemplate_steady _ _)
  · exact clearPhase_steady (clearSelection_steady _ _)
  · exact clearPhase_ok rfl
  · exact (clearSteady_error _ _).phase

theorem clearAll_phase (s : State) (o t : Nat) : ClearPhase s (s.clearAll o t) := by
  unfold State.clearAll
  dsimp only
  split
  · exact clearPhase_ok (setNode_phase _ _)
  · exact (clearDisplays_steady _ _).phase
  · exact (clearStrings_steady _).phase
  · exact clearPhase_steady (clearNodes_steady _ _)
  · exact clearPhase_steady (clearSegments_steady _ _)
  · exact clearPhase_steady (foldl_only _ clearDest_steady _ _)
  · exact clearPhase_steady (foldl_only _ clearList_steady _ _)
  · exact clearPhase_steady (foldl_only _ clearProgramme_steady _ _)
  · exact clearPhase_ok (clearCabins_calm _).phaseStays
  · exact clearPhase_steady (foldl_only _ clearNotice_steady _ _)
  · exact clearPhase_steady (clearTexts_steady _ _ _)
  · exact clearPhase_steady (foldl_only _ clearTemplate_steady _ _)
  · exact clearPhase_steady (foldl_only _ clearSelection_steady _ _)
  · exact clearPhase_ok rfl
  · exact (clearSteady_error _ _).phase

/-- R95, R175: a warm restart is no change of phase. -/
theorem warmRestart_phase (s : State) : s.PhaseStays s.warmRestart := by
  have marked : ∀ u : State, u.PhaseStays u.restartDisplays := fun u => congrArg Ship.phase (markAll_screens _ _).ship_eq
  exact marked _

theorem checked_phase {s : State} (cs : List (Bool × ResultCode)) {a : Answer} (h : s.PhaseStays a.state) :
    s.PhaseStays (s.checked cs a).state := by
  unfold State.checked
  split
  · rfl
  · exact h

theorem ofWrite_phase {s : State} {w : WriteResult} (h : WritePhase s w) : s.PhaseStays (s.ofWrite w).state := by
  unfold State.ofWrite
  split
  · rfl
  · exact h _ _ rfl

theorem ofClear_phase {s : State} {w : Except ResultCode State} (h : ClearPhase s w) : s.PhaseStays (s.ofClear w).state := by
  unfold State.ofClear
  split
  · rfl
  · exact h _ rfl

theorem respond_phase (s : State) (o : Nat) (r : Request) : s.PhaseStays (s.respond o r).state := by
  unfold State.respond
  split
  · exact checked_phase _ (ofWrite_phase (writeTable_phase _ _ _ _ _))
  · exact checked_phase _ rfl
  · exact checked_phase _ (ofClear_phase (clearEntry_phase _ _ _ _))
  · exact checked_phase _ (ofClear_phase (clearAll_phase _ _ _))
  · exact checked_phase _ (markWhere_still (by exact still_of rfl rfl) _ _).phase
  · exact checked_phase _ rfl
  · exact checked_phase _ rfl
  · exact checked_phase _ rfl
  · exact checked_phase _ (warmRestart_phase s)
  · rfl
  · exact checked_phase _ rfl
  · rfl
  · rfl

end Sys2Proof.Machine
end

section
/-! SUPPORT. What each command does to the phase and the strings (R130), and the statement. -/

namespace Sys2Proof.Machine

/-- R130: the phase stays, or it has been entered with the strings as R130 says. -/
abbrev State.PhaseCourse (s t : State) : Prop := s.PhaseStays t ∨ s.Turned t

theorem State.Still.course {s t : State} (h : s.Still t) : s.PhaseCourse t := .inl h.phase

/-- R130: what leaves the strings as they are, before and after a course. -/
theorem State.PhaseCourse.between {s t u v : State} (before : s.Still t) (h : t.PhaseCourse u) (after : u.Still v) :
    s.PhaseCourse v := by
  rcases h with same | turned
  · exact .inl ((after.phase.trans same).trans before.phase)
  · exact .inr (turned.between before after)

theorem takeRequest_phase (s : State) (p : Port) (f : Frame) (r : Request) : s.PhaseStays (s.takeRequest p f r) := by
  have answered := respond_phase s f.origin r
  unfold State.takeRequest
  dsimp only
  split
  · split
    · rfl
    · refine Eq.trans ?_ answered
      unfold State.oweReply
      split <;> rfl
  · exact answered

theorem act_course (s : State) (p : Port) (f : Frame) (c : Content) : s.PhaseCourse (s.act p f c) := by
  unfold State.act
  split
  · split
    · exact (takeBulletin_phase _ _ _).imp_left (·.phase)
    · exact .inl rfl
  · split
    · exact .inl (takeRequest_phase _ _ _ _)
    · exact .inl rfl
  · exact .inl rfl

theorem setPort_still (s : State) (p : Port) (l : LinkPort) : s.Still (s.setPort p l) := by
  cases p <;> exact still_of rfl rfl

theorem forward_still (s : State) (p : Port) (f : Frame) : s.Still (s.forward p f) := by
  unfold State.forward
  dsimp only
  split
  · exact setPort_still _ _ _
  · exact .refl s

/-- R151 to R154: an arriving frame. -/
theorem frameArrives_course (s : State) (p : Port) (f : Frame) (c : Content) : s.PhaseCourse (s.frameArrives p f c) := by
  have acted : s.PhaseCourse (if s.concerns f.dest then s.act p f c else s) := by
    split
    · exact act_course _ _ _ _
    · exact .inl rfl
  unfold State.frameArrives
  split
  · dsimp only
    split
    · exact acted.between (.refl s) (forward_still _ _ _)
    · exact acted
  · exact .inl rfl

theorem bytesArrive_course (s : State) (p : Port) (bs : List Byte) : s.PhaseCourse (s.bytesArrive p bs) := by
  unfold State.bytesArrive
  split
  · exact frameArrives_course _ _ _ _
  · exact .inl rfl

/-! ### The line and the hold -/

/-- R7, R11: the filtered line. -/
theorem filterLine_course (s : State) : s.PhaseCourse s.filterLine := by
  cases hr : s.ship.raw with
  | false =>
    rw [filterLine_low hr]
    exact .inl rfl
  | true =>
    obtain ⟨t, ht⟩ : ∃ t : State, t = { s with ship := { s.ship with line := true } } := ⟨_, rfl⟩
    have raised : s.Still t := by rw [ht]; exact still_of rfl rfl
    rw [filterLine_high hr, ← ht]
    refine State.PhaseCourse.between raised ?_ (.refl _)
    unfold State.lineAsserted
    split
    · exact .inr (changePhase_entered t .alert false).turned
    · exact .inr (changePhase_entered t .alert false).turned
    · exact (setDrill_still t false).course
    · exact (setDrill_still t false).course

/-- R12: the hold's expiry. -/
theorem holdExpires_course (s : State) : s.PhaseCourse s.holdExpires := by
  unfold State.holdExpires
  split
  · exact .inl rfl
  · exact .inr (changePhase_entered s .normal false).turned

/-! ### Commands -/

/-- A timer's event, at the time at which it is due. -/
theorem expire_course (s : State) (deadline : Option Nat) {f : State → State} (h : ∀ t : State, t.PhaseCourse (f t)) :
    s.PhaseCourse (s.expire deadline f) := by
  unfold State.expire
  split
  · exact State.PhaseCourse.between (still_of rfl rfl) (h (s.reach _)) (.refl _)
  · exact .inl rfl

/-- R130: a command's outcome takes a course to the state it leaves. -/
def OutcomeCourse (s : State) (o : Result) : Prop := ∀ t, o = .next t → s.PhaseCourse t

theorem outcomeCourse_next {s t : State} (h : s.PhaseCourse t) : OutcomeCourse s (.next t) := by
  rintro _ ⟨⟩
  exact h

theorem outcomeCourse_only {ps : List Part} {s t : State} (h : s.Only t ps) (ship : Part.ship ∉ ps := by decide) :
    OutcomeCourse s (.next t) := outcomeCourse_next (.inl (h.phaseStays ship))

theorem outcomeCourse_expire {s : State} (deadline : Option Nat) {f : State → State} (h : ∀ t : State, t.PhaseCourse (f t)) :
    OutcomeCourse s (.next (s.expire deadline f)) := outcomeCourse_next (expire_course s deadline h)

/-- R130: every command but a power-on reset. -/
theorem exec_course (i : Instr) (s : State) (reset : ∀ straps, i ≠ .powerOnReset straps) : OutcomeCourse s (exec i s) := by
  have bulletin : ∀ (a : Arrival) (b : Bulletin), OutcomeCourse s (.next (s.bulletinArrives a b)) := fun a b =>
    outcomeCourse_next (frameArrives_course _ _ _ _)
  have request : ∀ (a : Arrival) (r : Request), OutcomeCourse s (.next (s.requestArrives a r)) := fun a r =>
    outcomeCourse_next (frameArrives_course _ _ _ _)
  have reply : ∀ (k : StringNo) (tag : Nat) (r : StringReply), OutcomeCourse s (.next (s.stringReply k tag r)) := fun k tag r =>
    outcomeCourse_only (stringReply_only _ _ _ _)
  cases i with
  | powerOnReset straps => exact absurd rfl (reset straps)
  | musterInChange level =>
    refine outcomeCourse_next (.inl ?_)
    unfold State.rawLevel
    split <;> rfl
  | musterLineChange => exact outcomeCourse_expire _ filterLine_course
  | clockSecondAdvance => exact outcomeCourse_expire _ fun t => (advanceSecond_still t).course
  | standDownHoldExpiry => exact outcomeCourse_expire _ holdExpires_course
  | bridgeSilenceExpiry => exact outcomeCourse_expire _ fun t => (silenceExpires_still t).course
  | lineSignalChange p present => exact outcomeCourse_only (setPort_steady _ _ _)
  | portUp p => exact outcomeCourse_expire _ fun t => (setPort_still _ _ _).course
  | portDown p => exact outcomeCourse_expire _ fun t => .inl (portFalls_steady t p).phaseStays
  | frameReceive p bytes => exact outcomeCourse_next (bytesArrive_course _ _ _)
  | timeBulletin a day minute second => exact bulletin _ _
  | phaseBulletin a phase drill => exact bulletin _ _
  | closuresBulletin a first states => exact bulletin _ _
  | lightBulletin a level => exact bulletin _ _
  | cabinMarkBulletin a cabins => exact bulletin _ _
  | assistClearBulletin a cabins => exact bulletin _ _
  | write a table index fields => exact request _ _
  | read a table index => exact request _ _
  | clear a table index => exact request _ _
  | clearTable a table => exact request _ _
  | adjustSteps a kind value code => exact request _ _
  | holdString a string => exact request _ _
  | freeString a string => exact request _ _
  | retryDisplay a display => exact request _ _
  | restart a => exact request _ _
  | status a => exact request _ _
  | displayStatus a display => exact request _ _
  | identify a => exact request _ _
  | transmitBegin p => exact outcomeCourse_only (beginTransmit_steady _ _)
  | transmitEnd p => exact outcomeCourse_only (setPort_steady _ _ _)
  | dispatchTake k => exact outcomeCourse_only (dispatchTaken_steady _ _)
  | pollTake k => exact outcomeCourse_only (pollTaken_steady _ _)
  | probeTake k => exact outcomeCourse_only (probeTaken_steady _ _)
  | ready k tag cls => exact reply _ _ _
  | busy k tag ms => exact reply _ _ _
  | ack k tag => exact reply _ _ _
  | nak k tag => exact reply _ _ _
  | refresh k tag ms => exact reply _ _ _
  | events k tag codes =>
    refine outcomeCourse_next ?_
    unfold State.eventsReply
    split
    · exact reply _ _ _ _ rfl
    · exact .inl rfl
  | stringReplyDiscard k bytes =>
    refine outcomeCourse_next ?_
    unfold State.replyBytes
    split
    · exact reply _ _ _ _ rfl
    · exact .inl rfl
  | replyTimeout k => exact outcomeCourse_expire _ fun t => .inl (unanswered_steady t k).phaseStays
  | refreshBusyReached display => exact outcomeCourse_expire _ fun _ => .inl rfl
  | minRefreshExpiry display => exact outcomeCourse_expire _ fun _ => .inl rfl
  | pollDue display => exact outcomeCourse_expire _ fun _ => .inl rfl
  | probeDue display => exact outcomeCourse_expire _ fun _ => .inl rfl
  | solverTake => exact outcomeCourse_only (solverTakes_only s)
  | sweepEnd => exact outcomeCourse_only (sweepEnds_only s)

/-- Settles O39: the two requests by their answers, and every change of phase by the entry it is. -/
theorem holdAndFree : Obligations.HoldAndFree := by
  have held : ∀ x, heldState x = match x with
      | .idle => .held
      | .opened => .holding
      | x => x := fun x => by cases x <;> rfl
  have freed : ∀ x, freedState x = match x with
      | .held => .idle
      | .holding => .opened
      | x => x := fun x => by cases x <;> rfl
  refine ⟨fun a k s asked access => ?_, fun i s t reset h changes k => ?_⟩
  · have hold := exec_holdString asked access
    have free := exec_freeString asked access
    rw [held] at hold
    rw [freed] at free
    exact ⟨hold, free⟩
  · rcases exec_course i s reset t h with same | turned
    · exact absurd same changes
    · obtain ⟨txn, state⟩ := turned k
      rw [freed] at state
      exact ⟨txn, state⟩

end Sys2Proof.Machine
end
